-- ==== Sys2Proof/Word.lean ====
section
/-!
DEFINITION. The words the machine computes on: 32-bit register words and residues, bytes, and the little-endian
conversions between byte lists and numbers (R9).
-/

namespace Sys2Proof

/-- A 32-bit register word. -/
abbrev Word := BitVec 32

/-- A byte of memory. -/
abbrev Byte := BitVec 8

end Sys2Proof
end

