-- ==== Sys2Proof/Machine/Types.lean ====
section
/-!
DEFINITION. The records of the spec as plain structures: status codes (R15), ciphertext descriptors (R34), parameter
sets (R38) and their curves (R43).
-/

namespace Sys2Proof.Machine

/-- Status codes (R15). -/
inductive Status
  | OK | STATE | RANGE | LEDGER | QFULL | EXPIRED | POISON | DENIED | BUSY | TIMEOUT | VERSION | WINDOW | PROTO
  | SAT | DEADLOCK | ABORTED | NOT_READY | BAD_SIGNATURE | INPUT_RANGE | NOT_ON_CURVE | BAD_CURVE | SCALAR_ZERO
  deriving DecidableEq, Repr

/-- The 8-bit code of a status (R15). -/
def Status.code : Status → Nat
  | .OK => 0x00 | .STATE => 0x01 | .RANGE => 0x02 | .LEDGER => 0x03 | .QFULL => 0x04 | .EXPIRED => 0x05
  | .POISON => 0x06 | .DENIED => 0x07 | .BUSY => 0x08 | .TIMEOUT => 0x09 | .VERSION => 0x0A | .WINDOW => 0x0B
  | .PROTO => 0x0C | .SAT => 0x0D | .DEADLOCK => 0x0E | .ABORTED => 0x0F | .NOT_READY => 0x10
  | .BAD_SIGNATURE => 0x20 | .INPUT_RANGE => 0x21 | .NOT_ON_CURVE => 0x22 | .BAD_CURVE => 0x23
  | .SCALAR_ZERO => 0x24

/-- The status with a code; RANGE for a code that names none. -/
def statusOfCode (n : Nat) : Status :=
  match n with
  | 0x00 => .OK | 0x01 => .STATE | 0x02 => .RANGE | 0x03 => .LEDGER | 0x04 => .QFULL | 0x05 => .EXPIRED | 0x06 => .POISON
  | 0x07 => .DENIED | 0x08 => .BUSY | 0x09 => .TIMEOUT | 0x0A => .VERSION | 0x0B => .WINDOW | 0x0C => .PROTO | 0x0D => .SAT
  | 0x0E => .DEADLOCK | 0x0F => .ABORTED | 0x10 => .NOT_READY | 0x20 => .BAD_SIGNATURE | 0x21 => .INPUT_RANGE
  | 0x22 => .NOT_ON_CURVE | 0x23 => .BAD_CURVE | 0x24 => .SCALAR_ZERO | _ => .RANGE

/-- A ciphertext descriptor, field by field (R34). `mbound` is the signed Q8.8 value, `reserved` the reserved bits
gathered into one number (zero in a legal descriptor). -/
structure Ctd where
  mbound : Int := 0
  noise : Nat := 0
  scale : Nat := 0
  addr : Nat := 0
  ksid : Nat := 0
  dim : Nat := 0
  layout : Nat := 0
  logn : Nat := 0
  comp : Nat := 0
  level : Nat := 0
  pset : Nat := 0
  kind : Nat := 0
  lwemod : Nat := 0
  ntt : Bool := false
  raised : Bool := false
  boot : Bool := false
  ovr : Bool := false
  aux : Nat := 0
  tag : Nat := 0
  reserved : Nat := 0
  deriving DecidableEq, Repr

/-- The GAUZE bytes of a parameter set (R153). -/
structure GauzeParams where
  brLogn : Nat := 0
  glev : Nat := 0
  bgLog : Nat := 0
  ksDigits : Nat := 0
  ksBaseLog : Nat := 0
  repackLevel : Nat := 0
  repackDepth : Nat := 0
  repackSeq : Nat := 0
  deriving DecidableEq, Repr

/-- A live parameter set (R38): its descriptor's fields, its ten curves as (x, y) points in signed Q8.8 (R43) and the
DIGEST computed at load (R39 step 7). -/
structure Pset where
  live : Bool := false
  kinds : Nat := 0
  logn : Nat := 0
  numQ : Nat := 0
  numP : Nat := 0
  dnum : Nat := 0
  security : Nat := 0
  secret : Nat := 0
  lweN : Nat := 0
  lweLogq : Nat := 0
  lmode : Nat := 0
  sigma : Nat := 0
  freshNoise : Nat := 0
  margin : Nat := 0
  minprec : Nat := 0
  encNoise : Int := 0
  bootMbound : Int := 0
  evalmodDepth : Nat := 0
  raiseI : Nat := 0
  scaleTol : Nat := 0
  curveAddr : Nat := 0
  bgvT : Nat := 0
  qslot : List Nat := []
  pslot : List Nat := []
  gauze : GauzeParams := {}
  curves : List (List (Int × Int)) := []
  digest : List Byte := []
  deriving DecidableEq, Repr

/-- What an engine knows of a parameter set through the prime table: the chain and special primes, their L2Q, ROOT and
MONT bits (R56, R61, R65). -/
structure PsetCtx where
  ps : Pset := {}
  q : List Nat := []
  p : List Nat := []
  l2 : List Nat := []
  root : List Nat := []
  proot : List Nat := []
  mont : List Bool := []
  pmont : List Bool := []
  deriving DecidableEq, Repr

/-- The world a request comes from (R422). -/
inductive World
  | normal
  | secure
  deriving DecidableEq, Repr

/-- A requester of memory (table "Source classes"; R290, R431). A CCC asks for its cluster. -/
inductive Who
  | tile (i : Nat)
  | ccc (c : Nat)
  | host
  | cxl
  | peer
  | fw
  | sec
  deriving DecidableEq, Repr

/-- Who accesses a register (R497): a PCIe function, or a firmware core by its number in R503 (0 SEC, 1 PMC, 2 SCH, 3 to 10
CCC0 to CCC7). -/
inductive RegFrom
  | fn (f : Fin 64)
  | core (k : Fin 11)
  deriving DecidableEq, Repr

/-- The world of a register access (R422). -/
def RegFrom.world : RegFrom → World
  | .core k => if k < 2 then .secure else .normal
  | .fn _ => .normal

/-- What an atomic acts on: an operand at a device-local address (R243), or an element of a reduction with OP ATOM (R258). -/
inductive AtomAt
  | mem (a : Nat)
  | red (cluster : Fin 8) (rid : BitVec 8) (elem : Nat)
  deriving DecidableEq, Repr

/-- A memory request: a read of so many bytes, or a write of bytes. -/
inductive MemOp
  | read (len : Nat)
  | write (bs : List Byte)
  deriving DecidableEq, Repr

/-- What a controller finds when it reads a line (R477, R481, R486): no fault; a symbol corrected in a row, with whether a
spare row remains for a soft repair; a fault that the one retry passes; a fault that it does not. -/
inductive LineCheck
  | ok
  | corrected (symbol : BitVec 8) (row : Nat) (spare : Bool)
  | retried (row : Nat) (spare : Bool)
  | bad
  deriving DecidableEq, Repr

/-- A line request at a memory controller (R284): its source class, requester, address and operation within one line; `xfer`: it is the
next line of that transfer of the requesting tile (MOVE, MOVEO). -/
structure LineReq where
  cls : Fin 8 := 0
  who : Who := .fw
  a : Nat := 0
  op : MemOp := .read 64
  xfer : Option Nat := none
  deriving DecidableEq, Repr

/-- The two instruction streams of a tile (R196). -/
inductive Side
  | access | execute
  deriving DecidableEq, Repr

/-- The fields of a native instruction (R203) other than UNIT and OP, which the command's name gives, with its operand
word (R207; zero when EXT is 0). -/
structure NInstr where
  ldg : BitVec 4 := 0
  ext : Bool := false
  opa : BitVec 51 := 0
  wa : BitVec 24 := 0
  wb : BitVec 24 := 0
  sig : BitVec 12 := 0
  opd : BitVec 128 := 0
  deriving DecidableEq, Repr

/-- The word of a NOP, or of an instruction whose UNIT and OP no operation has (R203, R211): `code` is 256 × UNIT + OP, 0 for NOP. -/
structure CodedInstr where
  code : BitVec 12 := 0
  word : NInstr := {}
  deriving DecidableEq, Repr

/-- The word of an OCLD, and the operand-cache lines that a PST writes in the cycle of the copy's write (R174). -/
structure CacheCopy where
  word : NInstr := {}
  lost : List (BitVec 10) := []
  deriving DecidableEq, Repr

/-- How a host's write comes through BAR4: whether with the poisoned (EP) attribute (R375, R478), and how many engine writes to a
scratchpad word that it covers in part make it start again (R235, R244). -/
structure HostWrite where
  ep : Bool := false
  restarts : Nat := 0
  deriving DecidableEq, Repr

/-- What other requesters do to a write of a scratchpad: the words that one of higher priority writes in the same cycle, by number (R241),
and how many engine writes to a word that it covers in part make it start again (R235, R244). -/
structure Rivals where
  lost : List (BitVec 23) := []
  restarts : Nat := 0
  deriving DecidableEq, Repr

/-- A 32-bit word of a 4 KiB page of BAR0; none for ERR_CNT (R10, R475). -/
structure PageWord where
  page : BitVec 14
  word : Option (BitVec 10) := none
  deriving DecidableEq, Repr

/-- An operand resolved to where its words are: the tile's scratchpad, a data queue, or a tile register (R172, R207). -/
inductive Opnd
  | spad (off : Nat)
  | queue (q : Nat)
  | tr (k : Nat)
  deriving DecidableEq, Repr

/-- What the host answers to a device read (R378): the data, data with the poisoned (EP) attribute, Unsupported Request,
Completer Abort, a malformed or unexpected completion, or no completion within the completion timeout. -/
inductive HostAnswer
  | data (bs : List Byte)
  | ep
  | ur
  | ca
  | malformed
  | none
  deriving DecidableEq, Repr

/-- The status of a host answer (R378). -/
def HostAnswer.status : HostAnswer → Status
  | .data _ => .OK
  | .ep => .POISON
  | .ur => .RANGE
  | .ca => .DENIED
  | .malformed => .PROTO
  | .none => .TIMEOUT

/-- A packet of the peer link protocol (R352): the header's fields and the payload, 64 bytes a line. -/
structure Packet where
  type : Nat := 0
  vc : Nat := 0
  cls : Nat := 0
  mc : Bool := false
  len : Nat := 0
  ttl : Nat := 0
  dst : Nat := 0
  src : Nat := 0
  tag : Nat := 0
  addr : Nat := 0
  aux : Nat := 0
  payload : List Byte := []
  deriving DecidableEq, Repr

/-- A flit as the receiver sees it (table "Flit"): whether its CRC holds, the header, the credit return, and the packets
that end in its body. -/
structure Flit where
  crc : Bool := true
  fseq : BitVec 12 := 0
  ack : BitVec 12 := 0
  nak : Bool := false
  idle : Bool := false
  cvc : Fin 4 := 0
  ccls : Fin 2 := 0
  credits : BitVec 16 := 0
  packets : List Packet := []
  deriving DecidableEq, Repr

/-- One segment of a native binary (R199): the 128-bit words of one stream of one tile for one graph epoch. -/
structure Segment where
  tile : Nat
  side : Side
  epoch : Nat
  words : List Nat
  deriving DecidableEq, Repr

/-- A reduction of a native binary (R253): its cluster, the graph epoch at whose start it opens, its 128-bit descriptor,
and the graph epoch at whose start it closes (none: at the end of the record). -/
structure RedPlan where
  cluster : Nat
  opens : Nat
  desc : Nat
  closes : Option Nat
  deriving DecidableEq, Repr

/-- One iteration dimension of a stream-program entry (R262). -/
structure Dim where
  rank : Nat := 0
  m : Int := 1
  axis : Nat := 0
  t : Nat := 1
  e : Nat := 1
  deriving DecidableEq, Repr

/-- One entry of a running stream program (R262) with the blocks of its block list (lines, global address; R271) and its
progress: next tile (or block), lines of it already sent to a peer, words of it that wait for room in the inbound queue, tiles in all,
waiting on a counter, waiting for a seal, and ended. -/
structure StreamEntry where
  kind : Nat := 0
  esize : Nat := 1
  hilbert : Bool := false
  queue : Nat := 0
  toq : Bool := false
  nbuf : Nat := 1
  fullctr : Nat := 0
  freectr : Nat := 0
  land : Nat := 0
  base : Nat := 0
  lim : List Nat := []
  off : List Int := []
  astr : List Nat := []
  bufpitch : Nat := 0
  dims : List Dim := []
  lane : Nat := 0
  lanerel : Bool := false
  blocks : List (Nat × Nat) := []
  next : Nat := 0
  part : Nat := 0
  held : List Nat := []
  total : Nat := 0
  waiting : Bool := false
  unsealed : Bool := false
  ended : Bool := false
  deriving DecidableEq, Repr

/-- A loaded graph (R209, R219, R253, R274, R309, R318): modules it spans, batch width, planned graph epochs, clusters as a mask,
SEALED flag, declared scratchpad bytes, parameter sets used, segments, descriptor lists (cluster, 128-bit entry), reductions,
noise steps (cluster, 128-bit descriptor) and the resolved parts of its shapes (R272); with the program hash and the configuration hash it was translated for (R220). -/
structure Graph where
  live : Bool := false
  prog : List Byte := []
  cfg : List Byte := []
  modules : Nat := 1
  width : Nat := 1
  epochs : Nat := 0
  clusters : Nat := 0
  isSealed : Bool := false
  spad : Nat := 0
  psets : List Nat := []
  segments : List Segment := []
  descs : List (Nat × Nat) := []
  reds : List RedPlan := []
  noise : List (Nat × Nat) := []
  shapes : List StreamEntry := []
  deriving DecidableEq, Repr

/-- Test port instructions (R427, R533): those of IEEE 1149.1 and 1149.6 that do not reach internal state, and any other. -/
inductive JtagIr
  | BYPASS | IDCODE | SAMPLE_PRELOAD | EXTEST | EXTEST_PULSE | EXTEST_TRAIN
  | other (code : Nat)
  deriving DecidableEq, Repr

/-- A read of host memory that gets no completion (R378): of a tile's transfer, by its place among them; of a stream program's
entry; of a record in a host ring; of the seed of the record that the rotation admits next; of a control record's operand; or of
a cluster's descriptor load, by its place among those awaited. -/
inductive HostReadOf
  | transfer (tile : Fin 64) (k : Nat)
  | stream (tile : Fin 64) (entry : Fin 8)
  | record (q : BitVec 18)
  | seed
  | control (r : Nat)
  | load (cl : Fin 8) (k : Nat)
  deriving DecidableEq, Repr

/-- What a mailbox command does (R409, R421): the serving core takes the pending request of a function or of a management
endpoint, or a request of a management endpoint arrives. -/
inductive MboxFrom
  | fn (f : Fin 64)
  | mgmt (eid : BitVec 8)
  | arrive (eid : BitVec 8) (msg : List Byte)
  deriving DecidableEq, Repr

/-- The SCH's answer on the operations of a BVI module, which the BVI reference lays out and not this spec (R218, R219): every
operation legal and within range with kinds its parameter sets allow (step 3); every ciphertext on one cluster (step 4); the byte
offsets in the module of the shape descriptors its operations name (R272); and the native binary its translation gives. -/
structure Translation where
  legal : Bool := true
  placed : Bool := true
  shapes : List Nat := []
  native : Graph := {}
  deriving DecidableEq, Repr

/-- A configuration request of a function (R371, R517): a 32-bit word read or written, or a write of one of the fields that the
device acts on: Enable Relaxed Ordering (R377), MSI-X Enable and Function Mask (R386), the PF's BAR4 size as a power of two (R372). -/
inductive CfgOp
  | read (dw : BitVec 10)
  | write (dw : BitVec 10) (v : BitVec 32)
  | relaxed (on : Bool)
  | msix (on mask : Bool)
  | bar4 (bits : Fin 5)
  deriving DecidableEq, Repr

/-- The endpoint of an SPDM request (R437): the CMA/SPDM DOE mailbox of the PF, or a management endpoint. -/
inductive SpdmFrom
  | doe
  | mgmt (eid : BitVec 8)
  deriving DecidableEq, Repr

/-- An SPDM request after its code: version, Param1, Param2 and what follows. -/
structure SpdmReq where
  ver : BitVec 8 := 0x12
  p1 : BitVec 8 := 0
  p2 : BitVec 8 := 0
  body : List Byte := []
  deriving DecidableEq, Repr

/-- A request on a DOE mailbox of the PF (R371): discovery with an index, or an SPDM request with its code. -/
inductive DoeReq
  | discovery (index : BitVec 8)
  | spdm (code : BitVec 8) (r : SpdmReq)
  deriving DecidableEq, Repr

/-- A PLDM request (R407, R408): of a PLDM type with its payload, or a firmware image that PLDM type 5 has delivered whole. -/
inductive PldmReq
  | message (type : BitVec 6) (bs : List Byte)
  | image (bs : List Byte)
  deriving DecidableEq, Repr

/-- An AtomicOp of PCIe (R371). -/
inductive PcieAtom
  | fetchAdd (v : BitVec 64)
  | swap (v : BitVec 64)
  | cas (v cmp : BitVec 64)
  deriving DecidableEq, Repr

end Sys2Proof.Machine
end

