-- ==== Sys2Proof/Syntax.lean ====
section
/-!
DEFINITION. The commands of the block, one constructor per row of spec/opcode_table.json, with the operands the spec
gives the row. A command is an operation the outside asks for, an event on a pin or a link, or an event of the device's
own time that the row names.
-/

namespace Sys2Proof

open Sys2Proof.Machine



/-- The commands (spec/opcode_table.json). -/
inductive Instr
  /-- POR (R510): Release of POR_N samples the straps, resets every page and starts boot from stage 0x10, destroying sealing domains. -/
  | por (straps : BitVec 7) (sysref : Bool)
  /-- WARM_RST_N (R510): Release of WARM_RST_N resets all pages except the kept ones, keeps tier contents in self-refresh and boots from stage 0x20. -/
  | warmRstN
  /-- SWRST (R505): A write of RESET.SWRST.GO with key 0x5752 resets the module as WARM_RST_N does, 1 µs after the write completes. -/
  | swrst (o : RegFrom) (key : BitVec 16)
  /-- PERST_N (R510): Release of PERST_N resets the PCIe link, configuration space and host-side pages, ends records without CQE and frees sessions. -/
  | perstN
  /-- VAON_BROWNOUT (R536): VAON below 0.70 V for 1 µs causes an internal power-on reset, as if POR_N were asserted. -/
  | vaonBrownout (straps : BitVec 7) (sysref : Bool)
  /-- AONCLK_LOSS (R529): AONCLK stopped for more than 10 µs hands the Gloaming island to the on-die 25 MHz oscillator and logs the event. -/
  | aonclkLoss
  /-- AONCLK_RESTORE (R529): After 1,024 good AONCLK cycles the external clock takes over again from the on-die oscillator. -/
  | aonclkRestore
  /-- PATCH_VERIFY (R406): At stage 0x30 SEC verifies both patch banks of every core type and loads the valid image with the higher SVN. -/
  | patchVerify
  /-- MEM_TRAINING_DONE (R295): Training of a stack or far-tier group ends as READY, derated or FAILED, and a FAILED unit takes its half's range offline. -/
  | memTrainingDone (m : Fin 28) (outcome : Fin 3) (cap : BitVec 8)
  /-- READY_DECLARE (R514): When all boot stages have ended the module declares itself ready in one step, leaving the first-light window. -/
  | readyDeclare
  /-- CONFIG_REQUEST (R517): A PCIe configuration request is answered with RRS after POR before ready, and otherwise from the configuration space. -/
  | configRequest (f : Fin 64) (op : CfgOp)
  /-- DOE_REQUEST (R371): A request on a PF DOE mailbox is served by discovery or carried to the SPDM responder. -/
  | doeRequest (q : DoeReq)
  /-- EPOCH_BOUNDARY (R303): Every LEN reference cycles, adjusted by slew, the epoch generator starts a new epoch and increments EPOCH.COUNT. -/
  | epochBoundary (power : BitVec 16)
  /-- RAIL_RAMP_DONE (R452): A half rail reaches the voltage of a raised operating point, allowing the clock switch. -/
  | railRampDone (half : Fin 2) (op : Fin 6)
  /-- SYNC_IN_PULSE (R306): A follower captures a SYNC_IN pulse within ±512 cycles and slews its epoch by the error, clamped to ±64. -/
  | syncInPulse (at_ : Int)
  /-- SYNC_MISS (R306): The capture window closes without a pulse, so the epoch keeps length LEN and the miss count rises. -/
  | syncMiss
  /-- EPOCH_CTL_WRITE (R304): A write of LEN, DET or ROLE is accepted only with no record dispatched and takes effect at the next boundary. -/
  | epochCtlWrite (o : RegFrom) (len : BitVec 17) (role : BitVec 2) (det : Bool)
  /-- EPOCH_COUNTLO_READ (R321): A read of EPOCH.COUNTLO, or FN.EPOCHLO, latches the high word for a consistent pair. -/
  | epochCountloRead (o : RegFrom) (fn : Option (Fin 64))
  /-- ESET_SEND (R366): A write of ROUTER.ESET.SEND makes a root or locked follower send EPOCH_SET carrying C at the next half epoch. -/
  | esetSend (o : RegFrom) (past : Bool)
  /-- DOORBELL_SQTAIL (R382): A write of a queue's SQTAIL doorbell announces new records, coalescing, latching or discarding it by queue state. -/
  | doorbellSqtail (f : Fin 64) (slot : BitVec 18) (v : BitVec 16)
  /-- DOORBELL_CQHEAD (R382): A write of a queue's CQHEAD doorbell frees completion slots, or is discarded if it passes the last CQE written. -/
  | doorbellCqhead (f : Fin 64) (slot : BitVec 18) (v : BitVec 16)
  /-- WORK_RECORD_FETCH (R378): The QE's read of a work record from a host ring completes, or fails with a CQE of TAG 0 and a queue hold. -/
  | workRecordFetch (q : BitVec 18) (ans : HostAnswer)
  /-- RECORD_ADMIT (R21): The QE admits the head record of a queue once the queue is ACTIVE, the session is bound and the regulator grants a slot. -/
  | recordAdmit (ans : HostAnswer)
  /-- TILE_RECORD_DONE (R200): A tile's part completes when both streams have issued END, results are visible and its writes are acknowledged. -/
  | tileRecordDone (i : Fin 64)
  /-- CQE_WRITE (R31): After every memory effect is visible the QE writes the record's single CQE, holding the queue on an error status. -/
  | cqeWrite (r : Nat)
  /-- INTERRUPT_TIMER (R386): At the ITIME-th boundary after the first unsignalled CQE the queue's vector is sent. -/
  | interruptTimer (q : BitVec 18)
  /-- ENABLE (R390): Queue command 1 takes a DISABLED queue to ACTIVE with indices 0 and PHASE 1. -/
  | enable (o : RegFrom) (f : Fin 64)
  /-- SUSPEND (R390): Queue command 2 takes an ACTIVE queue to SUSPENDED. -/
  | suspend (o : RegFrom) (f : Fin 64)
  /-- RESUME (R391): Queue command 3 returns a SUSPENDED queue to ACTIVE and dispatch continues in ring order. -/
  | queueResume (o : RegFrom) (f : Fin 64)
  /-- RELEASE (R391): Queue command 4 returns a HELD queue to ACTIVE. -/
  | release (o : RegFrom) (f : Fin 64)
  /-- RELEASE_ABORT (R390): Queue command 5 completes a HELD queue's admitted undispatched records ABORTED and makes it ACTIVE. -/
  | releaseAbort (o : RegFrom) (f : Fin 64)
  /-- DRAIN (R392): Queue command 6 puts the queue in DRAINING, which admits nothing and latches doorbells. -/
  | drain (o : RegFrom) (f : Fin 64)
  /-- DISABLE (R392): Queue command 7 disables a quiet queue, discarding latches, the late mark, its binding and tokens, or reports BUSY. -/
  | disable (o : RegFrom) (f : Fin 64)
  /-- WRITE_CTX (R390): Queue command 8 writes the staged context, all fields when DISABLED and only rate and interrupt fields otherwise. -/
  | writeCtx (o : RegFrom) (f : Fin 64)
  /-- READ_CTX (R390): Queue command 9 copies the queue context into FN.QCTX. -/
  | readCtx (o : RegFrom) (f : Fin 64)
  /-- SESSION_NONCE (R397): Control record 0x80 writes a fresh single-use nonce for a later SESSION_OPEN. -/
  | sessionNonce (r : Nat)
  /-- SESSION_OPEN (R398): Control record 0x81 checks a signed session request and opens the session bound to its key set. -/
  | sessionOpen (r : Nat) (ans : HostAnswer)
  /-- SESSION_BIND (R397): Control record 0x82 binds a queue of the function to an open session. -/
  | sessionBind (r : Nat)
  /-- SESSION_UNBIND (R397): Control record 0x83 unbinds a queue with no admitted records from its session. -/
  | sessionUnbind (r : Nat)
  /-- SESSION_CLOSE (R400): Control record 0x84 puts a session in DRAINING, with its CQE written when the session becomes FREE. -/
  | sessionClose (r : Nat)
  /-- SESSION_QUERY (R397): Control record 0x85 writes the session's state, key set, limits and remaining quotas. -/
  | sessionQuery (r : Nat)
  /-- SESSION_EXPIRE (R400): At the boundary at which EPOCH.COUNT reaches EXPIRES the session enters DRAINING. -/
  | sessionExpire (sid : BitVec 16)
  /-- SESSION_FREE (R400): A draining session with no admitted records left becomes FREE, unbinds its queues and returns its key set to STATE 1. -/
  | sessionFree (sid : BitVec 16)
  /-- FLR (R380): A function-level reset aborts the function's records, closes its sessions, disables its queues and clears its BAR4 entries. -/
  | flr (f : Fin 64)
  /-- FNQ_WRITE (R373): A write of QE.FNQ assigns a function's QID range, refused if ranges overlap or an active queue would move. -/
  | fnqWrite (o : RegFrom) (f : Fin 64) (base : BitVec 18) (count : BitVec 19)
  /-- BAR4MAP_WRITE (R374): A PF write of a BAR4 segment map entry maps a segment, refused for bad alignment, targets or service mode. -/
  | bar4mapWrite (o : RegFrom) (f seg : Fin 64) (v : BitVec 128)
  /-- HWMAP_WRITE (R376): A PF write of a host window aperture entry maps a 4 GiB aperture to host bus addresses for one function. -/
  | hwmapWrite (o : RegFrom) (k : Fin 256) (v : BitVec 128)
  /-- BAR4_READ (R375): A host read through BAR4 is performed line by line by the rules of the memory reached and answered as the status table maps. -/
  | bar4Read (f : Fin 64) (off : BitVec 40) (n : Nat)
  /-- BAR4_WRITE (R375): A host write through BAR4 is performed or discarded line by line, logging discarded lines. -/
  | bar4Write (f : Fin 64) (off : BitVec 40) (bs : List Byte) (how : HostWrite)
  /-- BAR4_ATOMICOP (R375): A PCIe FetchAdd, Swap or CAS through BAR4 reaches a scratchpad operand or is refused as RANGE. -/
  | bar4Atomicop (f : Fin 64) (off : BitVec 40) (n : Nat) (op : PcieAtom) (restarts : Nat)
  /-- HOST_READ_TIMEOUT (R378): A device read of host memory without completion within the completion timeout ends with TIMEOUT. -/
  | hostReadTimeout (w : HostReadOf)
  /-- HDM_COMMIT (R379): Committing the PF's HDM decoder maps it onto the lent range, failing if sizes differ or a fill is busy. -/
  | hdmCommit (base size : BitVec 64)
  /-- CXL_MEM_REQUEST (R336): A CXL.mem read or write to the lent range is performed in per-line arrival order. -/
  | cxlMemRequest (h : BitVec 64) (op : MemOp)
  /-- IDENTIFY_MEMORY_DEVICE (R379): The CXL mailbox command Identify Memory Device returns the Type 3 device identity. -/
  | identifyMemoryDevice
  /-- GET_PARTITION_INFO (R379): The CXL mailbox command Get Partition Info returns the partition information. -/
  | getPartitionInfo
  /-- GET_SUPPORTED_LOGS (R379): The CXL mailbox command Get Supported Logs returns the supported logs. -/
  | getSupportedLogs
  /-- GET_LOG (R379): The CXL mailbox command Get Log returns a log. -/
  | getLog (arg : List Byte)
  /-- GET_HEALTH_INFO (R379): The CXL mailbox command Get Health Info returns health information. -/
  | getHealthInfo
  /-- HOST_LINK_WAKE (R457): A host link wake, or any BAR access in SLUMBER, raises the Gloaming event that starts SLUMBER exit. -/
  | hostLinkWake
  /-- HELLO (R413): Mailbox opcode 0x0001 negotiates the interface and replaces the endpoint's granted features. -/
  | hello (o : MboxFrom)
  /-- IDENT (R414): Mailbox opcode 0x0002 returns CHIP.IDENT, the enterprise number, the device ID and the patch SVNs. -/
  | ident (o : MboxFrom)
  /-- PRIME_LOAD (R59): Mailbox opcode 0x0010 validates and loads a prime table slot 64–127, incrementing GEN. -/
  | primeLoad (o : MboxFrom)
  /-- PRIME_CLEAR (R59): Mailbox opcode 0x0011 empties a prime table slot 64–127 no live set names. -/
  | primeClear (o : MboxFrom)
  /-- PSET_LOAD (R39): Mailbox opcode 0x0012 checks a parameter set 16–63 and its curve table and makes it live in one step. -/
  | psetLoad (o : MboxFrom)
  /-- PSET_REMOVE (R415): Mailbox opcode 0x0013 removes a parameter set that nothing names. -/
  | psetRemove (o : MboxFrom)
  /-- KSET_LOAD (R104): Mailbox opcode 0x0020 checks a key set and its signed bundle, leaving it at STATE 1 on success. -/
  | ksetLoad (o : MboxFrom)
  /-- KSET_REMOVE (R415): Mailbox opcode 0x0021 removes a key set that is not bound. -/
  | ksetRemove (o : MboxFrom)
  /-- GRAPH_LOAD (R219): Mailbox opcode 0x0030 checks a BVI module, translates it or takes it from the cache, and makes the graph loaded. -/
  | graphLoad (o : MboxFrom) (x : Translation)
  /-- GRAPH_UNLOAD (R415): Mailbox opcode 0x0031 unloads a graph with no admitted record lacking a CQE. -/
  | graphUnload (o : MboxFrom)
  /-- MEM_REPAIR (R301): Mailbox opcode 0x0040 makes a hard post-package repair of a row in MAINT and records it in the life log. -/
  | memRepair (o : MboxFrom)
  /-- PATCH_STAGE (R407): Mailbox opcode 0x0050 writes and verifies a patch image in the bank that did not boot, raising the floor on COMMIT. -/
  | patchStage (o : MboxFrom)
  /-- PATCH_STATUS (R414): Mailbox opcode 0x0051 returns the booted and staged banks, SVNs and fuse floors of each core type. -/
  | patchStatus (o : MboxFrom)
  /-- SET_ENDPOINT_ID (R408): The MCTP control message Set Endpoint ID assigns the module's endpoint ID. -/
  | setEndpointId (eid : BitVec 8)
  /-- GET_ENDPOINT_ID (R408): The MCTP control message Get Endpoint ID returns the endpoint ID. -/
  | getEndpointId
  /-- GET_MCTP_VERSION_SUPPORT (R408): The MCTP control message Get MCTP Version Support returns supported versions. -/
  | getMctpVersionSupport (ty : BitVec 8)
  /-- GET_MESSAGE_TYPE_SUPPORT (R408): The MCTP control message Get Message Type Support returns the supported message types. -/
  | getMessageTypeSupport
  /-- PLDM_REQUEST (R408): A PLDM request of types 0, 2 or 5 is served, or answered ERROR_NOT_READY in the first-light window. -/
  | pldmRequest (r : PldmReq)
  /-- GET_VERSION (R437): The SPDM request GET_VERSION returns the supported SPDM versions. -/
  | getVersion (o : SpdmFrom) (r : SpdmReq)
  /-- GET_CAPABILITIES (R437): The SPDM request GET_CAPABILITIES returns the responder capabilities. -/
  | getCapabilities (o : SpdmFrom) (r : SpdmReq)
  /-- NEGOTIATE_ALGORITHMS (R437): The SPDM request NEGOTIATE_ALGORITHMS selects P-384 and SHA-384. -/
  | negotiateAlgorithms (o : SpdmFrom) (r : SpdmReq)
  /-- GET_DIGESTS (R437): The SPDM request GET_DIGESTS returns the digest of the slot-0 certificate chain. -/
  | getDigests (o : SpdmFrom) (r : SpdmReq)
  /-- GET_CERTIFICATE (R438): The SPDM request GET_CERTIFICATE returns the slot-0 chain ending in the alias certificate. -/
  | getCertificate (o : SpdmFrom) (r : SpdmReq)
  /-- CHALLENGE (R437): The SPDM request CHALLENGE returns a response signed with the alias key. -/
  | challenge (o : SpdmFrom) (r : SpdmReq)
  /-- GET_MEASUREMENTS (R439): The SPDM request GET_MEASUREMENTS returns the measurement blocks computed at response time. -/
  | getMeasurements (o : SpdmFrom) (r : SpdmReq)
  /-- CORE_REQUEST (R418): A firmware core sends a request to a higher-ranked core's inbox, refused with DEADLOCK if it breaks rank rules. -/
  | coreRequest (sender target : Fin 11) (seq : BitVec 32)
  /-- CORE_REPLY (R417): A reply reaches its reserved inbox slot, or is discarded after a timeout. -/
  | coreReply (core : Fin 11) (st : Status)
  /-- CORE_CONTROL (R419): A control message posted to lower-ranked cores completes when every target has acknowledged. -/
  | coreControl (sender : Fin 11) (mask : BitVec 16) (acks : List Status)
  /-- CORE_REQUEST_TIMEOUT (R420): A request without reply after FWC.RQTMO completes at its sender with TIMEOUT. -/
  | coreRequestTimeout (core : Fin 11) (n : Nat)
  /-- CORE_WATCHDOG (R420): A core's watchdog expires, logging UCF, aborting its requests and restarting it from ROM and patch. -/
  | coreWatchdog (core : Fin 11)
  /-- FENCE (R340): A firmware core's FENCE is performed after all earlier accesses and outcomes and reports a pending late error. -/
  | fence (k : Fin 11)
  /-- NTT (R76): Worsted T-pipe transforms limbs from coefficient to evaluation form. -/
  | ntt (tile : Fin 64) (side : Side) (w : NInstr)
  /-- INTT (R77): Worsted T-pipe transforms limbs from evaluation back to coefficient form. -/
  | intt (tile : Fin 64) (side : Side) (w : NInstr)
  /-- AUT (R78): Worsted T-pipe applies the automorphism by g to limbs in the form the form bit names. -/
  | aut (tile : Fin 64) (side : Side) (w : NInstr)
  /-- MUL (R81): Worsted M-pipe writes a·b mod q per coefficient. -/
  | mul (tile : Fin 64) (side : Side) (w : NInstr)
  /-- MULC (R81): Worsted M-pipe multiplies limbs by a constant, in descriptor mode applying the constant-multiply ledger row. -/
  | mulc (tile : Fin 64) (side : Side) (w : NInstr)
  /-- MAC (R87): Worsted M-pipe accumulates a·b unreduced into a bank and updates its term count and key tag. -/
  | mac (tile : Fin 64) (side : Side) (w : NInstr)
  /-- MAC2 (R81): Worsted M-pipe accumulates a·b0 into ACC0 and a·b1 into ACC1. -/
  | mac2 (tile : Fin 64) (side : Side) (w : NInstr)
  /-- ACCRD (R88): Worsted reduces a bank to canonical residues and writes them, with LDG 5 closing a key switch's ledger update. -/
  | accrd (tile : Fin 64) (side : Side) (w : NInstr)
  /-- ACCCLR (R81): Worsted zeroes a bank, its term count and its key tag. -/
  | accclr (tile : Fin 64) (side : Side) (w : NInstr)
  /-- TENS (R81): Worsted computes the three-component tensor product of two ciphertext polynomials. -/
  | tens (tile : Fin 64) (side : Side) (w : NInstr)
  /-- BCONV (R67): Worsted converts a source range of limbs into a target limb of another basis without correcting the overflow u. -/
  | bconv (tile : Fin 64) (side : Side) (w : NInstr)
  /-- LIFT (R81): Worsted writes the centred-lift correction of limb ℓ for each target limb by the CKKS or BGV rule. -/
  | lift (tile : Fin 64) (side : Side) (w : NInstr)
  /-- RESC (R89): Worsted applies (x − c)·q_ℓ⁻¹, or P⁻¹ with DIV = 1, completing a rescale, modulus switch or mod-down. -/
  | resc (tile : Fin 64) (side : Side) (w : NInstr)
  /-- DENC (R133): Damask unpacks weight blocks, encodes and places them into plaintext limbs and writes a weight bound register. -/
  | denc (tile : Fin 64) (side : Side) (w : NInstr)
  /-- DMAC (R136): Damask multiplies a ciphertext limb by a plaintext limb into DACC, tracking the ledger shadow when LDG = 1. -/
  | dmac (tile : Fin 64) (side : Side) (w : NInstr)
  /-- DRD (R139): Damask reads DACC out as canonical residues and clears it, applying the narrow-weight ledger row when LDG = 1. -/
  | drd (tile : Fin 64) (side : Side) (w : NInstr)
  /-- DIMM (R141): Damask multiplies cleartext activation vectors by weight rows into IACC in 32-element chunks. -/
  | dimm (tile : Fin 64) (side : Side) (w : NInstr)
  /-- DIRD (R144): Damask writes IACC to the scratchpad in the selected format and clears it. -/
  | dird (tile : Fin 64) (side : Side) (w : NInstr)
  /-- PCL_ADD (R178): Percale integer ADD wrapping modulo 2^32. -/
  | pclAdd (tile : Fin 64) (side : Side) (w : NInstr)
  /-- PCL_SUB (R178): Percale integer SUB wrapping modulo 2^32. -/
  | pclSub (tile : Fin 64) (side : Side) (w : NInstr)
  /-- PCL_MUL (R178): Percale integer MUL keeping the low 32 bits. -/
  | pclMul (tile : Fin 64) (side : Side) (w : NInstr)
  /-- MULH (R178): Percale MULH gives the high 32 bits of the 64-bit product. -/
  | mulh (tile : Fin 64) (side : Side) (w : NInstr)
  /-- SADD (R178): Percale signed saturating add, setting ISAT on saturation. -/
  | sadd (tile : Fin 64) (side : Side) (w : NInstr)
  /-- SSUB (R178): Percale signed saturating subtract, setting ISAT on saturation. -/
  | ssub (tile : Fin 64) (side : Side) (w : NInstr)
  /-- SADDU (R178): Percale unsigned saturating add. -/
  | saddu (tile : Fin 64) (side : Side) (w : NInstr)
  /-- SSUBU (R178): Percale unsigned saturating subtract. -/
  | ssubu (tile : Fin 64) (side : Side) (w : NInstr)
  /-- PCL_MIN (R178): Percale element-wise integer minimum. -/
  | pclMin (tile : Fin 64) (side : Side) (w : NInstr)
  /-- PCL_MAX (R178): Percale element-wise integer maximum. -/
  | pclMax (tile : Fin 64) (side : Side) (w : NInstr)
  /-- PCL_AND (R178): Percale element-wise AND. -/
  | pclAnd (tile : Fin 64) (side : Side) (w : NInstr)
  /-- PCL_OR (R178): Percale element-wise OR. -/
  | pclOr (tile : Fin 64) (side : Side) (w : NInstr)
  /-- PCL_XOR (R178): Percale element-wise XOR. -/
  | pclXor (tile : Fin 64) (side : Side) (w : NInstr)
  /-- PCL_NOT (R178): Percale element-wise NOT. -/
  | pclNot (tile : Fin 64) (side : Side) (w : NInstr)
  /-- SHL (R178): Percale shift left by 0 to 31. -/
  | shl (tile : Fin 64) (side : Side) (w : NInstr)
  /-- SHR (R178): Percale logical shift right by 0 to 31. -/
  | shr (tile : Fin 64) (side : Side) (w : NInstr)
  /-- SAR (R178): Percale arithmetic shift right by 0 to 31. -/
  | sar (tile : Fin 64) (side : Side) (w : NInstr)
  /-- CMP (R178): Percale integer compare writing all-ones where the condition holds. -/
  | cmp (tile : Fin 64) (side : Side) (w : NInstr)
  /-- SEL (R178): Percale selects each element from one of two sources by bit 31 of the mask. -/
  | sel (tile : Fin 64) (side : Side) (w : NInstr)
  /-- PCL_MOD_ADD (R177): Percale modular ADD (a + b) mod q. -/
  | pclModAdd (tile : Fin 64) (side : Side) (w : NInstr)
  /-- PCL_MOD_SUB (R177): Percale modular SUB (a − b) mod q. -/
  | pclModSub (tile : Fin 64) (side : Side) (w : NInstr)
  /-- PCL_MOD_NEG (R177): Percale modular NEG (q − a) mod q. -/
  | pclModNeg (tile : Fin 64) (side : Side) (w : NInstr)
  /-- PCL_MOD_MUL (R177): Percale modular MUL (a·b) mod q. -/
  | pclModMul (tile : Fin 64) (side : Side) (w : NInstr)
  /-- PCL_MOD_MULC (R177): Percale modular multiply by a constant. -/
  | pclModMulc (tile : Fin 64) (side : Side) (w : NInstr)
  /-- PCL_MOD_LIFT (R177): Percale centred lift of residues as signed integers. -/
  | pclModLift (tile : Fin 64) (side : Side) (w : NInstr)
  /-- FROMINT (R177): Percale maps signed integers to canonical residues. -/
  | fromint (tile : Fin 64) (side : Side) (w : NInstr)
  /-- FADD (R182): Percale floating-point addition under RM. -/
  | fadd (tile : Fin 64) (side : Side) (w : NInstr)
  /-- FSUB (R182): Percale floating-point subtraction under RM. -/
  | fsub (tile : Fin 64) (side : Side) (w : NInstr)
  /-- FMUL (R182): Percale floating-point multiplication under RM. -/
  | fmul (tile : Fin 64) (side : Side) (w : NInstr)
  /-- FMA (R182): Percale fused multiply-add rounded once. -/
  | fma (tile : Fin 64) (side : Side) (w : NInstr)
  /-- FMIN (R183): Percale minimumNumber. -/
  | fmin (tile : Fin 64) (side : Side) (w : NInstr)
  /-- FMAX (R183): Percale maximumNumber. -/
  | fmax (tile : Fin 64) (side : Side) (w : NInstr)
  /-- FCMP (R182): Percale floating-point comparison. -/
  | fcmp (tile : Fin 64) (side : Side) (w : NInstr)
  /-- CVT (R185): Percale format conversion among FP formats and INT32. -/
  | cvt (tile : Fin 64) (side : Side) (w : NInstr)
  /-- FENC (R187): Percale encodes floating-point values at scale 2^e into residues, filling a PBR in stream form. -/
  | fenc (tile : Fin 64) (side : Side) (w : NInstr)
  /-- FDEC (R188): Percale decodes a residue's centred lift times 2^−e to floating point. -/
  | fdec (tile : Fin 64) (side : Side) (w : NInstr)
  /-- FDEC2 (R189): Percale decodes a value from two limbs by CRT. -/
  | fdec2 (tile : Fin 64) (side : Side) (w : NInstr)
  /-- TRN (R192): Percale transposes a tile register. -/
  | trn (tile : Fin 64) (side : Side) (w : NInstr)
  /-- TRNP (R192): Percale transposes an FP64 register pair. -/
  | trnp (tile : Fin 64) (side : Side) (w : NInstr)
  /-- CADD (R179): Percale adds two ciphertexts, with the ciphertext-add ledger row when LDG = 1. -/
  | cadd (tile : Fin 64) (side : Side) (w : NInstr)
  /-- CSUB (R179): Percale subtracts two ciphertexts, with the ledger row when LDG = 1. -/
  | csub (tile : Fin 64) (side : Side) (w : NInstr)
  /-- PADD (R180): Percale adds a plaintext recorded in a PBR to a ciphertext's first polynomial. -/
  | padd (tile : Fin 64) (side : Side) (w : NInstr)
  /-- LDROP (R181): Percale drops a ciphertext to a lower level. -/
  | ldrop (tile : Fin 64) (side : Side) (w : NInstr)
  /-- SLOTENC (R190): Percale converts CKKS slots to FP64 coefficients and records the bound in a PBR. -/
  | slotenc (tile : Fin 64) (side : Side) (w : NInstr)
  /-- SLOTDEC (R190): Percale converts FP64 coefficients back to slots. -/
  | slotdec (tile : Fin 64) (side : Side) (w : NInstr)
  /-- PLD (R173): Percale loads an operand-cache line into a tile register. -/
  | pld (tile : Fin 64) (side : Side) (w : NInstr)
  /-- PST (R174): Percale stores a tile register into an operand-cache line, winning a same-cycle OCLD collision. -/
  | pst (tile : Fin 64) (side : Side) (w : NInstr)
  /-- EXTRACT (R161): Gauze extracts LWE samples at listed positions from a level-0 CKKS ciphertext and holds the bundle pending. -/
  | extract (tile : Fin 64) (side : Side) (w : NInstr)
  /-- LWE_KS (R162): Gauze key-switches the pending bundle to the LWE key, switches modulus and scatters the samples. -/
  | lweKs (tile : Fin 64) (side : Side) (w : NInstr)
  /-- MODSW (R163): Gauze switches every word of a bundle to modulus 2N. -/
  | modsw (tile : Fin 64) (side : Side) (w : NInstr)
  /-- BLINDROT (R164): Gauze blind-rotates each sample through the test polynomial of a LUT and extracts each output. -/
  | blindrot (tile : Fin 64) (side : Side) (w : NInstr)
  /-- REPACK (R165): Gauze runs the vendor repack sequence to return a bundle to a CKKS ciphertext. -/
  | repack (tile : Fin 64) (side : Side) (w : NInstr)
  /-- MOVE (R212): The access unit moves lines from a global address into the tile. -/
  | move (tile : Fin 64) (side : Side) (w : NInstr)
  /-- MOVEO (R212): The access unit moves lines from the tile to a global address, possibly through peer windows. -/
  | moveo (tile : Fin 64) (side : Side) (w : NInstr)
  /-- SPROG (R262): The access unit copies, checks and starts a stream program. -/
  | sprog (tile : Fin 64) (side : Side) (w : NInstr)
  /-- KSTREAM (R112): The access stream opens a key stream of b-halves and a-halves for a key, level and digit range. -/
  | kstream (tile : Fin 64) (side : Side) (w : NInstr)
  /-- WSTREAM (R131): The access stream opens a weight stream, loading its WSD into a slot. -/
  | wstream (tile : Fin 64) (side : Side) (w : NInstr)
  /-- OCLD (R173): The access stream copies scratchpad lines into the operand cache, but for those that a PST writes in the same
  cycle (R174). -/
  | ocld (tile : Fin 64) (side : Side) (w : CacheCopy)
  /-- OCST (R173): The access stream copies operand-cache lines back to the scratchpad. -/
  | ocst (tile : Fin 64) (side : Side) (w : NInstr)
  /-- NOP (R213): Scalar no-operation; or, where its code is not 0, an instruction word whose UNIT and OP name no operation of R211. -/
  | nop (tile : Fin 64) (side : Side) (w : CodedInstr)
  /-- EPW (R213): Scalar EPW ends the stream's part of its segment and waits for the next boundary. -/
  | epw (tile : Fin 64) (side : Side) (w : NInstr)
  /-- FLAGCLR (R213): Scalar instruction clearing a flag. -/
  | flagclr (tile : Fin 64) (side : Side) (w : NInstr)
  /-- CTRSET (R213): Scalar instruction writing a counter. -/
  | ctrset (tile : Fin 64) (side : Side) (w : NInstr)
  /-- QOPEN (R213): Scalar instruction opening a data queue with its select mode. -/
  | qopen (tile : Fin 64) (side : Side) (w : NInstr)
  /-- QCLOSE (R213): Scalar instruction closing a data queue and discarding its words. -/
  | qclose (tile : Fin 64) (side : Side) (w : NInstr)
  /-- CHCFG (R215): Scalar instruction binding a tile channel to an outbound queue and destinations. -/
  | chcfg (tile : Fin 64) (side : Side) (w : NInstr)
  /-- END (R213): Scalar instruction ending the stream's part of the record. -/
  | endStream (tile : Fin 64) (side : Side) (w : NInstr)
  /-- INSTR_RESULT_VISIBLE (R205): An engine instruction's occupancy ends and its result becomes visible, its SIGNAL taking effect the cycle before. -/
  | instrResultVisible (tile : Fin 64) (k : Nat)
  /-- TRANSFER_SIGNAL (R332): An access-unit transfer's last line is performed, accepted or posted and its SIGNAL fires. -/
  | transferSignal (tile : Fin 64) (k : Nat) (ans : HostAnswer)
  /-- UNDERRUN_RESUME (R16): A word arrives in an empty inbound queue and a stalled engine resumes, the epoch having been marked perturbed. -/
  | underrunResume (tile : Fin 64) (unit : Fin 7)
  /-- OVERRUN_RESUME (R202): A line frees in a full outbound queue and the stalled engine resumes. -/
  | overrunResume (tile : Fin 64) (q : Fin 8)
  /-- MESSAGE_ADMIT (R217): A destination admits one whole ready channel message to an inbound queue by priority or rotation. -/
  | messageAdmit (tile : Fin 64) (q : Fin 8)
  /-- KEY_LIMB_DELIVER (R113): A key stream delivers a b-half and a-half limb pair to a tile's queues or landing area. -/
  | keyLimbDeliver (tile : Fin 64)
  /-- WEIGHT_BLOCK_DELIVER (R132): A weight stream delivers a block to its queue or landing area, or stops on poison. -/
  | weightBlockDeliver (tile : Fin 64) (k : Nat)
  /-- NOISE_LIMB_LANDED (R319): Muslin lands one limb of counter-based noise and increments the step's counter. -/
  | noiseLimbLanded (cl : Fin 8)
  /-- DESCRIPTOR_LOAD_ARRIVE (R210): A late descriptor-list LOAD arrives and releases the cluster's waiting tiles. -/
  | descriptorLoadArrive (cl : Fin 8) (k : Nat) (ans : HostAnswer)
  /-- STREAM_LOAD_TILE (R269): A stream-program LOAD entry lands its next buffer tile once FREECTR allows, padding out-of-bounds points. -/
  | streamLoadTile (tile : Fin 64) (k : Fin 8) (ans : HostAnswer)
  /-- STREAM_STORE_TILE (R269): A stream-program STORE entry writes its next buffer tile once FULLCTR allows, dropping out-of-bounds lines. -/
  | streamStoreTile (tile : Fin 64) (k : Fin 8)
  /-- STREAM_CONTRIB (R270): A CONTRIB entry sends one contribution to a reduction on this or another module. -/
  | streamContrib (tile : Fin 64) (k : Fin 8)
  /-- STREAM_RREAD (R270): An RREAD entry loads from a sealed reduction buffer. -/
  | streamRread (tile : Fin 64) (k : Fin 8)
  /-- STREAM_BLOAD (R271): A BLOAD entry loads the next block of its block list. -/
  | streamBload (tile : Fin 64) (k : Fin 8) (ans : HostAnswer)
  /-- STREAM_BSTORE (R271): A BSTORE entry stores the next block of its block list. -/
  | streamBstore (tile : Fin 64) (k : Fin 8)
  /-- PREEMPT (R224): A preemption request, by TILE.RUNCTL.PREEMPT or a CCC at a boundary, stops issue and drives engines to resumption points. -/
  | preempt (o : RegFrom) (tile : Fin 64)
  /-- CONTEXT_SAVED (R226): The tile finishes writing its context area and reads SAVED. -/
  | contextSaved (tile : Fin 64)
  /-- TILE_RESUME (R229): A write of TILE.RUNCTL.RESUME restores the tile's context from its context area. -/
  | tileResume (o : RegFrom) (tile : Fin 64)
  /-- CONTEXT_RESTORED (R229): Restore completes and both streams continue at the next boundary after every tile of the record has restored. -/
  | contextRestored (tile : Fin 64)
  /-- HALT (R228): A write of TILE.RUNCTL.HALT = 1 stops the streams at resumption points without saving. -/
  | halt (o : RegFrom) (tile : Fin 64)
  /-- HALT_RELEASE (R228): A write of HALT = 0 continues the tile in place and marks the epoch perturbed. -/
  | haltRelease (o : RegFrom) (tile : Fin 64)
  /-- DEADLOCK_DETECT (R232): A tile without progress for WINDOW epochs reports DEADLOCK and its record's other tiles stop ABORTED. -/
  | deadlockDetect (tile : Fin 64)
  /-- SPAD_NOC_ACCESS (R240): A NoC read or write of a scratchpad from CCC, host or peer is granted by priority and judged line by line. -/
  | spadNocAccess (who : Who) (tile : Fin 64) (off : BitVec 25) (op : MemOp) (rivals : Rivals)
  /-- FETCH_ADD (R243): A bank or buffer atomic adds v and returns the old value. -/
  | fetchAdd (who : Who) (at_ : AtomAt) (n : Nat) (v : BitVec 64) (restarts : Nat)
  /-- SWAP (R243): A bank or buffer atomic writes v and returns the old value. -/
  | swap (who : Who) (at_ : AtomAt) (n : Nat) (v : BitVec 64) (restarts : Nat)
  /-- CAS (R243): A bank or buffer atomic compares and swaps, returning the old value. -/
  | cas (who : Who) (at_ : AtomAt) (n : Nat) (v cmp : BitVec 64) (restarts : Nat)
  /-- FETCH_MADD (R243): A bank or buffer atomic adds v modulo a named prime and returns the old value. -/
  | fetchMadd (who : Who) (at_ : AtomAt) (n : Nat) (v : BitVec 32) (slot : BitVec 7) (restarts : Nat)
  /-- STARVATION_GUARD (R239): An access-unit or NoC request waiting 4,096 cycles is granted ahead of the engines for one cycle. -/
  | starvationGuard (tile : Fin 64)
  /-- SPTEST_UNIT (R246): The background test starts its next unit: copy to save area, redirect, March C−, copy back. -/
  | sptestUnit (tile : Fin 64) (rows : List Nat)
  /-- SPAD_SIZE_WRITE (R245): A write of TILE.SPAD_SIZE.SIZE sets the usable scratchpad, discarded unless the tile is idle and the size allowed. -/
  | spadSizeWrite (o : RegFrom) (tile : Fin 64) (v : BitVec 7)
  /-- SPTEST_WRITE (R246): A write of TILE.SPTEST starts or stops the background test and sets its period. -/
  | sptestWrite (o : RegFrom) (tile : Fin 64) (period : BitVec 16) (en : Bool)
  /-- KC_FLUSH (R118): A write of KCCTL.FLUSH empties the key cache at the next boundary with no key stream active. -/
  | kcFlush (o : RegFrom) (cl : Fin 8)
  /-- KC_SIZE_WRITE (R121): A write of KCCTL.SIZE resizes and empties the key cache at the first boundary with no key stream active. -/
  | kcSizeWrite (o : RegFrom) (cl : Fin 8) (v : BitVec 4)
  /-- SC_INV (R252): A write of CLUSTER.SCCTL.INV empties the stream cache at the next boundary. -/
  | scInv (o : RegFrom) (cl : Fin 8)
  /-- SC_RED_WRITE (R251): A write of CLUSTER.SCCTL.RED resizes the reduction area at a boundary with no reduction open. -/
  | scRedWrite (o : RegFrom) (cl : Fin 8) (v : BitVec 4)
  /-- MEM_LINE_SERVE (R284): A controller serves a waiting line request once its partition holds a token or WC lets it use an idle slot. -/
  | memLineServe (m : Fin 28) (r : LineReq) (n : Nat) (contended : Bool) (chk : LineCheck)
  /-- REGULATOR_WRITE (R287): A write of a MEMC regulator or MEMSYS.PARTMAP takes effect at the next boundary, refusing RATE 0 with WC 0. -/
  | regulatorWrite (o : RegFrom) (m : Option (Fin 28 × Fin 8)) (v : BitVec 32)
  /-- CALIBRATION (R298): At a boundary due by CALCTL.PERIOD a controller calibrates one pseudo-channel or channel. -/
  | calibration (m : Fin 28)
  /-- THERMAL_RETRAIN (R298): A stack whose temperature moved over 20 °C retrains its pseudo-channels one at a time. -/
  | thermalRetrain (m : Fin 12) (temp : BitVec 8)
  /-- PATROL_PASS (R480): Each patrol period a controller reads every line, writing back corrected lines and poisoning uncorrectable ones. -/
  | patrolPass (m : Fin 28) (found : List (Nat × LineCheck))
  /-- HALFCTL_WRITE (R300): A write of MEMSYS.HALFCTL.REQ takes a half's near or far range OFFLINE or returns it ONLINE. -/
  | halfctlWrite (o : RegFrom) (req : BitVec 4)
  /-- LEND_WRITE (R293): A write of MEMSYS.LEND changes the lent far-tier range, zero-filling granules that enter or leave it. -/
  | lendWrite (o : RegFrom) (base : BitVec 10) (size : BitVec 11)
  /-- LEND_FILL_DONE (R294): The zero fill of a lent-range change ends and LEND.BUSY reads 0. -/
  | lendFillDone
  /-- T1500_SHIFT_IR (R300): T1500CTL.OP 1 shifts the IEEE 1500 instruction register of a stack in MAINT. -/
  | t1500ShiftIr (o : RegFrom) (m : Fin 12) (len : BitVec 16)
  /-- T1500_SHIFT_DR (R300): T1500CTL.OP 2 shifts the IEEE 1500 data register of a stack in MAINT. -/
  | t1500ShiftDr (o : RegFrom) (m : Fin 12) (len : BitVec 16)
  /-- T1500DATA_WRITE (R302): A write of MEMC.T1500DATA supplies the next 32 bits to shift in. -/
  | t1500dataWrite (o : RegFrom) (m : Fin 12) (v back : BitVec 32)
  /-- LINK_TRAINED (R347): A peer link finishes training and the partner exchange, reaching UP or staying DOWN on a self ID. -/
  | linkTrained (l : Fin 24) (width : Fin 3) (partner : BitVec 16) (pready : Bool)
  /-- LINK_DOWN (R347): A link fails or its retrain fails and it leaves UP. -/
  | linkDown (l : Fin 24)
  /-- FLIT_RECEIVE (R348): A flit arrives and is accepted in sequence or discarded with NAK, carrying acknowledgements and credits. -/
  | flitReceive (l : Fin 24) (f : Flit) (time : Nat)
  /-- REPLAY_TIMEOUT (R349): No acknowledgement within 2 µs of sending makes the sender replay. -/
  | replayTimeout (l : Fin 24)
  /-- PACKET_TRANSMIT (R350): A waiting packet starts on a link once the next hop has credit for it in its VC and class. -/
  | packetTransmit (k : Nat)
  /-- PACKET_FORWARD (R355): A packet for another device is routed cut-through, changing only CLASS and TTL, or dropped for no route or TTL 0. -/
  | packetForward (l : Fin 24) (vc : Fin 4) (cls : Fin 2)
  /-- PLP_WR (R361): A WR packet is checked against peer windows and accepted with ACCEPT or refused with NAK. -/
  | plpWr (l : Fin 25) (cls : Fin 2)
  /-- PLP_RD (R361): An RD packet is checked against peer windows and answered with RDATA or NAK. -/
  | plpRd (l : Fin 25) (cls : Fin 2)
  /-- PLP_ATOM (R352): An ATOM packet performs an atomic on a scratchpad operand and answers ATOMR or NAK. -/
  | plpAtom (l : Fin 25) (cls : Fin 2) (restarts : Nat)
  /-- PLP_CONTRIB (R362): A CONTRIB packet adds lines of a contribution to an open reduction. -/
  | plpContrib (l : Fin 25) (cls : Fin 2)
  /-- PLP_RRD (R362): An RRD packet reads a reduction buffer, waiting for its seal. -/
  | plpRrd (l : Fin 25) (cls : Fin 2)
  /-- PLP_ACCEPT (R353): An ACCEPT moves a posted write from the tile's 96 to the outcome table. -/
  | plpAccept (l : Fin 25) (cls : Fin 2)
  /-- PLP_DONE (R338): A DONE gives a peer write its final outcome. -/
  | plpDone (l : Fin 25) (cls : Fin 2)
  /-- PLP_FAIL (R338): A FAIL gives a peer write its failed final outcome, failing its record or becoming a late error. -/
  | plpFail (l : Fin 25) (cls : Fin 2)
  /-- PLP_NAK (R364): A NAK fails the initiating transfer, or schedules a resend for NOT_READY or BUSY. -/
  | plpNak (l : Fin 25) (cls : Fin 2)
  /-- PLP_RDATA (R352): An RDATA delivers read data or a failure status to the initiator. -/
  | plpRdata (l : Fin 25) (cls : Fin 2)
  /-- PLP_ATOMR (R352): An ATOMR returns an atomic's old value or status. -/
  | plpAtomr (l : Fin 25) (cls : Fin 2)
  /-- EPOCH_SET (R366): A received EPOCH_SET within its window makes the follower adopt count C + 1 at its next boundary. -/
  | epochSet (l : Fin 25) (cls : Fin 2) (since : Nat)
  /-- QUAR (R368): A received QUAR packet announces that the partner has quarantined the link. -/
  | quar (l : Fin 25) (cls : Fin 2)
  /-- NAK_RESEND (R364): After the retry hint, or 100 µs for BUSY, the initiator sends the request again until PWTMO. -/
  | nakResend (tag : BitVec 16) (past : Bool)
  /-- PEER_WRITE_TIMEOUT (R338): No final outcome within ORDER.PWTMO of acceptance makes the outcome TIMEOUT. -/
  | peerWriteTimeout (tag : BitVec 16)
  /-- LINK_RELEASE (R368): A write of LINK.CTL.RELEASE takes a link out of quarantine and retrains it. -/
  | linkRelease (o : RegFrom) (l : Fin 24)
  /-- LINK_RETRAIN (R347): A write of LINK.CTL.RETRAIN retrains the link now. -/
  | linkRetrain (o : RegFrom) (l : Fin 24)
  /-- ROUTER_CTL_WRITE (R516): A write of ROUTER.CTL sets DEVID while not ready and READY = 1 to forward and accept packets. -/
  | routerCtlWrite (o : RegFrom) (dev : BitVec 16) (ttl : BitVec 6) (ready : Bool)
  /-- ROUTE_ENTRY_WRITE (R357): A write of a routing table entry applies to every packet arriving after it. -/
  | routeEntryWrite (o : RegFrom) (dev : BitVec 16) (v : BitVec 32)
  /-- PWIN_WRITE (R360): A write of a peer window descriptor is refused if outside the tiers or against its secure hold. -/
  | pwinWrite (o : RegFrom) (n : BitVec 8) (v : BitVec 128)
  /-- BOND_WRITE (R358): A write of ROUTER.BOND sets a bond group's links, applied at once under R359. -/
  | bondWrite (o : RegFrom) (g : Fin 12) (mask : BitVec 24)
  /-- BOND_CHANGE (R359): When a group's UP members change the router pauses the group until sent flits are acknowledged, then resumes with the new count. -/
  | bondChange (g : Fin 12)
  /-- LQBASE_WRITE (R344): A write of ORDER.LQBASE is accepted only while PROD equals CONS. -/
  | lqbaseWrite (o : RegFrom) (v : BitVec 27)
  /-- DOM_CREATE (R430): Sealing command 1 checks a signed domain policy, generates the domain key and seals its clusters. -/
  | domCreate (o : RegFrom)
  /-- REG_CREATE (R288): Sealing command 2 creates a sealed region of a domain and starts its encrypted zero fill. -/
  | regCreate (o : RegFrom)
  /-- REG_RELEASE (R292): Sealing command 3 releases a region, zero-filling it before it becomes ordinary memory. -/
  | regRelease (o : RegFrom)
  /-- DOM_IMPORT (R434): Sealing command 4 verifies an import and decrypts owner weights into a region of the domain. -/
  | domImport (o : RegFrom)
  /-- DOM_DESTROY (R435): Sealing command 5 wipes the domain's clusters, releases its regions and erases its keys. -/
  | domDestroy (o : RegFrom)
  /-- REGION_FILL_DONE (R292): A region's creation or release fill ends and the region becomes usable or ordinary memory. -/
  | regionFillDone (r : Fin 64)
  /-- HASH_GO (R440): A write of HASH.CTX GO starts a hash job on a context, with INIT and FINAL as set. -/
  | hashGo (o : RegFrom) (c : Fin 16) (alg : BitVec 2) (init final : Bool) (src : BitVec 64) (len : BitVec 40)
  /-- HASH_ABORT (R442): A write of HASH.CTX ABORT discards and zeroes the context's message state. -/
  | hashAbort (o : RegFrom) (c : Fin 16)
  /-- HASH_JOB_DONE (R441): A hash job ends, writing the digest after FINAL or stopping with POISON. -/
  | hashJobDone (c : Fin 16)
  /-- HASH_LANE_PREEMPT (R441): At a normal job's block boundary a ready secure job takes its lane, saving the normal state. -/
  | hashLanePreempt (c : Fin 16)
  /-- VERIFY (R446): Serge operation 1 verifies an ECDSA signature in fixed time. -/
  | verify (o : RegFrom) (slot : Fin 8) (curve : BitVec 4) (hlen : BitVec 8)
  /-- ECDH (R446): Serge operation 2 computes the x-coordinate of d·Q in fixed time. -/
  | ecdh (o : RegFrom) (slot : Fin 8) (curve : BitVec 4)
  /-- PUBCHECK (R447): Serge operation 3 checks that a public point lies on the curve. -/
  | pubcheck (o : RegFrom) (slot : Fin 8) (curve : BitVec 4)
  /-- SIGN (R444): Serge operation 4 signs a digest with a secure key handle. -/
  | sign (o : RegFrom) (slot : Fin 8) (curve : BitVec 4) (hlen : BitVec 8)
  /-- KEYGEN (R444): Serge operation 5 generates a key pair, keeping the private key in SEC's store. -/
  | keygen (o : RegFrom) (slot : Fin 8) (curve : BitVec 4)
  /-- CURVE_LOAD (R445): Serge operation 6 checks and loads a curve into a curve slot. -/
  | curveLoad (o : RegFrom) (slot : Fin 8) (curve : BitVec 4)
  /-- SERGE_YIELD (R443): At a normal job's yield point a ready secure job takes Serge after the normal state is saved. -/
  | sergeYield
  /-- SERGE_JOB_DONE (R448): A Serge job reaches its fixed completion, wipes its inputs and reports its status as DONE. -/
  | sergeJobDone
  /-- JTAG_INSTRUCTION (R427): A JTAG instruction is loaded, selecting BYPASS for restricted instructions in service mode or with domains. -/
  | jtagInstruction (i : JtagIr)
  /-- DVFS_REQUEST (R453): A write of PWR.DVFS.TARGET requests an operating point, DENIED in deterministic mode or on a held tile. -/
  | dvfsRequest (o : RegFrom) (tile : Fin 64) (target : BitVec 3)
  /-- PWR_REQ_ACTIVE (R458): A PWR.REQ with TARGET ACTIVE wakes the named clusters from DOZE. -/
  | pwrReqActive (o : RegFrom) (mask : BitVec 8)
  /-- PWR_REQ_IDLE (R458): A PWR.REQ with TARGET IDLE returns the named clusters to automatic IDLE. -/
  | pwrReqIdle (o : RegFrom) (mask : BitVec 8)
  /-- PWR_REQ_DOZE (R458): A PWR.REQ with TARGET DOZE powers down the named clusters' tile islands. -/
  | pwrReqDoze (o : RegFrom) (mask : BitVec 8)
  /-- PWR_REQ_SLUMBER (R458): A PWR.REQ with TARGET SLUMBER saves the pages, writes the life log and puts the module in SLUMBER. -/
  | pwrReqSlumber (o : RegFrom) (mask : BitVec 8)
  /-- POWER_TRANSITION_DONE (R454): A power state transition, such as DOZE exit or SLUMBER entry or exit, completes and REQSTAT.BUSY clears. -/
  | powerTransitionDone (cl : Option (Fin 8)) (fails : Bool)
  /-- CLUSTER_IDLE_ENTRY (R454): 64 fabric cycles after a cluster has nothing dispatched and no stream running its clocks gate. -/
  | clusterIdleEntry (cl : Fin 8)
  /-- CLUSTER_UNGATE (R455): 128 reference cycles before each boundary an IDLE cluster ungates its clocks. -/
  | clusterUngate (cl : Fin 8)
  /-- DOZE_TIMEOUT (R454): After DOZETMO idle epochs the PMC takes an unheld cluster into DOZE. -/
  | dozeTimeout (cl : Fin 8)
  /-- CAP_GROUP_END (R459): At the end of each group of 16 wall epochs the PMC adjusts the skip level or operating points against the cap. -/
  | capGroupEnd
  /-- CAP_WRITE (R472): A write of PWR.CAP sets the cap and brake cap, effective at the next group end. -/
  | capWrite (o : RegFrom) (cap brakecap : BitVec 16)
  /-- PWR_BRAKE_ASSERT (R463): PWR_BRAKE_N going low applies the brake, dropping clocks or skipping every boundary with preemption. -/
  | pwrBrakeAssert
  /-- PWR_BRAKE_RELEASE (R463): PWR_BRAKE_N going high releases the brake and records resume. -/
  | pwrBrakeRelease
  /-- THERMAL_TRIP (R464): A sensor comparator at 115 °C asserts THERM_N and removes die power within 10 µs until POR. -/
  | thermalTrip
  /-- GLOAMING_SCAN (R465): Every 20.48 µs Gloaming reads all sensors, updates the filter channels and evaluates the state machine. -/
  | gloamingScan (readings : List (BitVec 16))
  /-- GLM_EVENT_WRITE (R468): A PMC write of GLM.EVENT raises event 4 in the next scan. -/
  | glmEventWrite (o : RegFrom) (ev : Bool)
  /-- MGMT_ADDRESS_MATCH (R468): A management bus address match raises Gloaming event 1. -/
  | mgmtAddressMatch
  /-- FATAL_FAULT (R484): A SEC or PMC fault or failed KAT puts the module in the fatal state within 10 µs. -/
  | fatalFault (cause : Fin 5)
  /-- ERR_CNT_READ (R475): A read of ERR_CNT returns and clears it, clearing OVF when nonzero; or a read of another 32-bit word
  of the page (R10, R495), for which the table has no row of its own. -/
  | errCntRead (o : RegFrom) (at_ : PageWord)
  /-- ERR_LOG_READ (R475): A read of ERR_LOG word 0x040 latches the other seven words until 0x05C is read or 64 cycles pass. -/
  | errLogRead (o : RegFrom) (page : BitVec 14) (w : Fin 8) (late : Bool)
  /-- LBIST (R487): Test 1 runs LBIST on named clusters at a boundary with nothing dispatched. -/
  | lbist (o : RegFrom) (target : BitVec 24)
  /-- KAT (R487): Test 2 runs known-answer tests on Muslin, hash unit, Serge or XTS engines. -/
  | kat (o : RegFrom) (target : BitVec 24)
  /-- PATROL (R487): Test 3 runs one patrol pass on a stack or group. -/
  | patrol (o : RegFrom) (target : BitVec 24)
  /-- MARGIN (R487): Test 4 measures lane eye margins of an UP link. -/
  | margin (o : RegFrom) (target : BitVec 24)
  /-- SENSOR (R487): Test 5 checks each sensor against its reference in the next scan. -/
  | sensor (o : RegFrom) (target : BitVec 24)
  /-- SELFTEST_DONE (R487): A requested test ends, setting STSTATUS, failing bits and STDONE. -/
  | selftestDone (fail : BitVec 24) (margins : List Nat)
  /-- LIFELOG_PERIODIC (R489): Every 4 h of power-on time SEC writes a life-log bank. -/
  | lifelogPeriodic
  /-- LIFELOG_WRITE_DONE (R489): A life-log bank write completes, replacing the older bank. -/
  | lifelogWriteDone
  /-- HISTOGRAM_SAMPLE (R491): Every 60 s of power-on time each histogram adds 1 to one bin. -/
  | histogramSample (shares : List Nat)
  /-- LIFE_REQ (R508): A write of LIFE.CTL.REQ requests a bank write with REASON 3, refused if busy or within 1 h. -/
  | lifeReq (o : RegFrom)
  /-- LIFE_SNAP (R508): A write of LIFE.CTL.SNAP fixes or releases the bank read through DATA. -/
  | lifeSnap (o : RegFrom) (on : Bool)
  /-- LIFE_SNAP_TIMEOUT (R508): 60 s after SNAP was set the snapshot is released and LOST set. -/
  | lifeSnapTimeout
  /-- LIFE_DATA_READ (R508): A read of LIFE.DATA returns word INDEX of the bank and advances INDEX. -/
  | lifeDataRead (o : RegFrom)
  /-- CECFG_WRITE (R493): A write of ERRSYS.CECFG sets the patrol period and threshold from the next patrol period. -/
  | cecfgWrite (o : RegFrom) (cethr : BitVec 8) (patrol : BitVec 16)
  /-- BLK_EN_WRITE (R499): A write of BLK_CTRL.EN enables or disables a tile or cluster with no graph placed and nothing dispatched. -/
  | blkEnWrite (o : RegFrom) (page : BitVec 14) (en : Bool)
  /-- SRST (R499): A write of TILE BLK_CTRL.SRST soft-resets a stopped or idle tile within 64 cycles. -/
  | srst (o : RegFrom) (page : BitVec 14)
  /-- BLK_TEST_WRITE (R499): A write of BLK_CTRL.TEST enters or leaves manufacturing test mode on a disabled block. -/
  | blkTestWrite (o : RegFrom) (page : BitVec 14) (test : Bool)
  /-- IRQ_SET_WRITE (R501): A write of IRQ_SET sets IRQ_STAT bits and may raise the page's interrupt. -/
  | irqSetWrite (o : RegFrom) (page : BitVec 14) (v : BitVec 32)
  /-- REGISTER_WRITE (R495): A write to any other register is checked for width, world and holes and performed or discarded. -/
  | registerWrite (o : RegFrom) (a : BitVec 26) (n : BitVec 4) (v : BitVec 64)
  /-- POWER_REMOVAL (R454): The board removes the rails, taking the module to OFF and losing counts gathered since the last life-log write when not orderly. -/
  | powerRemoval
  /-- SYSREF_ARRIVAL (R536): SYSREF coming within its limits after POR_N release lets a boot waiting at stage 0x10 proceed, with the boot times counted from its arrival. -/
  | sysrefArrival
  /-- VR_ALERT_N (R526): Assertion of the VR_ALERT_N input is logged in the PWR page with status NOT_READY. -/
  | vrAlertN
  /-- DYNAMIC_ADDRESS_ASSIGNMENT (R532): An I3C SETDASA or ENTDAA assigns the module a dynamic address on the management bus. -/
  | dynamicAddressAssignment (a : BitVec 7)
  /-- SMBUS_CLOCK_LOW_TIMEOUT (R532): After the SMBus clock is held low for 25 to 35 ms the module releases the bus. -/
  | smbusClockLowTimeout
  deriving DecidableEq, Repr

end Sys2Proof
end

