-- ==== Sys2Proof/Decode.lean ====
section
/-!
DEFINITION. Words. A native instruction word spells the command of its operation (R203, R211). The spec's table gives no row any bits:
its rows are requests and events, so no table word spells one.
-/

namespace Sys2Proof

open Sys2Proof.Machine

/-- Bits `hi` to `lo` of a word. -/
def wordBits (w hi lo : Nat) : Nat := w / 2 ^ lo % 2 ^ (hi + 1 - lo)

/-- The fields of an instruction word other than UNIT and OP, and its operand word, which counts only where EXT is 1 (R203). -/
def nativeFields (w opd : Nat) : NInstr :=
  { ldg := BitVec.ofNat 4 (wordBits w 115 112), ext := wordBits w 111 111 = 1, opa := BitVec.ofNat 51 (wordBits w 110 60)
    wa := BitVec.ofNat 24 (wordBits w 59 36), wb := BitVec.ofNat 24 (wordBits w 35 12), sig := BitVec.ofNat 12 (wordBits w 11 0)
    opd := if wordBits w 111 111 = 1 then BitVec.ofNat 128 opd else 0 }

/-- The command that UNIT and OP name (R211, R213), on stream `d` of tile `i`; any other pair is no operation, and is refused. -/
def nativeOp (i : Fin 64) (d : Side) (code : Nat) (v : NInstr) : Instr :=
  match code with
  | 0x001 => .epw i d v
  | 0x002 => .flagclr i d v
  | 0x003 => .ctrset i d v
  | 0x004 => .qopen i d v
  | 0x005 => .qclose i d v
  | 0x006 => .chcfg i d v
  | 0x007 => .endStream i d v
  | 0x101 => .move i d v
  | 0x102 => .moveo i d v
  | 0x103 => .sprog i d v
  | 0x104 => .kstream i d v
  | 0x105 => .wstream i d v
  | 0x106 => .ocld i d { word := v }
  | 0x107 => .ocst i d v
  | 0x201 => .ntt i d v
  | 0x202 => .intt i d v
  | 0x203 => .aut i d v
  | 0x210 => .mul i d v
  | 0x211 => .mulc i d v
  | 0x212 => .mac i d v
  | 0x213 => .mac2 i d v
  | 0x214 => .accrd i d v
  | 0x215 => .accclr i d v
  | 0x216 => .tens i d v
  | 0x217 => .bconv i d v
  | 0x218 => .lift i d v
  | 0x219 => .resc i d v
  | 0x301 => .denc i d v
  | 0x302 => .dmac i d v
  | 0x303 => .drd i d v
  | 0x304 => .dimm i d v
  | 0x305 => .dird i d v
  | 0x400 => .pclAdd i d v
  | 0x401 => .pclSub i d v
  | 0x402 => .pclMul i d v
  | 0x403 => .mulh i d v
  | 0x404 => .sadd i d v
  | 0x405 => .ssub i d v
  | 0x406 => .pclMin i d v
  | 0x407 => .pclMax i d v
  | 0x408 => .pclAnd i d v
  | 0x409 => .pclOr i d v
  | 0x40A => .pclXor i d v
  | 0x40B => .pclNot i d v
  | 0x40C => .shl i d v
  | 0x40D => .shr i d v
  | 0x40E => .sar i d v
  | 0x40F => .cmp i d v
  | 0x410 => .sel i d v
  | 0x420 => .pclModAdd i d v
  | 0x421 => .pclModSub i d v
  | 0x422 => .pclModNeg i d v
  | 0x423 => .pclModMul i d v
  | 0x424 => .pclModMulc i d v
  | 0x425 => .pclModLift i d v
  | 0x426 => .fromint i d v
  | 0x430 => .fadd i d v
  | 0x431 => .fsub i d v
  | 0x432 => .fmul i d v
  | 0x433 => .fma i d v
  | 0x434 => .fmin i d v
  | 0x435 => .fmax i d v
  | 0x436 => .fcmp i d v
  | 0x437 => .cvt i d v
  | 0x440 => .fenc i d v
  | 0x441 => .fdec i d v
  | 0x442 => .fdec2 i d v
  | 0x443 => .trn i d v
  | 0x444 => .trnp i d v
  | 0x445 => .cadd i d v
  | 0x446 => .csub i d v
  | 0x447 => .padd i d v
  | 0x448 => .ldrop i d v
  | 0x449 => .slotenc i d v
  | 0x44A => .slotdec i d v
  | 0x44B => .pld i d v
  | 0x44C => .pst i d v
  | 0x44D => .saddu i d v
  | 0x44E => .ssubu i d v
  | 0x501 => .extract i d v
  | 0x502 => .lweKs i d v
  | 0x503 => .modsw i d v
  | 0x504 => .blindrot i d v
  | 0x505 => .repack i d v
  | _ => .nop i d { code := BitVec.ofNat 12 code, word := v }

/-- Do UNIT and OP name an operation of R211 or R213? -/
def opNamed (code : Nat) : Bool :=
  code = 0 || (match nativeOp 0 .access code {} with
    | .nop _ _ _ => false
    | _ => true)

/-- The command that an instruction word with its operand word spells on stream `d` of tile `i` (R203). -/
def nativeInstr (i : Fin 64) (d : Side) (w opd : Nat) : Instr := nativeOp i d (wordBits w 127 116) (nativeFields w opd)

/-- The instruction word of a command's unit, OP and fields (R203). -/
def nativeWord (code : Nat) (v : NInstr) : Nat :=
  code % 2 ^ 12 * 2 ^ 116 + v.ldg.toNat * 2 ^ 112 + (if v.ext then 1 else 0) * 2 ^ 111 + v.opa.toNat * 2 ^ 60 +
    v.wa.toNat * 2 ^ 36 + v.wb.toNat * 2 ^ 12 + v.sig.toNat

/-- The command spelled by the `nbits` bits of `w`: none, since no row of the table has bits. -/
def decodeTableWord (_nbits _w : Nat) : Option Instr := none

end Sys2Proof
end

