-- ==== Sys2Proof/Config.lean ====
section
/-!
DEFINITION. What the spec leaves open: constants without a value. Nothing can evaluate them or prove a value of them, so
every statement about the model holds whatever they are (log entries 1 and 2).
-/

namespace Sys2Proof.Config

/-- The free values the device draws or the spec leaves unstated, by the number of the draw (`State.fresh`). -/
opaque draw : Nat → Nat

/-- The bits SLOTENC writes: a function of LOGN and the input words alone (R191). -/
opaque slotenc : Nat → List Nat → List Nat

/-- The bits SLOTDEC writes: a function of LOGN and the input words alone (R191). -/
opaque slotdec : Nat → List Nat → List Nat

/-- The MP field of a SLOTENC whose log2 Z does not fit Q8.8 (R190), by the input words. -/
opaque slotencMp : List Nat → Int

/-- The words REPACK writes for a limb (R165), by the sequence's number, St, LOGN, B, LWE_N, LWE_LOGQ, the limb's prime and the
polynomial; by the key set's seed, the stored words of the keys of R159, and the samples' words. -/
opaque repack : List Nat → List Byte → List (List Nat) → List Nat → List Nat

/-- Bits [11:1] of IDCODE: the manufacturer's JEP106 identity, which the spec names and does not number (R533). -/
opaque jedec : Nat

/-- The payload of a CXL mailbox reply, which the CXL standard lays out (R379): by opcode, lent bytes and input payload. -/
opaque cxlReply : Nat → Nat → List Byte → List Byte

/-- The Holtesque patch key, a point of P-384, whose digest SEC's ROM holds (R405). -/
opaque patchKey : Nat × Nat

/-- The Holtesque enterprise number (R408, R414). -/
opaque enterprise : Nat

/-- The bytes of the configuration record, which R220 lists and does not lay out: by the device IDs of the modules in configuration
order, this module's device ID, the routing table's words, EPOCH_LEN, deterministic mode, the masks of enabled tiles and clusters and the
SCH's firmware version. -/
opaque configRecord : List Nat → Nat → List (Nat × Nat) → Nat × Bool → Nat × Nat → Nat → List Byte

/-- What a read of a configuration space word returns, by function, word and the value last written there: PCIe lays the space out
and not the spec. -/
opaque cfgRead : Nat → Nat → Option Nat → Nat

/-- The version numbers that Get MCTP Version Support returns for a message type (R408). -/
opaque mctpVersions : Nat → List Byte

/-- The payload of a PLDM reply after its completion code, which DMTF's specifications lay out, by type and request (R408). -/
opaque pldmReply : Nat → List Byte → List Byte

/-- The alias key that SEC derives from the unique device secret and the SHA-384 of the SEC patch it runs (R438). -/
opaque aliasKey : List Byte → Nat

/-- The certificate chain of slot 0, ending in the alias certificate, by the SHA-384 of the SEC patch that runs (R438). -/
opaque certChain : List Byte → List Byte

/-- The digest of the ROMs of SEC, PMC, SCH and CCC (R439). -/
opaque romDigest : List Byte

/-- What SPDM leaves to the responder and the spec does not give: CTExponent, DataTransferSize and MaxSPDMmsgSize (R437). -/
opaque spdmTimes : Nat × Nat × Nat

end Sys2Proof.Config
end

