-- ==== Sys2Proof/Machine/Arith.lean ====
section
/-!
DEFINITION. Residue arithmetic (ch. 03): bit fields, byte order (R9), modular operations (R52, R53, R62 to R64), the
prime acceptance tests (R54, R59), basis conversion (R67), rescale and modulus switching (R69, R70). Pure functions on
numbers; nothing here knows the machine's state.
-/

namespace Sys2Proof.Machine

/-- Bits `hi` down to `lo` of a number (R8). -/
def bits (x hi lo : Nat) : Nat := (x >>> lo) % 2 ^ (hi + 1 - lo)

/-- One bit of a number. -/
def bit (x n : Nat) : Bool := x.testBit n

/-- A number with bits `hi` to `lo` replaced by `v`. -/
def setBits (x hi lo v : Nat) : Nat :=
  x - (bits x hi lo) <<< lo + (v % 2 ^ (hi + 1 - lo)) <<< lo

/-- A truth value as a bit. -/
def bnat (b : Bool) : Nat := if b then 1 else 0

/-- The unsigned reading of `n` bits as a two's-complement number. -/
def signed (x n : Nat) : Int := if x % 2 ^ n < 2 ^ (n - 1) then (x % 2 ^ n : Nat) else (x % 2 ^ n : Nat) - (2 ^ n : Nat)

/-- The two's-complement encoding of an integer in `n` bits. -/
def encodeSigned (v : Int) (n : Nat) : Nat := (v % (2 ^ n : Nat)).toNat

/-- Little-endian bytes to a number (R9). -/
def leNat : List Byte → Nat
  | [] => 0
  | b :: bs => b.toNat + 256 * leNat bs

/-- The `n` little-endian bytes of a number (R9). -/
def natLe : Nat → Nat → List Byte
  | 0, _ => []
  | n + 1, x => BitVec.ofNat 8 x :: natLe n (x / 256)

/-- Big-endian bytes to a number: the byte order of FIPS digests and ECDSA values (R9). -/
def beNat (bs : List Byte) : Nat := bs.foldl (fun a b => 256 * a + b.toNat) 0

/-- The `n` big-endian bytes of a number. -/
def natBe (n x : Nat) : List Byte := (natLe n x).reverse

/-- 32-bit little-endian words to bytes. -/
def wordsBytes (ws : List Nat) : List Byte := ws.flatMap (natLe 4)

/-- Bytes to 32-bit little-endian words; a last part word is dropped. -/
def bytesWords : List Byte → List Nat
  | a :: b :: c :: d :: r => leNat [a, b, c, d] :: bytesWords r
  | _ => []

/-- Consecutive pieces of length `n` (fuel: the number of pieces wanted). -/
def chunks {α : Type} (n : Nat) : Nat → List α → List (List α)
  | 0, _ => []
  | k + 1, l => l.take n :: chunks n k (l.drop n)

/-- Smallest integer not below a / b, for b > 0. -/
def ceilDiv (a b : Nat) : Nat := (a + b - 1) / b

/-- Floor and ceiling division of integers by a positive number. -/
def floorI (a : Int) (b : Nat) : Int := Int.fdiv a b
@[inherit_doc floorI] def ceilI (a : Int) (b : Nat) : Int := -(Int.fdiv (-a) b)

/-- Least k with x ≤ 2^k (0 for x ≤ 1). -/
def clog2 (x : Nat) : Nat := if x ≤ 1 then 0 else (x - 1).log2 + 1

/-- Square-and-multiply with a fuel of exponent bits. -/
def powModAux : Nat → Nat → Nat → Nat → Nat → Nat
  | 0, _, _, m, acc => acc % m
  | f + 1, b, e, m, acc =>
    if e = 0 then acc % m
    else powModAux f (b * b % m) (e / 2) m (if e % 2 = 1 then acc * b % m else acc)

/-- b^e mod m. -/
def powMod (b e m : Nat) : Nat := powModAux (e.log2 + 1) (b % m) e m 1

/-- The inverse modulo a prime, by Fermat (0 for 0). -/
def invPrime (a q : Nat) : Nat := powMod a (q - 2) q

/-- Extended Euclid on integers with fuel: returns (gcd, x) with a·x ≡ gcd modulo the other argument. -/
def egcdAux : Nat → Int → Int → Int → Int → Int × Int
  | 0, r, _, x, _ => (r, x)
  | f + 1, r, r', x, x' => if r' = 0 then (r, x) else egcdAux f r' (r - r / r' * r') x' (x - r / r' * x')

/-- The inverse of `a` modulo `m`, where they are coprime. -/
def invMod (a m : Nat) : Nat :=
  ((egcdAux (2 * (m.log2 + 2)) (a % m : Nat) m 1 0).2 % (m : Int)).toNat

/-- The centred lift of a residue (R53; for an even modulus the rule of R70). -/
def centred (r q : Nat) : Int := if r ≤ (q - 1) / 2 then (r : Int) else (r : Int) - q

/-- FROMINT: the canonical residue of a signed integer (R64). -/
def fromInt (v : Int) (q : Nat) : Nat := (v % (q : Int)).toNat

/-- Modular operations on words, which are read modulo q (R52, R64). -/
def modAdd (q a b : Nat) : Nat := (a + b) % q
@[inherit_doc modAdd] def modSub (q a b : Nat) : Nat := (a % q + (q - b % q)) % q
@[inherit_doc modAdd] def modNeg (q a : Nat) : Nat := (q - a % q) % q
@[inherit_doc modAdd] def modMul (q a b : Nat) : Nat := a * b % q

/-- Is any word of the list non-canonical for q (R52)? -/
def nonCanonical (q : Nat) (ws : List Nat) : Bool := ws.any (q ≤ ·)

/-- A signed power of two of a special form: (minus?, exponent). -/
abbrev Term := Bool × Nat

/-- The value of a signed term. -/
def Term.value (t : Term) : Int := if t.1 then -(2 ^ t.2 : Nat) else (2 ^ t.2 : Nat)

/-- 2^k + Σ terms + 1 (R54, R59 step 5). -/
def formValue (k : Nat) (ts : List Term) : Int := (2 ^ k : Nat) + (ts.map Term.value).sum + 1

/-- One fold of R62: x = h·2^k + l becomes l − c·h with c = 1 + Σ terms. -/
def foldSpecial (k : Nat) (ts : List Term) (x : Int) : Int :=
  let h := floorI x (2 ^ k)
  x - h * (2 ^ k : Nat) - (h + (ts.map fun t => h * t.value).sum)

/-- `n` folds. -/
def foldsSpecial (k : Nat) (ts : List Term) : Nat → Int → Int
  | 0, x => x
  | n + 1, x => foldsSpecial k ts n (foldSpecial k ts x)

/-- The reduction of R62 on the special path: the folds, at most two additions of q, at most one subtraction. -/
def reduceSpecial (k : Nat) (ts : List Term) (q : Nat) (folds : Nat) (x : Nat) : Nat :=
  let y := foldsSpecial k ts folds x
  let y := if y < 0 then y + q else y
  let y := if y < 0 then y + q else y
  (if (q : Int) ≤ y then y - q else y).toNat

/-- The generic path's Montgomery product of R63: a·b·2⁻³² mod q. -/
def mont (q qinv a b : Nat) : Nat :=
  let t := a * b
  let m := (t % 2 ^ 32) * qinv % 2 ^ 32
  let u := (t + m * q) >>> 32
  if q ≤ u then u - q else u

/-- mulmod_generic of R63, with R2 = 2^64 mod q. -/
def mulGeneric (q qinv a b : Nat) : Nat := mont q qinv (mont q qinv a b) (2 ^ 64 % q)

/-- log2 Q in Q16.16, rounded down (R56): the largest n with 2^(n/65536) ≤ Q. -/
def log2Q16 (q : Nat) : Nat := (q ^ 65536).log2

/-- log2 of a positive integer, rounded up to Q16.16. -/
def log2UpQ16 (c : Nat) : Nat := clog2 (c ^ 65536)

/-- Squarings of the strong probable-prime test: does x reach q − 1 within `n` squarings? -/
def sprpSquares (q : Nat) : Nat → Nat → Bool
  | 0, _ => false
  | n + 1, x => x = q - 1 || sprpSquares q n (x * x % q)

/-- Split q − 1 as d·2^s: the pair (d, s), by fuel. -/
def oddPart : Nat → Nat → Nat → Nat × Nat
  | 0, d, s => (d, s)
  | f + 1, d, s => if d % 2 = 0 ∧ d ≠ 0 then oddPart f (d / 2) (s + 1) else (d, s)

/-- The strong probable-prime test of an odd q > 2 to base a (R59 step 6). -/
def sprp (q a : Nat) : Bool :=
  let ds := oddPart 64 (q - 1) 0
  let x := powMod a ds.1 q
  x = 1 || sprpSquares q ds.2 x

/-- R59 step 6: bases 2, 7 and 61. -/
def isPrime32 (q : Nat) : Bool := sprp q 2 && sprp q 7 && sprp q 61

/-- The product of a list of numbers. -/
def prod (l : List Nat) : Nat := l.foldl (· * ·) 1

/-- R67: the residue in base prime `b` of one coefficient whose residues in `basis` are `xs`. -/
def bconv1 (basis : List Nat) (b : Nat) (xs : List Nat) : Nat :=
  let a := prod basis
  ((basis.zip xs).map fun qx =>
      (qx.2 % qx.1) * invPrime (a / qx.1 % qx.1) qx.1 % qx.1 * (a / qx.1 % b)).sum % b

/-- R67 on a whole limb: `limbs` are the source limbs in the order of `basis`. -/
def bconv (basis : List Nat) (b : Nat) (limbs : List (List Nat)) (n : Nat) : List Nat :=
  let a := prod basis
  let ks := basis.map fun q => (q, invPrime (a / q % q) q, a / q % b)
  (List.range n).map fun i =>
    ((ks.zip limbs).map fun kl => (kl.2.getD i 0 % kl.1.1) * kl.1.2.1 % kl.1.1 * kl.1.2.2).sum % b

/-- R69: the signed correction of a CKKS rescale, the centred lift of limb ℓ. -/
def liftCkks (ql r : Nat) : Int := centred (r % ql) ql

/-- R70: the signed correction δ of a BGV modulus switch. -/
def liftBgv (ql t r : Nat) : Int :=
  let r' := centred (r % ql) ql
  let s := centred (fromInt (-r' * (invMod (ql % t) t : Int)) t) t
  r' + ql * s

/-- R69, R70: (x_j − (δ mod q_j))·(q_ℓ⁻¹ mod q_j) mod q_j, the correction given as a residue. -/
def rescale1 (qj ql x c : Nat) : Nat := modMul qj (modSub qj x c) (invPrime (ql % qj) qj)

end Sys2Proof.Machine
end

