-- ==== Sys2Proof/Machine/Curve.lean ====
section
/-!
DEFINITION. Elliptic curves as Serge uses them (ch. 18): short Weierstrass curves with cofactor 1, the two fixed curves of
R445, its checks of a loaded curve, scalar multiplication, and ECDSA as FIPS 186-5 states it.
-/

namespace Sys2Proof.Machine

/-- A curve y² = x³ + ax + b over the integers modulo p, its base point and the order of that (R445). -/
structure Curve where
  p : Nat := 0
  a : Nat := 0
  b : Nat := 0
  gx : Nat := 0
  gy : Nat := 0
  n : Nat := 0
  deriving DecidableEq, Repr

/-- A point: none at infinity. -/
abbrev Point := Option (Nat × Nat)

/-- Bits of a number. -/
def bitLen (x : Nat) : Nat := if x = 0 then 0 else x.log2 + 1

/-- L of R444: bytes of a coordinate. -/
def Curve.len (c : Curve) : Nat := ceilDiv (bitLen c.p) 8

/-- P-256 (slot 0, R445). -/
def p256 : Curve where
  p := 0xffffffff00000001000000000000000000000000ffffffffffffffffffffffff
  a := 0xffffffff00000001000000000000000000000000fffffffffffffffffffffffc
  b := 0x5ac635d8aa3a93e7b3ebbd55769886bc651d06b0cc53b0f63bce3c3e27d2604b
  gx := 0x6b17d1f2e12c4247f8bce6e563a440f277037d812deb33a0f4a13945d898c296
  gy := 0x4fe342e2fe1a7f9b8ee7eb4a7c0f9e162bce33576b315ececbb6406837bf51f5
  n := 0xffffffff00000000ffffffffffffffffbce6faada7179e84f3b9cac2fc632551

/-- P-384 (slot 1, R445). -/
def p384 : Curve where
  p := 0xfffffffffffffffffffffffffffffffffffffffffffffffffffffffffffffffeffffffff0000000000000000ffffffff
  a := 0xfffffffffffffffffffffffffffffffffffffffffffffffffffffffffffffffeffffffff0000000000000000fffffffc
  b := 0xb3312fa7e23ee7e4988e056be3f82d19181d9c6efe8141120314088f5013875ac656398d8a2ed19d2a85c8edd3ec2aef
  gx := 0xaa87ca22be8b05378eb1c71ef320ad746e1d3b628ba79b9859f741e082542a385502f25dbf55296c3a545e3872760ab7
  gy := 0x3617de4a96262c6f5d9e98bf9292dc29f8f41dbd289a147ce9da3113b5f0b8c00a60b1ce1d7e819d7a431d7c90ea0e5f
  n := 0xffffffffffffffffffffffffffffffffffffffffffffffffc7634d81f4372ddf581a0db248b0a77aecec196accc52973

/-- Does (x, y) satisfy the curve's equation? -/
def Curve.onCurve (c : Curve) (x y : Nat) : Bool := y * y % c.p = (x * x * x + c.a * x + c.b) % c.p

/-- The sum of two points. -/
def Curve.add (c : Curve) (u v : Point) : Point :=
  match u, v with
  | none, _ => v
  | _, none => u
  | some (x1, y1), some (x2, y2) =>
    if x1 = x2 ∧ (y1 + y2) % c.p = 0 then none
    else
      let l := if x1 = x2 then (3 * x1 * x1 + c.a) * invMod (2 * y1 % c.p) c.p % c.p
        else modSub c.p y2 y1 * invMod (modSub c.p x2 x1) c.p % c.p
      let x3 := modSub c.p (l * l) (x1 + x2)
      some (x3, modSub c.p (l * modSub c.p x1 x3) y1)

/-- k · P, by double and add from the top bit; fuel is the number of bits. -/
def Curve.mulBits (c : Curve) (p : Point) (k : Nat) : Nat → Point
  | 0 => none
  | i + 1 =>
    let r := c.mulBits p (k / 2) i
    let d := c.add r r
    if k % 2 = 1 then c.add d p else d

/-- k · P. -/
def Curve.mul (c : Curve) (k : Nat) (p : Point) : Point := c.mulBits p k (bitLen k)

/-- The base point. -/
def Curve.g (c : Curve) : Point := some (c.gx, c.gy)

/-- The strong probable-prime test with fuel for large numbers. -/
def sprpBig (q a : Nat) : Bool :=
  let ds := oddPart (bitLen q) (q - 1) 0
  let x := powMod a ds.1 q
  x = 1 || sprpSquares q ds.2 x

/-- The first 64 primes. -/
def primes64 : List Nat := [2, 3, 5, 7, 11, 13, 17, 19, 23, 29, 31, 37, 41, 43, 47, 53, 59, 61, 67, 71, 73, 79, 83, 89, 97,
  101, 103, 107, 109, 113, 127, 131, 137, 139, 149, 151, 157, 163, 167, 173, 179, 181, 191, 193, 197, 199, 211, 223, 227,
  229, 233, 239, 241, 251, 257, 263, 269, 271, 277, 281, 283, 293, 307, 311]

/-- The prime test of R445 step 2. -/
def prime64 (q : Nat) : Bool := 2 < q && q % 2 = 1 && primes64.all (sprpBig q ·)

/-- The powers p^1 to p^k modulo n, none of which may be 1 (R445 step 5). -/
def noSmallDegree (p n : Nat) : Nat → Nat → Bool
  | 0, _ => true
  | k + 1, x => x * p % n ≠ 1 && noSmallDegree p n k (x * p % n)

/-- The first failing step of R445, or none. -/
def Curve.failingStep (c : Curve) : Option Nat :=
  let bl := bitLen c.p
  if !(192 ≤ bl && bl ≤ 521 && c.a < c.p && c.b < c.p && c.gx < c.p && c.gy < c.p) then some 1
  else if !(prime64 c.p && prime64 c.n) then some 2
  else if (4 * c.a ^ 3 + 27 * c.b ^ 2) % c.p = 0 || !c.onCurve c.gx c.gy then some 3
  else if !(((c.p : Int) + 1 - c.n) ^ 2 ≤ 4 * c.p) || c.mul c.n c.g ≠ none then some 4
  else if c.n = c.p || !noSmallDegree c.p c.n 20 1 then some 5
  else none

/-- The number that ECDSA takes from a digest: its leftmost bits(n) bits (R444). -/
def Curve.digest (c : Curve) (bs : List Byte) : Nat :=
  let e := beNat bs
  if bitLen c.n < 8 * bs.length then e >>> (8 * bs.length - bitLen c.n) else e

/-- Does the signature (r, s) over the digest number e verify under Q (R447 order 7)? r and s lie in 1 to n − 1. -/
def Curve.verify (c : Curve) (e r s qx qy : Nat) : Bool :=
  let w := invMod s c.n
  match c.add (c.mul (e * w % c.n) c.g) (c.mul (r * w % c.n) (some (qx, qy))) with
  | some (x, _) => x % c.n = r
  | none => false

/-- Sign the digest number e under d with the per-message secret k. -/
def Curve.sign (c : Curve) (e d k : Nat) : Nat × Nat :=
  match c.mul k c.g with
  | some (x, _) => (x % c.n, invMod k c.n * (e + x % c.n * d) % c.n)
  | none => (0, 0)

end Sys2Proof.Machine
end

