-- ==== Sys2Proof/Machine/Map.lean ====
section
/-!
DEFINITION. Sparse maps and sparse memory in canonical form: a list of (key, value) pairs with strictly rising keys
that lists no entry equal to what an unlisted key reads as. Equal maps are equal lists.
-/

namespace Sys2Proof.Machine

/-- A sparse map from numbers. -/
abbrev SMap (α : Type) := List (Nat × α)

/-- The value at a key; `d` is what an unlisted key reads as. -/
def mapGet {α : Type} (d : α) : SMap α → Nat → α
  | [], _ => d
  | (k, v) :: m, i => if i = k then v else mapGet d m i

/-- Remove a key. -/
def mapErase {α : Type} : SMap α → Nat → SMap α
  | [], _ => []
  | (k, v) :: m, i => if i = k then mapErase m i else (k, v) :: mapErase m i

/-- Insert or replace a key. -/
def mapInsert {α : Type} : SMap α → Nat → α → SMap α
  | [], i, x => [(i, x)]
  | (k, v) :: m, i, x => if i = k then (i, x) :: m else if i < k then (i, x) :: (k, v) :: m
      else (k, v) :: mapInsert m i x

/-- Write a key; writing the value an unlisted key reads as removes the entry. -/
def mapPut {α : Type} [DecidableEq α] (d : α) (m : SMap α) (i : Nat) (x : α) : SMap α :=
  if x = d then mapErase m i else mapInsert m i x

/-- Keys strictly rise. -/
def mapSorted {α : Type} : SMap α → Bool
  | [] => true
  | [_] => true
  | (i, _) :: (j, y) :: m => (i < j : Bool) && mapSorted ((j, y) :: m)

/-- The canonical form: keys strictly rise and no entry equals its default. -/
def mapWf {α : Type} [DecidableEq α] (d : Nat → α) (m : SMap α) : Bool :=
  mapSorted m && m.all fun kv => kv.2 ≠ d kv.1

/-- The cells of a run of bytes at `a`, zero bytes left out. -/
def cellsOf : Nat → List Byte → SMap Byte
  | _, [] => []
  | a, b :: bs => if b = 0 then cellsOf (a + 1) bs else (a, b) :: cellsOf (a + 1) bs

/-- Write a run of bytes at `a` into a sparse memory in which an unlisted byte reads as zero. -/
def memWriteBytes (m : SMap Byte) (a : Nat) (bs : List Byte) : SMap Byte :=
  m.filter (fun c => c.1 < a) ++ cellsOf a bs ++ m.filter (fun c => a + bs.length ≤ c.1)

/-- The canonical form of memory: addresses strictly rise and no byte listed is the zero an unlisted byte reads as. -/
def Memory.wf (m : SMap Byte) : Bool := mapWf (fun _ => 0) m

/-- Read `n` bytes at `a` from cells sorted by address, none below `a`. -/
def memFill : SMap Byte → Nat → Nat → List Byte
  | _, _, 0 => []
  | [], a, n + 1 => 0 :: memFill [] (a + 1) n
  | (k, v) :: m, a, n + 1 => if k = a then v :: memFill m (a + 1) n else 0 :: memFill ((k, v) :: m) (a + 1) n

/-- Read `n` bytes at `a`. -/
def memReadBytes (m : SMap Byte) (a n : Nat) : List Byte :=
  memFill (m.filter fun c => a ≤ c.1 && c.1 < a + n) a n

/-- Read one byte. -/
def memByte (m : SMap Byte) (a : Nat) : Byte := mapGet 0 m a

/-- `l` with element `i` replaced (unchanged where there is none). -/
def listSet {α : Type} (l : List α) (i : Nat) (x : α) : List α := l.set i x

/-- The elements of `l` in rows of the least keys: keep a sorted list of numbers without repeats. -/
def insertSorted : List Nat → Nat → List Nat
  | [], x => [x]
  | y :: l, x => if x = y then y :: l else if x < y then x :: y :: l else y :: insertSorted l x

end Sys2Proof.Machine
end

