-- ==== Sys2Proof/Machine/Registers.lean ====
section
/-!
DEFINITION. The register pages and table windows of BAR0 (R494, R503): where each page lies, every field of every
register table of the spec under its own name, its access type (R10) and its reset value (R502). A field the spec
gives no reset value ("—": fused, sampled or kept in memory) has 0 here until boot sets it: DESIGN CHOICE, log entry 3.
-/

namespace Sys2Proof.Machine

/-- Page types (R498, table "Page types") and the table windows of R494. -/
inductive Page
  | CHIP | RESET | STRAP | EPOCH | LIFE | ERRSYS | FWC | PRIMETAB | MBOX | SEC | SEAL | SERGE | HASH | PWR | GLM
  | QE | FN | LINK | ROUTER | MEMC | MEMSYS | ORDER | CLUSTER | MUSLIN | SCACHE | TILE
  | PWIN | MCAST | ROUTE | HWMAP | BAR4MAP | MSIXPF | PBAPF | MSIX | PBA
  deriving DecidableEq, Repr

/-- BAR0 offset of page `p`, number `n` (R503; SERGE 0 to 3 normal and 4 to 7 secure; MEMC 0 to 11 near stacks and
12 to 27 far groups; FWC in the order SEC, PMC, SCH, CCC0 to CCC7). -/
def Page.base : Page → Nat → Nat
  | .CHIP, _ => 0x0000000 | .RESET, _ => 0x0001000 | .STRAP, _ => 0x0002000 | .EPOCH, _ => 0x0003000
  | .LIFE, _ => 0x0004000 | .ERRSYS, _ => 0x0005000
  | .FWC, n => 0x0100000 + 0x1000 * n | .PRIMETAB, _ => 0x0110000
  | .SEC, _ => 0x0200000 | .SEAL, _ => 0x0201000
  | .SERGE, n => if n < 4 then 0x0206000 + 0x1000 * n else 0x020A000 + 0x1000 * (n - 4)
  | .HASH, _ => 0x020E000 | .PWR, _ => 0x0300000 | .GLM, _ => 0x0302000
  | .QE, _ => 0x0400000 | .FN, n => 0x0410000 + 0x4000 * n | .MBOX, n => 0x0411000 + 0x4000 * n
  | .MSIX, n => 0x0412000 + 0x4000 * n | .PBA, n => 0x0413000 + 0x4000 * n
  | .MSIXPF, _ => 0x0600000 | .PBAPF, _ => 0x0608000 | .HWMAP, _ => 0x0700000 | .BAR4MAP, _ => 0x0710000
  | .LINK, n => 0x0800000 + 0x4000 * n | .ROUTER, _ => 0x0860000 | .PWIN, _ => 0x0870000
  | .MCAST, _ => 0x0871000 | .ROUTE, _ => 0x0880000
  | .MEMC, n => 0x0C00000 + 0x4000 * n | .MEMSYS, _ => 0x0C70000 | .ORDER, _ => 0x0C74000
  | .CLUSTER, n => 0x1000000 + 0x40000 * n | .MUSLIN, n => 0x1002000 + 0x40000 * n
  | .SCACHE, n => 0x1003000 + 0x40000 * n | .TILE, n => 0x2000000 + 0x40000 * n

/-- How many pages of a type there are (R7, R503). -/
def Page.count : Page → Nat
  | .FWC => 11 | .SERGE => 8 | .FN => 64 | .MBOX => 64 | .MSIX => 64 | .PBA => 64 | .LINK => 24 | .MEMC => 28
  | .CLUSTER => 8 | .MUSLIN => 8 | .SCACHE => 8 | .TILE => 64 | _ => 1

/-- Bytes of BAR0 a page or window occupies (R494, R503). -/
def Page.size : Page → Nat
  | .MSIXPF => 0x8000 | .PBAPF => 0x100 | .MSIX => 0x200 | .PBA => 0x8 | .HWMAP => 0x1000 | .BAR4MAP => 0x10000
  | .ROUTE => 0x40000 | .MCAST => 0x800 | _ => 0x1000

/-- A table window holds entries from its first byte and has no header (R494). -/
def Page.isWindow : Page → Bool
  | .PWIN | .MCAST | .ROUTE | .HWMAP | .BAR4MAP | .MSIXPF | .PBAPF | .MSIX | .PBA => true
  | _ => false

/-- BLK_ID.TYPE (table "Page types"). -/
def Page.typeCode : Page → Nat
  | .CHIP => 0x0001 | .RESET => 0x0002 | .STRAP => 0x0003 | .EPOCH => 0x0004 | .LIFE => 0x0005 | .ERRSYS => 0x0006
  | .FWC => 0x0010 | .PRIMETAB => 0x0011 | .MBOX => 0x0012 | .SEC => 0x0020 | .SEAL => 0x0021 | .SERGE => 0x0022
  | .HASH => 0x0023 | .PWR => 0x0030 | .GLM => 0x0031 | .QE => 0x0040 | .FN => 0x0041 | .LINK => 0x0050
  | .ROUTER => 0x0051 | .MEMC => 0x0060 | .MEMSYS => 0x0062 | .ORDER => 0x0063 | .CLUSTER => 0x0070
  | .MUSLIN => 0x0071 | .SCACHE => 0x0072 | .TILE => 0x0080 | _ => 0

/-- Access types (R10). -/
inductive Acc
  | RO | RW | WO | W1C | W1S | RC
  deriving DecidableEq, Repr

/-- A field of a register: its page type, the register's offset in the page, the stride of an indexed register, and
the bits, counted from bit 0 of the register's lowest word (R8). -/
structure Fld where
  page : Page
  off : Nat
  stride : Nat
  hi : Nat
  lo : Nat
  deriving DecidableEq, Repr

/-- One row of a field table: bits, access type, value after POR (R502). -/
structure FldRow where
  hi : Nat
  lo : Nat
  acc : Acc
  reset : Nat
  deriving DecidableEq, Repr

/-- One register (or indexed register) of a page. -/
structure RegRow where
  page : Page
  off : Nat
  stride : Nat
  count : Nat
  words : Nat
  fields : List FldRow
  deriving DecidableEq, Repr

/-- The registers of TILE from offset 0x100 (a table window: its entry). -/
def rowsTILE : List RegRow := [
  ⟨.TILE, 0x1C0, 0, 1, 1, [⟨0, 0, .RW, 0⟩]⟩,
  ⟨.TILE, 0x1C4, 0, 1, 1, [⟨31, 16, .RC, 0⟩, ⟨15, 0, .RC, 0⟩]⟩,
  ⟨.TILE, 0x1C8, 0, 1, 1, [⟨31, 16, .RC, 0⟩, ⟨15, 0, .RC, 0⟩]⟩,
  ⟨.TILE, 0x1CC, 0, 1, 1, [⟨0, 0, .RW, 0⟩]⟩,
  ⟨.TILE, 0x1D0, 0, 1, 1, [⟨31, 16, .RC, 0⟩, ⟨15, 0, .RC, 0⟩]⟩,
  ⟨.TILE, 0x1D4, 0, 1, 1, [⟨31, 0, .RC, 0⟩]⟩,
  ⟨.TILE, 0x1D8, 0, 1, 1, [⟨17, 17, .RO, 0⟩, ⟨16, 0, .RO, 0⟩]⟩,
  ⟨.TILE, 0x1DC, 0, 1, 1, [⟨17, 17, .RO, 0⟩, ⟨16, 0, .RO, 0⟩]⟩,
  ⟨.TILE, 0x1E0, 0, 1, 1, [⟨1, 1, .RW, 0⟩, ⟨0, 0, .RW, 0⟩]⟩,
  ⟨.TILE, 0x1E4, 0, 1, 1, [⟨2, 2, .W1C, 0⟩, ⟨1, 1, .W1C, 0⟩, ⟨0, 0, .W1C, 0⟩]⟩,
  ⟨.TILE, 0x1E8, 0, 1, 1, [⟨31, 16, .RC, 0⟩, ⟨15, 0, .RC, 0⟩]⟩,
  ⟨.TILE, 0x1EC, 0, 1, 1, [⟨31, 16, .RC, 0⟩, ⟨15, 0, .RC, 0⟩]⟩,
  ⟨.TILE, 0x1F0, 0, 1, 1, [⟨18, 18, .RO, 0⟩, ⟨17, 17, .RO, 0⟩, ⟨16, 0, .RO, 0⟩]⟩,
  ⟨.TILE, 0x200, 0, 1, 1, [⟨31, 0, .RC, 0⟩]⟩,
  ⟨.TILE, 0x204, 0, 1, 1, [⟨18, 18, .RO, 0⟩, ⟨17, 17, .RO, 0⟩, ⟨16, 13, .RO, 0⟩, ⟨12, 0, .RO, 0⟩]⟩,
  ⟨.TILE, 0x210, 0, 1, 1, [⟨2, 2, .RW, 0⟩, ⟨1, 0, .RW, 0⟩]⟩,
  ⟨.TILE, 0x214, 0, 1, 1, [⟨4, 4, .W1C, 0⟩, ⟨3, 3, .W1C, 0⟩, ⟨2, 2, .W1C, 0⟩, ⟨1, 1, .W1C, 0⟩, ⟨0, 0, .W1C, 0⟩]⟩,
  ⟨.TILE, 0x218, 0, 1, 1, [⟨31, 16, .RC, 0⟩, ⟨15, 0, .RC, 0⟩]⟩,
  ⟨.TILE, 0x100, 0, 1, 1, [⟨2, 2, .WO, 0⟩, ⟨1, 1, .WO, 0⟩, ⟨0, 0, .RW, 0⟩]⟩,
  ⟨.TILE, 0x104, 0, 1, 1, [⟨15, 8, .RO, 0⟩, ⟨4, 4, .RO, 0⟩, ⟨3, 0, .RO, 0⟩]⟩,
  ⟨.TILE, 0x108, 0, 1, 1, [⟨31, 16, .RO, 0⟩, ⟨12, 0, .RO, 0⟩]⟩,
  ⟨.TILE, 0x10C, 0, 1, 1, [⟨31, 16, .RO, 0⟩, ⟨12, 0, .RO, 0⟩]⟩,
  ⟨.TILE, 0x110, 0, 1, 1, [⟨31, 0, .RO, 0⟩]⟩,
  ⟨.TILE, 0x114, 0, 1, 1, [⟨31, 0, .RO, 0⟩]⟩,
  ⟨.TILE, 0x118, 0, 1, 1, [⟨31, 16, .RC, 0⟩, ⟨15, 0, .RC, 0⟩]⟩,
  ⟨.TILE, 0x11C, 0, 1, 1, [⟨31, 0, .RC, 0⟩]⟩,
  ⟨.TILE, 0x124, 0, 1, 1, [⟨7, 0, .RW, 0x40⟩]⟩,
  ⟨.TILE, 0x128, 0, 1, 1, [⟨31, 16, .RC, 0⟩, ⟨6, 0, .RO, 0⟩]⟩,
  ⟨.TILE, 0x130, 0, 1, 2, [⟨43, 16, .RW, 0⟩]⟩,
  ⟨.TILE, 0x140, 4, 8, 1, [⟨31, 16, .RO, 0⟩, ⟨15, 0, .RO, 0⟩]⟩,
  ⟨.TILE, 0x220, 0, 1, 1, [⟨22, 16, .RO, 0x40⟩, ⟨6, 0, .RW, 0x3F⟩]⟩,
  ⟨.TILE, 0x224, 0, 1, 1, [⟨31, 16, .RC, 0⟩, ⟨15, 0, .RC, 0⟩]⟩,
  ⟨.TILE, 0x228, 0, 1, 1, [⟨31, 0, .RC, 0⟩]⟩,
  ⟨.TILE, 0x22C, 0, 1, 1, [⟨31, 16, .RC, 0⟩, ⟨15, 0, .RC, 0⟩]⟩,
  ⟨.TILE, 0x230, 0, 1, 1, [⟨31, 16, .RW, 0⟩, ⟨0, 0, .RW, 0⟩]⟩,
  ⟨.TILE, 0x234, 0, 1, 1, [⟨31, 24, .RO, 0⟩, ⟨20, 16, .RO, 0x10⟩, ⟨7, 2, .RO, 0⟩, ⟨1, 0, .RO, 0⟩]⟩,
  ⟨.TILE, 0x240, 0, 1, 1, [⟨16, 16, .RO, 0⟩, ⟨15, 8, .RO, 0⟩, ⟨7, 0, .RO, 0⟩]⟩,
  ⟨.TILE, 0x244, 0, 1, 1, [⟨31, 16, .RC, 0⟩, ⟨15, 0, .RC, 0⟩]⟩,
  ⟨.TILE, 0x248, 0, 1, 1, [⟨31, 0, .RC, 0⟩]⟩,
  ⟨.TILE, 0x24C, 0, 1, 1, [⟨7, 0, .RO, 0⟩]⟩]

/-- The registers of PRIMETAB from offset 0x100 (a table window: its entry). -/
def rowsPRIMETAB : List RegRow := [
  ⟨.PRIMETAB, 0x100, 0, 1, 1, [⟨31, 0, .RO, 0⟩]⟩,
  ⟨.PRIMETAB, 0x104, 0, 1, 1, [⟨31, 24, .RO, 0⟩, ⟨23, 20, .RO, 0⟩, ⟨7, 0, .RO, 0⟩]⟩,
  ⟨.PRIMETAB, 0x800, 16, 128, 4, [⟨127, 0, .RO, 0⟩]⟩]

/-- The registers of MUSLIN from offset 0x100 (a table window: its entry). -/
def rowsMUSLIN : List RegRow := [
  ⟨.MUSLIN, 0x100, 0, 1, 1, [⟨8, 8, .WO, 0⟩, ⟨3, 0, .RW, 0⟩]⟩,
  ⟨.MUSLIN, 0x104, 0, 1, 1, [⟨16, 16, .RO, 0⟩, ⟨5, 0, .RO, 0⟩]⟩,
  ⟨.MUSLIN, 0x108, 0, 1, 1, [⟨31, 0, .RC, 0⟩]⟩,
  ⟨.MUSLIN, 0x10C, 0, 1, 1, [⟨31, 16, .RC, 0⟩, ⟨15, 0, .RC, 0⟩]⟩,
  ⟨.MUSLIN, 0x110, 0, 1, 1, [⟨31, 0, .RC, 0⟩]⟩]

/-- The registers of SCACHE from offset 0x100 (a table window: its entry). -/
def rowsSCACHE : List RegRow := [
  ⟨.SCACHE, 0x100, 0, 1, 1, [⟨8, 8, .WO, 0⟩, ⟨3, 0, .RW, 0⟩]⟩,
  ⟨.SCACHE, 0x104, 0, 1, 1, [⟨31, 23, .RO, 0⟩, ⟨12, 8, .RO, 0x10⟩, ⟨7, 4, .RO, 0⟩, ⟨3, 0, .RO, 0⟩]⟩,
  ⟨.SCACHE, 0x108, 0, 1, 1, [⟨31, 16, .RC, 0⟩, ⟨15, 0, .RC, 0⟩]⟩,
  ⟨.SCACHE, 0x10C, 0, 1, 1, [⟨31, 16, .RC, 0⟩, ⟨15, 0, .RC, 0⟩]⟩]

/-- The registers of MEMC from offset 0x100 (a table window: its entry). -/
def rowsMEMC : List RegRow := [
  ⟨.MEMC, 0x100, 0, 1, 1, [⟨31, 24, .RO, 0⟩, ⟨23, 16, .RO, 0⟩, ⟨15, 8, .RO, 0⟩, ⟨7, 0, .RO, 0⟩]⟩,
  ⟨.MEMC, 0x104, 0, 1, 1, [⟨15, 8, .RO, 0⟩, ⟨4, 4, .RO, 0⟩, ⟨3, 0, .RO, 0⟩]⟩,
  ⟨.MEMC, 0x108, 0, 1, 1, [⟨15, 0, .RW, 0x10⟩]⟩,
  ⟨.MEMC, 0x110, 0, 1, 1, [⟨31, 0, .RC, 0⟩]⟩,
  ⟨.MEMC, 0x114, 0, 1, 1, [⟨31, 0, .RC, 0⟩]⟩,
  ⟨.MEMC, 0x140, 4, 8, 1, [⟨31, 31, .RW, 1⟩, ⟨24, 16, .RW, 0x100⟩, ⟨15, 0, .RW, 0x1000⟩]⟩,
  ⟨.MEMC, 0x160, 0, 1, 1, [⟨31, 0, .RC, 0⟩]⟩,
  ⟨.MEMC, 0x164, 0, 1, 1, [⟨31, 16, .RC, 0⟩, ⟨15, 0, .RC, 0⟩]⟩,
  ⟨.MEMC, 0x180, 0, 1, 1, [⟨31, 31, .RO, 0⟩, ⟨17, 16, .WO, 0⟩, ⟨15, 0, .RW, 0⟩]⟩,
  ⟨.MEMC, 0x184, 0, 1, 1, [⟨31, 0, .RW, 0⟩]⟩,
  ⟨.MEMC, 0x190, 0, 1, 1, [⟨31, 24, .RO, 0⟩, ⟨23, 16, .RO, 0⟩, ⟨0, 0, .RW, 1⟩]⟩]

/-- The registers of MEMSYS from offset 0x100 (a table window: its entry). -/
def rowsMEMSYS : List RegRow := [
  ⟨.MEMSYS, 0x100, 0, 1, 1, [⟨31, 0, .RW, 0x76543210⟩]⟩,
  ⟨.MEMSYS, 0x104, 0, 1, 1, [⟨17, 16, .RO, 0⟩, ⟨10, 0, .RO, 0⟩]⟩,
  ⟨.MEMSYS, 0x108, 0, 1, 1, [⟨11, 8, .RO, 0⟩, ⟨3, 0, .RW, 0⟩]⟩,
  ⟨.MEMSYS, 0x110, 0, 1, 1, [⟨31, 31, .RO, 0⟩, ⟨30, 20, .RW, 0⟩, ⟨9, 0, .RW, 0⟩]⟩]

/-- The registers of EPOCH from offset 0x100 (a table window: its entry). -/
def rowsEPOCH : List RegRow := [
  ⟨.EPOCH, 0x100, 0, 1, 1, [⟨31, 31, .RW, 0⟩, ⟨30, 29, .RW, 0⟩, ⟨16, 0, .RW, 0x2000⟩]⟩,
  ⟨.EPOCH, 0x104, 0, 1, 1, [⟨15, 0, .RW, 0⟩]⟩,
  ⟨.EPOCH, 0x108, 0, 1, 1, [⟨31, 31, .RO, 0⟩, ⟨30, 30, .RO, 0⟩, ⟨29, 29, .RO, 0⟩, ⟨26, 16, .RO, 0⟩, ⟨7, 0, .RO, 0⟩]⟩,
  ⟨.EPOCH, 0x110, 0, 1, 1, [⟨31, 0, .RO, 0⟩]⟩,
  ⟨.EPOCH, 0x114, 0, 1, 1, [⟨31, 0, .RO, 0⟩]⟩,
  ⟨.EPOCH, 0x118, 0, 1, 1, [⟨31, 0, .RC, 0⟩]⟩,
  ⟨.EPOCH, 0x11C, 0, 1, 1, [⟨31, 16, .RC, 0⟩, ⟨15, 0, .RC, 0⟩]⟩]

/-- The registers of ORDER from offset 0x100 (a table window: its entry). -/
def rowsORDER : List RegRow := [
  ⟨.ORDER, 0x100, 0, 1, 2, [⟨43, 17, .RW, 0⟩]⟩,
  ⟨.ORDER, 0x108, 0, 1, 1, [⟨31, 0, .RO, 0⟩]⟩,
  ⟨.ORDER, 0x10C, 0, 1, 1, [⟨31, 0, .RW, 0⟩]⟩,
  ⟨.ORDER, 0x110, 0, 1, 1, [⟨31, 0, .RC, 0⟩]⟩,
  ⟨.ORDER, 0x114, 0, 1, 1, [⟨15, 0, .RW, 0x64⟩]⟩,
  ⟨.ORDER, 0x118, 0, 1, 1, [⟨17, 0, .RW, 0⟩]⟩,
  ⟨.ORDER, 0x11C, 0, 1, 1, [⟨31, 16, .RO, 0⟩, ⟨0, 0, .RO, 0⟩]⟩]

/-- The registers of LINK from offset 0x100 (a table window: its entry). -/
def rowsLINK : List RegRow := [
  ⟨.LINK, 0x100, 0, 1, 1, [⟨4, 4, .WO, 0⟩, ⟨3, 3, .WO, 0⟩, ⟨2, 2, .RW, 1⟩, ⟨1, 1, .RW, 0⟩, ⟨0, 0, .RW, 1⟩]⟩,
  ⟨.LINK, 0x104, 0, 1, 1, [⟨31, 16, .RO, 0⟩, ⟨6, 6, .RO, 0⟩, ⟨5, 4, .RO, 0⟩, ⟨3, 0, .RO, 0⟩]⟩,
  ⟨.LINK, 0x108, 0, 1, 1, [⟨31, 16, .RC, 0⟩, ⟨15, 0, .RC, 0⟩]⟩,
  ⟨.LINK, 0x10C, 0, 1, 1, [⟨31, 0, .RC, 0⟩]⟩,
  ⟨.LINK, 0x110, 0, 1, 1, [⟨31, 0, .RC, 0⟩]⟩,
  ⟨.LINK, 0x114, 0, 1, 1, [⟨31, 16, .RC, 0⟩, ⟨15, 0, .RC, 0⟩]⟩]

/-- The registers of ROUTER from offset 0x100 (a table window: its entry). -/
def rowsROUTER : List RegRow := [
  ⟨.ROUTER, 0x100, 0, 1, 1, [⟨31, 16, .RW, 0⟩, ⟨9, 4, .RW, 0x3F⟩, ⟨0, 0, .RW, 0⟩]⟩,
  ⟨.ROUTER, 0x104, 0, 1, 1, [⟨15, 0, .RW, 0x3E8⟩]⟩,
  ⟨.ROUTER, 0x108, 0, 1, 1, [⟨31, 16, .RC, 0⟩, ⟨0, 0, .WO, 0⟩]⟩,
  ⟨.ROUTER, 0x10C, 0, 1, 1, [⟨16, 16, .RW, 0⟩, ⟨15, 0, .RW, 0⟩]⟩,
  ⟨.ROUTER, 0x120, 4, 12, 1, [⟨23, 0, .RW, 0⟩]⟩,
  ⟨.ROUTER, 0x160, 0, 1, 1, [⟨31, 16, .RC, 0⟩, ⟨15, 0, .RC, 0⟩]⟩,
  ⟨.ROUTER, 0x164, 0, 1, 1, [⟨31, 0, .RC, 0⟩]⟩,
  ⟨.ROUTER, 0x168, 0, 1, 1, [⟨14, 0, .RO, 0⟩]⟩]

/-- The registers of QE from offset 0x100 (a table window: its entry). -/
def rowsQE : List RegRow := [
  ⟨.QE, 0x100, 0, 1, 1, [⟨0, 0, .RO, 0⟩]⟩,
  ⟨.QE, 0x108, 0, 1, 1, [⟨31, 0, .RC, 0⟩]⟩,
  ⟨.QE, 0x200, 8, 64, 2, [⟨50, 32, .RW, 0⟩, ⟨17, 0, .RW, 0⟩]⟩,
  ⟨.QE, 0x400, 4, 64, 1, [⟨7, 0, .RW, 1⟩]⟩]

/-- The registers of FN from offset 0x100 (a table window: its entry). -/
def rowsFN : List RegRow := [
  ⟨.FN, 0x100, 0, 1, 2, [⟨63, 0, .RO, 0⟩]⟩,
  ⟨.FN, 0x108, 0, 1, 1, [⟨17, 0, .RW, 0⟩]⟩,
  ⟨.FN, 0x110, 4, 8, 1, [⟨31, 0, .RW, 0⟩]⟩,
  ⟨.FN, 0x130, 0, 1, 1, [⟨3, 0, .WO, 0⟩]⟩,
  ⟨.FN, 0x134, 0, 1, 1, [⟨31, 31, .RO, 0⟩, ⟨7, 0, .RO, 0⟩]⟩,
  ⟨.FN, 0x138, 0, 1, 1, [⟨31, 31, .RO, 0⟩, ⟨30, 30, .RO, 0⟩, ⟨23, 8, .RO, 0⟩, ⟨2, 0, .RO, 0⟩]⟩,
  ⟨.FN, 0x13C, 0, 1, 1, [⟨31, 16, .RO, 0⟩, ⟨15, 0, .RO, 0⟩]⟩,
  ⟨.FN, 0x140, 0, 1, 1, [⟨31, 0, .RO, 0⟩]⟩,
  ⟨.FN, 0x144, 0, 1, 1, [⟨31, 0, .RO, 0⟩]⟩,
  ⟨.FN, 0x148, 0, 1, 1, [⟨31, 16, .RC, 0⟩, ⟨15, 0, .RC, 0⟩]⟩]

/-- The registers of FWC from offset 0x100 (a table window: its entry). -/
def rowsFWC : List RegRow := [
  ⟨.FWC, 0x100, 0, 1, 1, [⟨31, 24, .RO, 0⟩, ⟨7, 7, .RO, 0⟩, ⟨6, 6, .RO, 0⟩, ⟨5, 5, .RO, 0⟩, ⟨4, 4, .RO, 0⟩, ⟨3, 0, .RO, 0⟩]⟩,
  ⟨.FWC, 0x104, 0, 1, 1, [⟨31, 0, .RO, 0⟩]⟩,
  ⟨.FWC, 0x108, 0, 1, 1, [⟨31, 16, .RC, 0⟩, ⟨15, 0, .RW, 0x64⟩]⟩,
  ⟨.FWC, 0x10C, 0, 1, 1, [⟨15, 0, .RW, 0x64⟩]⟩,
  ⟨.FWC, 0x110, 0, 1, 1, [⟨31, 16, .RC, 0⟩, ⟨15, 0, .RC, 0⟩]⟩]

/-- The registers of MBOX from offset 0x100 (a table window: its entry). -/
def rowsMBOX : List RegRow := [
  ⟨.MBOX, 0x100, 0, 1, 1, [⟨26, 16, .RW, 0⟩, ⟨1, 1, .RW, 0⟩, ⟨0, 0, .WO, 0⟩]⟩,
  ⟨.MBOX, 0x104, 0, 1, 1, [⟨1, 1, .W1C, 0⟩, ⟨0, 0, .RO, 0⟩]⟩,
  ⟨.MBOX, 0x108, 0, 1, 1, [⟨10, 0, .RW, 0⟩]⟩,
  ⟨.MBOX, 0x110, 0, 1, 1, [⟨10, 0, .RW, 0⟩]⟩,
  ⟨.MBOX, 0x10C, 0, 1, 1, [⟨31, 0, .WO, 0⟩]⟩,
  ⟨.MBOX, 0x114, 0, 1, 1, [⟨31, 0, .RO, 0⟩]⟩]

/-- The registers of SEC from offset 0x100 (a table window: its entry). -/
def rowsSEC : List RegRow := [
  ⟨.SEC, 0x100, 0, 1, 1, [⟨31, 16, .RO, 0⟩, ⟨1, 1, .RO, 0⟩, ⟨0, 0, .RO, 0⟩]⟩,
  ⟨.SEC, 0x104, 0, 1, 1, [⟨31, 16, .RC, 0⟩, ⟨15, 0, .RC, 0⟩]⟩]

/-- The registers of SEAL from offset 0x100 (a table window: its entry). -/
def rowsSEAL : List RegRow := [
  ⟨.SEAL, 0x100, 0, 1, 2, [⟨63, 0, .RW, 0⟩]⟩,
  ⟨.SEAL, 0x108, 0, 1, 1, [⟨2, 0, .WO, 0⟩]⟩,
  ⟨.SEAL, 0x10C, 0, 1, 1, [⟨31, 31, .RO, 0⟩, ⟨13, 8, .RO, 0⟩, ⟨7, 0, .RO, 0⟩]⟩,
  ⟨.SEAL, 0x400, 16, 64, 4, [⟨127, 127, .RO, 0⟩, ⟨126, 126, .RO, 0⟩, ⟨125, 125, .RO, 0⟩, ⟨119, 116, .RO, 0⟩, ⟨82, 64, .RO, 0⟩, ⟨43, 21, .RO, 0⟩]⟩]

/-- The registers of SERGE from offset 0x100 (a table window: its entry). -/
def rowsSERGE : List RegRow := [
  ⟨.SERGE, 0x100, 0, 1, 1, [⟨31, 31, .WO, 0⟩, ⟨23, 16, .RW, 0⟩, ⟨11, 8, .RW, 0⟩, ⟨2, 0, .RW, 0⟩]⟩,
  ⟨.SERGE, 0x104, 0, 1, 1, [⟨19, 16, .RO, 0⟩, ⟨15, 8, .RO, 0⟩, ⟨1, 0, .RO, 0⟩]⟩,
  ⟨.SERGE, 0x200, 4, 140, 1, [⟨31, 0, .RW, 0⟩]⟩]

/-- The registers of HASH from offset 0x100 (a table window: its entry). -/
def rowsHASH : List RegRow := [
  ⟨.HASH, 0x200, 32, 16, 8, [⟨127, 64, .RW, 0⟩, ⟨63, 24, .RW, 0⟩, ⟨23, 16, .RO, 0⟩, ⟨7, 7, .RO, 0⟩, ⟨6, 6, .WO, 0⟩, ⟨5, 5, .WO, 0⟩, ⟨4, 4, .RW, 0⟩, ⟨3, 3, .RW, 0⟩, ⟨1, 0, .RW, 0⟩]⟩,
  ⟨.HASH, 0x400, 4, 256, 1, [⟨31, 0, .RO, 0⟩]⟩]

/-- The registers of PWR from offset 0x100 (a table window: its entry). -/
def rowsPWR : List RegRow := [
  ⟨.PWR, 0x100, 0, 1, 1, [⟨18, 16, .RO, 0⟩, ⟨15, 0, .RO, 0⟩]⟩,
  ⟨.PWR, 0x104, 0, 1, 1, [⟨15, 8, .WO, 0⟩, ⟨2, 0, .WO, 0⟩]⟩,
  ⟨.PWR, 0x108, 0, 1, 1, [⟨31, 31, .RO, 0⟩, ⟨7, 0, .RO, 0⟩]⟩,
  ⟨.PWR, 0x10C, 0, 1, 1, [⟨31, 16, .RW, 0x3B6⟩, ⟨15, 0, .RW, 0x76C⟩]⟩,
  ⟨.PWR, 0x110, 0, 1, 1, [⟨31, 31, .RO, 0⟩, ⟨27, 24, .RO, 0⟩, ⟨23, 16, .RW, 0⟩, ⟨15, 0, .RW, 0x32⟩]⟩,
  ⟨.PWR, 0x114, 0, 1, 1, [⟨31, 16, .RC, 0⟩, ⟨15, 0, .RO, 0⟩]⟩,
  ⟨.PWR, 0x200, 4, 64, 1, [⟨10, 8, .RO, 4⟩, ⟨2, 0, .RW, 4⟩]⟩]

/-- The registers of GLM from offset 0x100 (a table window: its entry). -/
def rowsGLM : List RegRow := [
  ⟨.GLM, 0x100, 0, 1, 1, [⟨31, 31, .RO, 0⟩, ⟨23, 8, .RO, 0⟩, ⟨3, 0, .RO, 0⟩]⟩,
  ⟨.GLM, 0x104, 0, 1, 1, [⟨0, 0, .WO, 0⟩]⟩,
  ⟨.GLM, 0x200, 4, 96, 1, [⟨15, 0, .RO, 0⟩]⟩,
  ⟨.GLM, 0x400, 4, 64, 1, [⟨15, 0, .RO, 0⟩]⟩,
  ⟨.GLM, 0x800, 8, 64, 2, [⟨63, 63, .RO, 0⟩, ⟨62, 61, .RO, 0⟩, ⟨60, 54, .RO, 0⟩, ⟨53, 47, .RO, 0⟩, ⟨46, 41, .RO, 0⟩, ⟨40, 35, .RO, 0⟩, ⟨34, 29, .RO, 0⟩]⟩,
  ⟨.GLM, 0xA00, 8, 64, 2, [⟨63, 63, .RO, 0⟩, ⟨62, 59, .RO, 0⟩, ⟨58, 55, .RO, 0⟩, ⟨54, 49, .RO, 0⟩, ⟨48, 46, .RO, 0⟩, ⟨45, 45, .RO, 0⟩, ⟨44, 42, .RO, 0⟩, ⟨41, 36, .RO, 0⟩, ⟨35, 20, .RO, 0⟩, ⟨19, 12, .RO, 0⟩, ⟨3, 0, .RO, 0⟩]⟩,
  ⟨.GLM, 0xC00, 4, 16, 1, [⟨31, 31, .RO, 0⟩, ⟨30, 30, .RO, 0⟩, ⟨29, 29, .RO, 0⟩, ⟨28, 28, .RO, 0⟩, ⟨27, 20, .RO, 0⟩]⟩,
  ⟨.GLM, 0xD00, 4, 128, 1, [⟨31, 16, .RO, 0⟩, ⟨15, 0, .RO, 0⟩]⟩]

/-- The registers of ERRSYS from offset 0x100 (a table window: its entry). -/
def rowsERRSYS : List RegRow := [
  ⟨.ERRSYS, 0x100, 4, 5, 1, [⟨31, 0, .RC, 0⟩]⟩,
  ⟨.ERRSYS, 0x120, 0, 1, 1, [⟨31, 31, .RO, 0⟩, ⟨15, 8, .RO, 0⟩, ⟨7, 0, .RO, 0⟩]⟩,
  ⟨.ERRSYS, 0x124, 0, 1, 1, [⟨23, 16, .RW, 4⟩, ⟨15, 0, .RW, 0x18⟩]⟩,
  ⟨.ERRSYS, 0x128, 0, 1, 1, [⟨31, 28, .WO, 0⟩, ⟨23, 0, .RW, 0⟩]⟩,
  ⟨.ERRSYS, 0x12C, 0, 1, 1, [⟨31, 31, .RO, 0⟩, ⟨30, 27, .RO, 0⟩, ⟨23, 0, .RO, 0⟩]⟩,
  ⟨.ERRSYS, 0x130, 0, 1, 1, [⟨7, 0, .RO, 0⟩]⟩]

/-- The registers of CHIP from offset 0x100 (a table window: its entry). -/
def rowsCHIP : List RegRow := [
  ⟨.CHIP, 0x100, 0, 1, 2, [⟨63, 48, .RO, 0x2460⟩, ⟨47, 44, .RO, 0⟩, ⟨43, 40, .RO, 0⟩, ⟨31, 0, .RO, 0⟩]⟩,
  ⟨.CHIP, 0x110, 0, 1, 1, [⟨14, 0, .RO, 0⟩]⟩,
  ⟨.CHIP, 0x114, 0, 1, 1, [⟨26, 16, .RW, 0⟩, ⟨0, 0, .RW, 0⟩]⟩,
  ⟨.CHIP, 0x120, 4, 4, 1, [⟨31, 0, .RW, 0⟩]⟩,
  ⟨.CHIP, 0x140, 0, 1, 8, [⟨255, 0, .RO, 0⟩]⟩]

/-- The registers of RESET from offset 0x100 (a table window: its entry). -/
def rowsRESET : List RegRow := [
  ⟨.RESET, 0x100, 0, 1, 1, [⟨5, 5, .W1C, 0⟩, ⟨4, 4, .W1C, 0⟩, ⟨3, 3, .W1C, 0⟩, ⟨2, 2, .W1C, 0⟩, ⟨1, 1, .W1C, 0⟩, ⟨0, 0, .W1C, 1⟩]⟩,
  ⟨.RESET, 0x104, 0, 1, 1, [⟨31, 16, .WO, 0⟩, ⟨0, 0, .WO, 0⟩]⟩,
  ⟨.RESET, 0x108, 0, 1, 1, [⟨31, 31, .RO, 0⟩, ⟨7, 0, .RO, 0⟩]⟩,
  ⟨.RESET, 0x110, 0, 1, 2, [⟨63, 0, .RO, 0⟩]⟩]

/-- The registers of STRAP from offset 0x100 (a table window: its entry). -/
def rowsSTRAP : List RegRow := [
  ⟨.STRAP, 0x100, 0, 1, 1, [⟨6, 6, .RO, 0⟩, ⟨5, 5, .RO, 0⟩, ⟨4, 2, .RO, 0⟩, ⟨1, 0, .RO, 0⟩]⟩,
  ⟨.STRAP, 0x104, 0, 1, 1, [⟨6, 0, .RO, 0⟩]⟩]

/-- The registers of LIFE from offset 0x100 (a table window: its entry). -/
def rowsLIFE : List RegRow := [
  ⟨.LIFE, 0x100, 0, 1, 1, [⟨1, 1, .RW, 0⟩, ⟨0, 0, .WO, 0⟩]⟩,
  ⟨.LIFE, 0x104, 0, 1, 1, [⟨31, 31, .RO, 0⟩, ⟨30, 30, .RO, 0⟩, ⟨29, 29, .RO, 0⟩, ⟨28, 28, .W1C, 0⟩, ⟨7, 0, .RO, 0⟩]⟩,
  ⟨.LIFE, 0x108, 0, 1, 2, [⟨63, 0, .RO, 0⟩]⟩,
  ⟨.LIFE, 0x110, 0, 1, 1, [⟨16, 0, .RW, 0⟩]⟩,
  ⟨.LIFE, 0x114, 0, 1, 1, [⟨31, 0, .RO, 0⟩]⟩]

/-- The registers of PWIN from offset 0x100 (a table window: its entry). -/
def rowsPWIN : List RegRow := [
  ⟨.PWIN, 0x0, 16, 256, 4, [⟨127, 127, .RW, 0⟩, ⟨126, 126, .RW, 0⟩, ⟨125, 125, .RW, 0⟩, ⟨124, 124, .RW, 0⟩, ⟨123, 123, .RW, 0⟩, ⟨122, 122, .RW, 0⟩, ⟨121, 116, .RW, 0⟩, ⟨115, 112, .RW, 0⟩, ⟨111, 96, .RW, 0⟩, ⟨95, 80, .RW, 0⟩, ⟨79, 48, .RW, 0⟩, ⟨47, 20, .RW, 0⟩]⟩]

/-- The registers of MCAST from offset 0x100 (a table window: its entry). -/
def rowsMCAST : List RegRow := [
  ⟨.MCAST, 0x0, 8, 256, 2, [⟨63, 63, .RW, 0⟩, ⟨62, 62, .RW, 0⟩, ⟨55, 40, .RW, 0⟩, ⟨23, 0, .RW, 0⟩]⟩]

/-- The registers of ROUTE from offset 0x100 (a table window: its entry). -/
def rowsROUTE : List RegRow := [
  ⟨.ROUTE, 0x0, 4, 65536, 1, [⟨31, 31, .RW, 0⟩, ⟨30, 30, .RW, 0⟩, ⟨29, 25, .RW, 0⟩, ⟨24, 24, .RW, 0⟩, ⟨23, 19, .RW, 0⟩, ⟨18, 18, .RW, 0⟩]⟩]

/-- The registers of HWMAP from offset 0x100 (a table window: its entry). -/
def rowsHWMAP : List RegRow := [
  ⟨.HWMAP, 0x0, 16, 256, 4, [⟨127, 127, .RW, 0⟩, ⟨126, 126, .RW, 0⟩, ⟨125, 120, .RW, 0⟩, ⟨63, 12, .RW, 0⟩]⟩]

/-- The registers of BAR4MAP from offset 0x100 (a table window: its entry). -/
def rowsBAR4MAP : List RegRow := [
  ⟨.BAR4MAP, 0x0, 16, 4096, 4, [⟨127, 127, .RW, 0⟩, ⟨126, 126, .RW, 0⟩, ⟨125, 124, .RW, 0⟩, ⟨43, 0, .RW, 0⟩]⟩]

/-- The registers of MSIXPF from offset 0x100 (a table window: its entry). -/
def rowsMSIXPF : List RegRow := [
  ⟨.MSIXPF, 0x0, 16, 2048, 4, [⟨96, 96, .RW, 1⟩, ⟨95, 64, .RW, 0⟩, ⟨63, 0, .RW, 0⟩]⟩]

/-- The registers of PBAPF from offset 0x100 (a table window: its entry). -/
def rowsPBAPF : List RegRow := [
  ⟨.PBAPF, 0x0, 4, 64, 1, [⟨31, 0, .RO, 0⟩]⟩]

/-- The registers of MSIX from offset 0x100 (a table window: its entry). -/
def rowsMSIX : List RegRow := [
  ⟨.MSIX, 0x0, 16, 32, 4, [⟨96, 96, .RW, 1⟩, ⟨95, 64, .RW, 0⟩, ⟨63, 0, .RW, 0⟩]⟩]

/-- The registers of PBA from offset 0x100 (a table window: its entry). -/
def rowsPBA : List RegRow := [
  ⟨.PBA, 0x0, 4, 1, 1, [⟨31, 0, .RO, 0⟩]⟩]

/-- The field tables of a page. -/
def Page.rows : Page → List RegRow
  | .TILE => rowsTILE
  | .PRIMETAB => rowsPRIMETAB
  | .MUSLIN => rowsMUSLIN
  | .SCACHE => rowsSCACHE
  | .MEMC => rowsMEMC
  | .MEMSYS => rowsMEMSYS
  | .EPOCH => rowsEPOCH
  | .ORDER => rowsORDER
  | .LINK => rowsLINK
  | .ROUTER => rowsROUTER
  | .QE => rowsQE
  | .FN => rowsFN
  | .FWC => rowsFWC
  | .MBOX => rowsMBOX
  | .SEC => rowsSEC
  | .SEAL => rowsSEAL
  | .SERGE => rowsSERGE
  | .HASH => rowsHASH
  | .PWR => rowsPWR
  | .GLM => rowsGLM
  | .ERRSYS => rowsERRSYS
  | .CHIP => rowsCHIP
  | .RESET => rowsRESET
  | .STRAP => rowsSTRAP
  | .LIFE => rowsLIFE
  | .PWIN => rowsPWIN
  | .MCAST => rowsMCAST
  | .ROUTE => rowsROUTE
  | .HWMAP => rowsHWMAP
  | .BAR4MAP => rowsBAR4MAP
  | .MSIXPF => rowsMSIXPF
  | .PBAPF => rowsPBAPF
  | .MSIX => rowsMSIX
  | .PBA => rowsPBA
  | .CLUSTER => []

/-- TILE.LDGCTL.FORCE_TRAP, RW, bits [0] (R48): 1: trap mode regardless of LMODE -/
def TILE.LDGCTL.FORCE_TRAP : Fld := ⟨.TILE, 0x1C0, 0, 0, 0⟩
/-- TILE.LDGCNT.RAISED, RC, bits [31:16] (R48): input descriptors raised to FRESH_NOISE; saturates at 0xFFFF -/
def TILE.LDGCNT.RAISED : Fld := ⟨.TILE, 0x1C4, 0, 31, 16⟩
/-- TILE.LDGCNT.OVER, RC, bits [15:0] (R48): instructions failing a check in count mode; saturates at 0xFFFF -/
def TILE.LDGCNT.OVER : Fld := ⟨.TILE, 0x1C4, 0, 15, 0⟩
/-- PRIMETAB.GEN.GEN, RO, bits [31:0] (R57): incremented by one each time an entry changes: a slot becomes valid, or a valid slot is cleared, including vendor slots at boot; a PRIME_CLEAR of a slot that is already empty changes nothing and leaves GEN unchanged; wraps -/
def PRIMETAB.GEN.GEN : Fld := ⟨.PRIMETAB, 0x100, 0, 31, 0⟩
/-- PRIMETAB.LASTFAIL.STATUS, RO, bits [31:24] (R57): status of the most recent refused load or clear -/
def PRIMETAB.LASTFAIL.STATUS : Fld := ⟨.PRIMETAB, 0x104, 0, 31, 24⟩
/-- PRIMETAB.LASTFAIL.STEP, RO, bits [23:20] (R57): load check step that refused it, 1 to 8 -/
def PRIMETAB.LASTFAIL.STEP : Fld := ⟨.PRIMETAB, 0x104, 0, 23, 20⟩
/-- PRIMETAB.LASTFAIL.SLOT, RO, bits [7:0] (R57): slot byte of the refused command, 0 to 255, as sent -/
def PRIMETAB.LASTFAIL.SLOT : Fld := ⟨.PRIMETAB, 0x104, 0, 7, 0⟩
/-- PRIMETAB.ENTRY.ENTRY, RO, bits [127:0] (R57): entry of slot n as laid out in the prime table entry; the word at the lowest offset holds bits [31:0] -/
def PRIMETAB.ENTRY.ENTRY : Fld := ⟨.PRIMETAB, 0x800, 16, 127, 0⟩
/-- TILE.RESCNT.GENERIC, RC, bits [31:16] (R71): instructions that operated on at least one limb of a slot with MONT = 1; saturates at 0xFFFF -/
def TILE.RESCNT.GENERIC : Fld := ⟨.TILE, 0x1C8, 0, 31, 16⟩
/-- TILE.RESCNT.NONCANON, RC, bits [15:0] (R71): instructions that made a non-canonical read (R52); saturates at 0xFFFF -/
def TILE.RESCNT.NONCANON : Fld := ⟨.TILE, 0x1C8, 0, 15, 0⟩
/-- TILE.RESCTL.NONCANON_TRAP, RW, bits [0] (R71): 1: a non-canonical read stops the tile with status RANGE -/
def TILE.RESCTL.NONCANON_TRAP : Fld := ⟨.TILE, 0x1CC, 0, 0, 0⟩
/-- TILE.WSTCNT.FOLD, RC, bits [31:16] (R95): automatic folds (R87); saturates at 0xFFFF -/
def TILE.WSTCNT.FOLD : Fld := ⟨.TILE, 0x1D0, 0, 31, 16⟩
/-- TILE.WSTCNT.RESUME, RC, bits [15:0] (R95): preemptions taken at a resumption point (R93); saturates at 0xFFFF -/
def TILE.WSTCNT.RESUME : Fld := ⟨.TILE, 0x1D0, 0, 15, 0⟩
/-- TILE.WSTSTALL.STALL, RC, bits [31:0] (R95): M-pipe cycles stalled by the scratchpad budget (R75); saturates at 0xFFFF_FFFF -/
def TILE.WSTSTALL.STALL : Fld := ⟨.TILE, 0x1D4, 0, 31, 0⟩
/-- TILE.WSTACC0.LIVE, RO, bits [17] (R95): bank holds data not yet read out or cleared -/
def TILE.WSTACC0.LIVE : Fld := ⟨.TILE, 0x1D8, 0, 17, 17⟩
/-- TILE.WSTACC0.TERMS, RO, bits [16:0] (R95): term count, 0 to 65,536; at N = 2^17 both registers show ACC01 -/
def TILE.WSTACC0.TERMS : Fld := ⟨.TILE, 0x1D8, 0, 16, 0⟩
/-- TILE.WSTACC1.LIVE, RO, bits [17] (R95): bank holds data not yet read out or cleared -/
def TILE.WSTACC1.LIVE : Fld := ⟨.TILE, 0x1DC, 0, 17, 17⟩
/-- TILE.WSTACC1.TERMS, RO, bits [16:0] (R95): term count, 0 to 65,536; at N = 2^17 both registers show ACC01 -/
def TILE.WSTACC1.TERMS : Fld := ⟨.TILE, 0x1DC, 0, 16, 0⟩
/-- MUSLIN.KCCTL.FLUSH, WO, bits [8] (R120): 1: empty the key cache at the next epoch boundary with no key stream active -/
def MUSLIN.KCCTL.FLUSH : Fld := ⟨.MUSLIN, 0x100, 0, 8, 8⟩
/-- MUSLIN.KCCTL.SIZE, RW, bits [3:0] (R120): key cache size in MiB, 0 to 12; values 13 to 15 read back as 12 -/
def MUSLIN.KCCTL.SIZE : Fld := ⟨.MUSLIN, 0x100, 0, 3, 0⟩
/-- MUSLIN.KCSTAT.ACTIVE, RO, bits [16] (R120): a key stream is in progress on the cluster -/
def MUSLIN.KCSTAT.ACTIVE : Fld := ⟨.MUSLIN, 0x104, 0, 16, 16⟩
/-- MUSLIN.KCSTAT.USED, RO, bits [5:0] (R120): key cache occupancy in 256 KiB units, 0 to 48 -/
def MUSLIN.KCSTAT.USED : Fld := ⟨.MUSLIN, 0x104, 0, 5, 0⟩
/-- MUSLIN.BLOCKS.BLOCKS, RC, bits [31:0] (R120): ChaCha20 blocks generated; saturates at 0xFFFF_FFFF -/
def MUSLIN.BLOCKS.BLOCKS : Fld := ⟨.MUSLIN, 0x108, 0, 31, 0⟩
/-- MUSLIN.KCHIT.HIT, RC, bits [31:16] (R120): b-half limbs served from the key cache; saturates at 0xFFFF -/
def MUSLIN.KCHIT.HIT : Fld := ⟨.MUSLIN, 0x10C, 0, 31, 16⟩
/-- MUSLIN.KCHIT.MISS, RC, bits [15:0] (R120): b-half limbs fetched from memory; saturates at 0xFFFF -/
def MUSLIN.KCHIT.MISS : Fld := ⟨.MUSLIN, 0x10C, 0, 15, 0⟩
/-- MUSLIN.RELAYSTALL.STALL, RC, bits [31:0] (R120): fabric cycles the relay head was stalled (R114); saturates at 0xFFFF_FFFF -/
def MUSLIN.RELAYSTALL.STALL : Fld := ⟨.MUSLIN, 0x110, 0, 31, 0⟩
/-- TILE.DMKCTL.ROUND_TRAP, RW, bits [1] (R149): 1: a rounded encoding refuses with RANGE -/
def TILE.DMKCTL.ROUND_TRAP : Fld := ⟨.TILE, 0x1E0, 0, 1, 1⟩
/-- TILE.DMKCTL.SAT_TRAP, RW, bits [0] (R149): 1: a clamp stops the tile with status SAT -/
def TILE.DMKCTL.SAT_TRAP : Fld := ⟨.TILE, 0x1E0, 0, 0, 0⟩
/-- TILE.DMKSTAT.LONG, W1C, bits [2] (R149): an FP32 accumulation passed 65,536 chunks -/
def TILE.DMKSTAT.LONG : Fld := ⟨.TILE, 0x1E4, 0, 2, 2⟩
/-- TILE.DMKSTAT.ROUNDED, W1C, bits [1] (R149): a rounded encoding occurred -/
def TILE.DMKSTAT.ROUNDED : Fld := ⟨.TILE, 0x1E4, 0, 1, 1⟩
/-- TILE.DMKSTAT.SAT, W1C, bits [0] (R149): a clamp or non-finite result occurred in the integer domain -/
def TILE.DMKSTAT.SAT : Fld := ⟨.TILE, 0x1E4, 0, 0, 0⟩
/-- TILE.DMKCNT.FOLD, RC, bits [31:16] (R149): automatic folds; saturates at 0xFFFF -/
def TILE.DMKCNT.FOLD : Fld := ⟨.TILE, 0x1E8, 0, 31, 16⟩
/-- TILE.DMKCNT.SATCNT, RC, bits [15:0] (R149): clamped entries; saturates at 0xFFFF -/
def TILE.DMKCNT.SATCNT : Fld := ⟨.TILE, 0x1E8, 0, 15, 0⟩
/-- TILE.DMKENC.ROUNDED, RC, bits [31:16] (R149): rounded encodings; saturates at 0xFFFF -/
def TILE.DMKENC.ROUNDED : Fld := ⟨.TILE, 0x1EC, 0, 31, 16⟩
/-- TILE.DMKENC.ESC, RC, bits [15:0] (R149): escapes unpacked; saturates at 0xFFFF -/
def TILE.DMKENC.ESC : Fld := ⟨.TILE, 0x1EC, 0, 15, 0⟩
/-- TILE.DMKDACC.TRACKED, RO, bits [18] (R149): the shadow holds tracked sources only -/
def TILE.DMKDACC.TRACKED : Fld := ⟨.TILE, 0x1F0, 0, 18, 18⟩
/-- TILE.DMKDACC.LIVE, RO, bits [17] (R149): DACC holds data not yet read out -/
def TILE.DMKDACC.LIVE : Fld := ⟨.TILE, 0x1F0, 0, 17, 17⟩
/-- TILE.DMKDACC.TERMS, RO, bits [16:0] (R149): term count, 0 to 65,536 -/
def TILE.DMKDACC.TERMS : Fld := ⟨.TILE, 0x1F0, 0, 16, 0⟩
/-- TILE.GZCNT.LOOKUPS, RC, bits [31:0] (R170): samples completed by BLINDROT on this tile, each output counted; saturates at 0xFFFF_FFFF -/
def TILE.GZCNT.LOOKUPS : Fld := ⟨.TILE, 0x200, 0, 31, 0⟩
/-- TILE.GZSTAT.PENDING, RO, bits [18] (R170): an EXTRACT bundle is pending (R161) -/
def TILE.GZSTAT.PENDING : Fld := ⟨.TILE, 0x204, 0, 18, 18⟩
/-- TILE.GZSTAT.BUSY, RO, bits [17] (R170): a Gauze macro occupies Worsted -/
def TILE.GZSTAT.BUSY : Fld := ⟨.TILE, 0x204, 0, 17, 17⟩
/-- TILE.GZSTAT.MACRO, RO, bits [16:13] (R170): 0 none, 1 EXTRACT, 2 LWE_KS, 3 MODSW, 4 BLINDROT, 5 REPACK -/
def TILE.GZSTAT.MACRO : Fld := ⟨.TILE, 0x204, 0, 16, 13⟩
/-- TILE.GZSTAT.COORD, RO, bits [12:0] (R170): BLINDROT coordinate t in progress -/
def TILE.GZSTAT.COORD : Fld := ⟨.TILE, 0x204, 0, 12, 0⟩
/-- TILE.PCLCTL.NV_TRAP, RW, bits [2] (R194): 1: an instruction that raises NV stops the tile with status RANGE -/
def TILE.PCLCTL.NV_TRAP : Fld := ⟨.TILE, 0x210, 0, 2, 2⟩
/-- TILE.PCLCTL.RM, RW, bits [1:0] (R194): 0 roundTiesToEven, 1 roundTowardZero, 2 roundTowardPositive, 3 roundTowardNegative -/
def TILE.PCLCTL.RM : Fld := ⟨.TILE, 0x210, 0, 1, 0⟩
/-- TILE.PCLFLAGS.ISAT, W1C, bits [4] (R194): integer saturation (R178) -/
def TILE.PCLFLAGS.ISAT : Fld := ⟨.TILE, 0x214, 0, 4, 4⟩
/-- TILE.PCLFLAGS.NV, W1C, bits [3] (R194): invalid operation -/
def TILE.PCLFLAGS.NV : Fld := ⟨.TILE, 0x214, 0, 3, 3⟩
/-- TILE.PCLFLAGS.OF, W1C, bits [2] (R194): overflow -/
def TILE.PCLFLAGS.OF : Fld := ⟨.TILE, 0x214, 0, 2, 2⟩
/-- TILE.PCLFLAGS.UF, W1C, bits [1] (R194): underflow -/
def TILE.PCLFLAGS.UF : Fld := ⟨.TILE, 0x214, 0, 1, 1⟩
/-- TILE.PCLFLAGS.NX, W1C, bits [0] (R194): inexact -/
def TILE.PCLFLAGS.NX : Fld := ⟨.TILE, 0x214, 0, 0, 0⟩
/-- TILE.PCLCNT.COLLIDE, RC, bits [31:16] (R194): OCLD writes dropped (R174); saturates at 0xFFFF -/
def TILE.PCLCNT.COLLIDE : Fld := ⟨.TILE, 0x218, 0, 31, 16⟩
/-- TILE.PCLCNT.NVCNT, RC, bits [15:0] (R194): instructions that raised NV; saturates at 0xFFFF -/
def TILE.PCLCNT.NVCNT : Fld := ⟨.TILE, 0x218, 0, 15, 0⟩
/-- TILE.RUNCTL.RESUME, WO, bits [2] (R232): 1: restore from the context area (R229) -/
def TILE.RUNCTL.RESUME : Fld := ⟨.TILE, 0x100, 0, 2, 2⟩
/-- TILE.RUNCTL.PREEMPT, WO, bits [1] (R232): 1: preemption request (R223) -/
def TILE.RUNCTL.PREEMPT : Fld := ⟨.TILE, 0x100, 0, 1, 1⟩
/-- TILE.RUNCTL.HALT, RW, bits [0] (R232): 1: stop at resumption points without saving -/
def TILE.RUNCTL.HALT : Fld := ⟨.TILE, 0x100, 0, 0, 0⟩
/-- TILE.RUNSTAT.STATUS, RO, bits [15:8] (R232): status of the last stop -/
def TILE.RUNSTAT.STATUS : Fld := ⟨.TILE, 0x104, 0, 15, 8⟩
/-- TILE.RUNSTAT.PERTURBED, RO, bits [4] (R232): the current epoch is marked perturbed -/
def TILE.RUNSTAT.PERTURBED : Fld := ⟨.TILE, 0x104, 0, 4, 4⟩
/-- TILE.RUNSTAT.STATE, RO, bits [3:0] (R232): 0 IDLE, 1 RUNNING, 2 STOPPING, 3 SAVING, 4 SAVED, 5 RESTORING, 6 STOPPED on error, 7 HALTED -/
def TILE.RUNSTAT.STATE : Fld := ⟨.TILE, 0x104, 0, 3, 0⟩
/-- TILE.PCA.SEG, RO, bits [31:16] (R232): current segment (epoch of the graph), modulo 2^16 -/
def TILE.PCA.SEG : Fld := ⟨.TILE, 0x108, 0, 31, 16⟩
/-- TILE.PCA.PC, RO, bits [12:0] (R232): instruction memory word of the access (PCA) or execute (PCE) stream; for segment e, 4,096 × (e mod 2) plus the offset within the segment (R199) -/
def TILE.PCA.PC : Fld := ⟨.TILE, 0x108, 0, 12, 0⟩
/-- TILE.PCE.SEG, RO, bits [31:16] (R232): current segment (epoch of the graph), modulo 2^16 -/
def TILE.PCE.SEG : Fld := ⟨.TILE, 0x10C, 0, 31, 16⟩
/-- TILE.PCE.PC, RO, bits [12:0] (R232): instruction memory word of the access (PCA) or execute (PCE) stream; for segment e, 4,096 × (e mod 2) plus the offset within the segment (R199) -/
def TILE.PCE.PC : Fld := ⟨.TILE, 0x10C, 0, 12, 0⟩
/-- TILE.FLAGLO.FLAGS, RO, bits [31:0] (R232): flags 0–31 (FLAGLO) and 32–63 (FLAGHI) -/
def TILE.FLAGLO.FLAGS : Fld := ⟨.TILE, 0x110, 0, 31, 0⟩
/-- TILE.FLAGHI.FLAGS, RO, bits [31:0] (R232): flags 0–31 (FLAGLO) and 32–63 (FLAGHI) -/
def TILE.FLAGHI.FLAGS : Fld := ⟨.TILE, 0x114, 0, 31, 0⟩
/-- TILE.STRCNT.OVERRUN, RC, bits [31:16] (R232): cycles stalled on a full outbound queue (R202); saturates at 0xFFFF -/
def TILE.STRCNT.OVERRUN : Fld := ⟨.TILE, 0x118, 0, 31, 16⟩
/-- TILE.STRCNT.UNDERRUN, RC, bits [15:0] (R232): underruns (R16); saturates at 0xFFFF -/
def TILE.STRCNT.UNDERRUN : Fld := ⟨.TILE, 0x118, 0, 15, 0⟩
/-- TILE.PTBCNT.EPOCHS, RC, bits [31:0] (R232): epochs marked perturbed; saturates at 0xFFFF_FFFF -/
def TILE.PTBCNT.EPOCHS : Fld := ⟨.TILE, 0x11C, 0, 31, 0⟩
/-- TILE.DLKCTL.WINDOW, RW, bits [7:0] (R232): epochs without progress before DEADLOCK; 0 disables detection -/
def TILE.DLKCTL.WINDOW : Fld := ⟨.TILE, 0x124, 0, 7, 0⟩
/-- TILE.SELLAST.COUNT, RC, bits [31:16] (R232): messages admitted by selection; saturates at 0xFFFF -/
def TILE.SELLAST.COUNT : Fld := ⟨.TILE, 0x128, 0, 31, 16⟩
/-- TILE.SELLAST.LAST, RO, bits [6:0] (R232): 16 × sender position + channel of the last admission -/
def TILE.SELLAST.LAST : Fld := ⟨.TILE, 0x128, 0, 6, 0⟩
/-- TILE.CTXBASE.BASE, RW, bits [43:16] (R232): bits [43:16] of the context area's device-local address -/
def TILE.CTXBASE.BASE : Fld := ⟨.TILE, 0x130, 0, 43, 16⟩
/-- TILE.CTR.ODD, RO, bits [31:16] (R232): counter 2⌊n/2⌋ + 1 -/
def TILE.CTR.ODD : Fld := ⟨.TILE, 0x140, 4, 31, 16⟩
/-- TILE.CTR.EVEN, RO, bits [15:0] (R232): counter 2⌊n/2⌋ -/
def TILE.CTR.EVEN : Fld := ⟨.TILE, 0x140, 4, 15, 0⟩
/-- TILE.SPAD_SIZE.MAX, RO, bits [22:16] (R249): largest SIZE accepted; 63 after a unit is pinned -/
def TILE.SPAD_SIZE.MAX : Fld := ⟨.TILE, 0x220, 0, 22, 16⟩
/-- TILE.SPAD_SIZE.SIZE, RW, bits [6:0] (R249): usable scratchpad in 512 KiB units, 8 to MAX (R245) -/
def TILE.SPAD_SIZE.SIZE : Fld := ⟨.TILE, 0x220, 0, 6, 0⟩
/-- TILE.SPCNT.COLLIDE, RC, bits [31:16] (R249): writes dropped (R241); saturates at 0xFFFF -/
def TILE.SPCNT.COLLIDE : Fld := ⟨.TILE, 0x224, 0, 31, 16⟩
/-- TILE.SPCNT.GUARD, RC, bits [15:0] (R249): grants forced by the starvation guard (R239); saturates at 0xFFFF -/
def TILE.SPCNT.GUARD : Fld := ⟨.TILE, 0x224, 0, 15, 0⟩
/-- TILE.SPSTALL.STALL, RC, bits [31:0] (R249): engine-cycles stalled by R237 and R238; saturates at 0xFFFF_FFFF -/
def TILE.SPSTALL.STALL : Fld := ⟨.TILE, 0x228, 0, 31, 0⟩
/-- TILE.SPATOM.RETRY, RC, bits [31:16] (R249): atomic restarts (R244); saturates at 0xFFFF -/
def TILE.SPATOM.RETRY : Fld := ⟨.TILE, 0x22C, 0, 31, 16⟩
/-- TILE.SPATOM.ABANDON, RC, bits [15:0] (R249): atomics completed BUSY; saturates at 0xFFFF -/
def TILE.SPATOM.ABANDON : Fld := ⟨.TILE, 0x22C, 0, 15, 0⟩
/-- TILE.SPTEST.PERIOD, RW, bits [31:16] (R249): least spacing of unit starts in 4,096-cycle units -/
def TILE.SPTEST.PERIOD : Fld := ⟨.TILE, 0x230, 0, 31, 16⟩
/-- TILE.SPTEST.EN, RW, bits [0] (R249): 1: background test runs (R246) -/
def TILE.SPTEST.EN : Fld := ⟨.TILE, 0x230, 0, 0, 0⟩
/-- TILE.SPTSTAT.PASSES, RO, bits [31:24] (R249): completed passes, modulo 256 -/
def TILE.SPTSTAT.PASSES : Fld := ⟨.TILE, 0x234, 0, 31, 24⟩
/-- TILE.SPTSTAT.SPARE, RO, bits [20:16] (R249): fewest spare rows left in any bank -/
def TILE.SPTSTAT.SPARE : Fld := ⟨.TILE, 0x234, 0, 20, 16⟩
/-- TILE.SPTSTAT.UNIT, RO, bits [7:2] (R249): unit under test, or 63 while the save area is tested -/
def TILE.SPTSTAT.UNIT : Fld := ⟨.TILE, 0x234, 0, 7, 2⟩
/-- TILE.SPTSTAT.STATE, RO, bits [1:0] (R249): 0 IDLE, 1 RUNNING, 2 PINNED, 3 reserved -/
def TILE.SPTSTAT.STATE : Fld := ⟨.TILE, 0x234, 0, 1, 0⟩
/-- SCACHE.SCCTL.INV, WO, bits [8] (R258): 1: empty the stream cache at the next epoch boundary -/
def SCACHE.SCCTL.INV : Fld := ⟨.SCACHE, 0x100, 0, 8, 8⟩
/-- SCACHE.SCCTL.RED, RW, bits [3:0] (R258): requested reduction area in MiB, 0 to 8; 9 to 15 read back as 8 -/
def SCACHE.SCCTL.RED : Fld := ⟨.SCACHE, 0x100, 0, 3, 0⟩
/-- SCACHE.SCSTAT.OPEN, RO, bits [31:23] (R258): open reductions, 0 to 256 -/
def SCACHE.SCSTAT.OPEN : Fld := ⟨.SCACHE, 0x104, 0, 31, 23⟩
/-- SCACHE.SCSTAT.STREAM, RO, bits [12:8] (R258): stream cache in MiB -/
def SCACHE.SCSTAT.STREAM : Fld := ⟨.SCACHE, 0x104, 0, 12, 8⟩
/-- SCACHE.SCSTAT.REDEFF, RO, bits [7:4] (R258): reduction area in effect, in MiB -/
def SCACHE.SCSTAT.REDEFF : Fld := ⟨.SCACHE, 0x104, 0, 7, 4⟩
/-- SCACHE.SCSTAT.KC, RO, bits [3:0] (R258): key cache in effect, in MiB -/
def SCACHE.SCSTAT.KC : Fld := ⟨.SCACHE, 0x104, 0, 3, 0⟩
/-- SCACHE.SCHIT.HIT, RC, bits [31:16] (R258): stream-cache lines served; saturates at 0xFFFF -/
def SCACHE.SCHIT.HIT : Fld := ⟨.SCACHE, 0x108, 0, 31, 16⟩
/-- SCACHE.SCHIT.MISS, RC, bits [15:0] (R258): stream-cache lines fetched; saturates at 0xFFFF -/
def SCACHE.SCHIT.MISS : Fld := ⟨.SCACHE, 0x108, 0, 15, 0⟩
/-- SCACHE.REDCNT.SEALED, RC, bits [31:16] (R258): reductions sealed; saturates at 0xFFFF -/
def SCACHE.REDCNT.SEALED : Fld := ⟨.SCACHE, 0x10C, 0, 31, 16⟩
/-- SCACHE.REDCNT.LATE, RC, bits [15:0] (R258): seals after SEAL_EPOCH (R256); saturates at 0xFFFF -/
def SCACHE.REDCNT.LATE : Fld := ⟨.SCACHE, 0x10C, 0, 15, 0⟩
/-- TILE.STRMSTAT.ACTIVE, RO, bits [16] (R277): a stream program is running -/
def TILE.STRMSTAT.ACTIVE : Fld := ⟨.TILE, 0x240, 0, 16, 16⟩
/-- TILE.STRMSTAT.RUN, RO, bits [15:8] (R277): one bit per entry not yet ended -/
def TILE.STRMSTAT.RUN : Fld := ⟨.TILE, 0x240, 0, 15, 8⟩
/-- TILE.STRMSTAT.WAITING, RO, bits [7:0] (R277): one bit per entry waiting on its counter (R269) -/
def TILE.STRMSTAT.WAITING : Fld := ⟨.TILE, 0x240, 0, 7, 0⟩
/-- TILE.STRMCNT.PADDED, RC, bits [31:16] (R277): load lines holding padded elements (R264, R267); saturates at 0xFFFF -/
def TILE.STRMCNT.PADDED : Fld := ⟨.TILE, 0x244, 0, 31, 16⟩
/-- TILE.STRMCNT.DROPPED, RC, bits [15:0] (R277): store lines dropped; saturates at 0xFFFF -/
def TILE.STRMCNT.DROPPED : Fld := ⟨.TILE, 0x244, 0, 15, 0⟩
/-- TILE.STRMTILES.TILES, RC, bits [31:0] (R277): buffer-level tiles completed by all entries; saturates at 0xFFFF_FFFF -/
def TILE.STRMTILES.TILES : Fld := ⟨.TILE, 0x248, 0, 31, 0⟩
/-- TILE.STRMLANE.BOUND, RO, bits [7:0] (R277): one bit per lane bound at the last graph start -/
def TILE.STRMLANE.BOUND : Fld := ⟨.TILE, 0x24C, 0, 7, 0⟩
/-- MEMC.INFO.UNIT, RO, bits [31:24] (R301): stack or group number -/
def MEMC.INFO.UNIT : Fld := ⟨.MEMC, 0x100, 0, 31, 24⟩
/-- MEMC.INFO.CAP, RO, bits [23:16] (R301): capacity in GiB: 48 per stack, or the package capacity of R280 -/
def MEMC.INFO.CAP : Fld := ⟨.MEMC, 0x100, 0, 23, 16⟩
/-- MEMC.INFO.RATE, RO, bits [15:8] (R301): data rate in units of 0.1 Gb/s: 100 or 80 for a stack, 96 or 85 for a group -/
def MEMC.INFO.RATE : Fld := ⟨.MEMC, 0x100, 0, 15, 8⟩
/-- MEMC.INFO.CHAN, RO, bits [7:0] (R301): pseudo-channels (64) or channels (4) -/
def MEMC.INFO.CHAN : Fld := ⟨.MEMC, 0x100, 0, 7, 0⟩
/-- MEMC.STAT.TEMP, RO, bits [15:8] (R301): last reported temperature in °C; 0 for far groups -/
def MEMC.STAT.TEMP : Fld := ⟨.MEMC, 0x104, 0, 15, 8⟩
/-- MEMC.STAT.DERATED, RO, bits [4] (R301): trained at the derated rate (R296) -/
def MEMC.STAT.DERATED : Fld := ⟨.MEMC, 0x104, 0, 4, 4⟩
/-- MEMC.STAT.STATE, RO, bits [3:0] (R301): 0 OFF, 1 TRAINING, 2 READY, 3 SELFREF, 4 MAINT, 5 FAILED -/
def MEMC.STAT.STATE : Fld := ⟨.MEMC, 0x104, 0, 3, 0⟩
/-- MEMC.CALCTL.PERIOD, RW, bits [15:0] (R301): calibration period in ms, 4 to 1,024 (R298) -/
def MEMC.CALCTL.PERIOD : Fld := ⟨.MEMC, 0x108, 0, 15, 0⟩
/-- MEMC.RDKL.KL, RC, bits [31:0] (R301): lines read (RDKL) or written (WRKL), in units of 4,096 lines; saturates at 0xFFFF_FFFF -/
def MEMC.RDKL.KL : Fld := ⟨.MEMC, 0x110, 0, 31, 0⟩
/-- MEMC.WRKL.KL, RC, bits [31:0] (R301): lines read (RDKL) or written (WRKL), in units of 4,096 lines; saturates at 0xFFFF_FFFF -/
def MEMC.WRKL.KL : Fld := ⟨.MEMC, 0x114, 0, 31, 0⟩
/-- MEMC.REG.WC, RW, bits [31] (R301): 1: may use slots that other partitions leave idle (R284) -/
def MEMC.REG.WC : Fld := ⟨.MEMC, 0x140, 4, 31, 31⟩
/-- MEMC.REG.RATE, RW, bits [24:16] (R301): share in 1/256 of peak, 0 to 256 -/
def MEMC.REG.RATE : Fld := ⟨.MEMC, 0x140, 4, 24, 16⟩
/-- MEMC.REG.BURST, RW, bits [15:0] (R301): bucket size in lines, 1 to 65,535 -/
def MEMC.REG.BURST : Fld := ⟨.MEMC, 0x140, 4, 15, 0⟩
/-- MEMC.REGWAIT.WAIT, RC, bits [31:0] (R301): line requests that waited for a token; saturates at 0xFFFF_FFFF -/
def MEMC.REGWAIT.WAIT : Fld := ⟨.MEMC, 0x160, 0, 31, 0⟩
/-- MEMC.CALCNT.RETRAIN, RC, bits [31:16] (R301): temperature retrains (R298); saturates at 0xFFFF -/
def MEMC.CALCNT.RETRAIN : Fld := ⟨.MEMC, 0x164, 0, 31, 16⟩
/-- MEMC.CALCNT.CAL, RC, bits [15:0] (R301): periodic calibrations; saturates at 0xFFFF -/
def MEMC.CALCNT.CAL : Fld := ⟨.MEMC, 0x164, 0, 15, 0⟩
/-- MEMC.T1500CTL.BUSY, RO, bits [31] (R301): a shift is in progress -/
def MEMC.T1500CTL.BUSY : Fld := ⟨.MEMC, 0x180, 0, 31, 31⟩
/-- MEMC.T1500CTL.OP, WO, bits [17:16] (R301): 0 none, 1 shift instruction register, 2 shift data register, 3 reserved -/
def MEMC.T1500CTL.OP : Fld := ⟨.MEMC, 0x180, 0, 17, 16⟩
/-- MEMC.T1500CTL.LEN, RW, bits [15:0] (R301): bits to shift, 1 to 65,535, through T1500DATA 32 bits at a time, lowest bit first -/
def MEMC.T1500CTL.LEN : Fld := ⟨.MEMC, 0x180, 0, 15, 0⟩
/-- MEMC.T1500DATA.DATA, RW, bits [31:0] (R301): a write supplies the next 32 bits to shift in; a read returns the last 32 bits shifted out -/
def MEMC.T1500DATA.DATA : Fld := ⟨.MEMC, 0x184, 0, 31, 0⟩
/-- MEMC.RPR.HARD, RO, bits [31:24] (R301): hard repairs made since manufacture, as read from the device -/
def MEMC.RPR.HARD : Fld := ⟨.MEMC, 0x190, 0, 31, 24⟩
/-- MEMC.RPR.SOFT, RO, bits [23:16] (R301): soft repairs in effect -/
def MEMC.RPR.SOFT : Fld := ⟨.MEMC, 0x190, 0, 23, 16⟩
/-- MEMC.RPR.SPPR_EN, RW, bits [0] (R301): 1: soft repair enabled (R301) -/
def MEMC.RPR.SPPR_EN : Fld := ⟨.MEMC, 0x190, 0, 0, 0⟩
/-- MEMSYS.PARTMAP.MAP, RW, bits [31:0] (R301): partition of source class c in bits [4c+2:4c]; bit 4c+3 reserved -/
def MEMSYS.PARTMAP.MAP : Fld := ⟨.MEMSYS, 0x100, 0, 31, 0⟩
/-- MEMSYS.FARCFG.HALFOK, RO, bits [17:16] (R301): bit 0 West, bit 1 East: far range of the half trained -/
def MEMSYS.FARCFG.HALFOK : Fld := ⟨.MEMSYS, 0x104, 0, 17, 16⟩
/-- MEMSYS.FARCFG.SIZE, RO, bits [10:0] (R301): F in GiB: 256, 512 or 1,024; 0 before training -/
def MEMSYS.FARCFG.SIZE : Fld := ⟨.MEMSYS, 0x104, 0, 10, 0⟩
/-- MEMSYS.HALFCTL.OFFLINE, RO, bits [11:8] (R301): state: [8] near West, [9] near East, [10] far West, [11] far East -/
def MEMSYS.HALFCTL.OFFLINE : Fld := ⟨.MEMSYS, 0x108, 0, 11, 8⟩
/-- MEMSYS.HALFCTL.REQ, RW, bits [3:0] (R301): 1: take the range OFFLINE (R300); 0: return it ONLINE; same bit order as OFFLINE -/
def MEMSYS.HALFCTL.REQ : Fld := ⟨.MEMSYS, 0x108, 0, 3, 0⟩
/-- MEMSYS.LEND.BUSY, RO, bits [31] (R301): zero fill in progress (R294) -/
def MEMSYS.LEND.BUSY : Fld := ⟨.MEMSYS, 0x110, 0, 31, 31⟩
/-- MEMSYS.LEND.SIZE, RW, bits [30:20] (R301): lent granules of 1 GiB, 0 to 1,024 (R293); 0: nothing lent -/
def MEMSYS.LEND.SIZE : Fld := ⟨.MEMSYS, 0x110, 0, 30, 20⟩
/-- MEMSYS.LEND.BASE, RW, bits [9:0] (R301): first lent granule within the far tier -/
def MEMSYS.LEND.BASE : Fld := ⟨.MEMSYS, 0x110, 0, 9, 0⟩
/-- EPOCH.CTL.DET, RW, bits [31] (R320): 1: deterministic mode (R316) -/
def EPOCH.CTL.DET : Fld := ⟨.EPOCH, 0x100, 0, 31, 31⟩
/-- EPOCH.CTL.ROLE, RW, bits [30:29] (R320): sync role (R305) -/
def EPOCH.CTL.ROLE : Fld := ⟨.EPOCH, 0x100, 0, 30, 29⟩
/-- EPOCH.CTL.LEN, RW, bits [16:0] (R320): epoch length in reference cycles, 1,024 to 65,536 -/
def EPOCH.CTL.LEN : Fld := ⟨.EPOCH, 0x100, 0, 16, 0⟩
/-- EPOCH.SYNCDLY.DELAY, RW, bits [15:0] (R320): expected pulse delay in reference cycles, 0 to LEN − 1 (R306) -/
def EPOCH.SYNCDLY.DELAY : Fld := ⟨.EPOCH, 0x104, 0, 15, 0⟩
/-- EPOCH.STAT.LOCKED, RO, bits [31] (R320): R308 -/
def EPOCH.STAT.LOCKED : Fld := ⟨.EPOCH, 0x108, 0, 31, 31⟩
/-- EPOCH.STAT.LOST, RO, bits [30] (R320): SYNC_LOST since the last acquisition -/
def EPOCH.STAT.LOST : Fld := ⟨.EPOCH, 0x108, 0, 30, 30⟩
/-- EPOCH.STAT.ACQ, RO, bits [29] (R320): acquisition in progress -/
def EPOCH.STAT.ACQ : Fld := ⟨.EPOCH, 0x108, 0, 29, 29⟩
/-- EPOCH.STAT.ERR, RO, bits [26:16] (R320): last capture error e, signed 11-bit, −512 to 512 cycles -/
def EPOCH.STAT.ERR : Fld := ⟨.EPOCH, 0x108, 0, 26, 16⟩
/-- EPOCH.STAT.MISS, RO, bits [7:0] (R320): consecutive misses; saturates at 0xFF -/
def EPOCH.STAT.MISS : Fld := ⟨.EPOCH, 0x108, 0, 7, 0⟩
/-- EPOCH.COUNTLO.COUNT, RO, bits [31:0] (R320): bits [31:0] (LO) and [63:32] (HI) of EPOCH.COUNT -/
def EPOCH.COUNTLO.COUNT : Fld := ⟨.EPOCH, 0x110, 0, 31, 0⟩
/-- EPOCH.COUNTHI.COUNT, RO, bits [31:0] (R320): bits [31:0] (LO) and [63:32] (HI) of EPOCH.COUNT -/
def EPOCH.COUNTHI.COUNT : Fld := ⟨.EPOCH, 0x114, 0, 31, 0⟩
/-- EPOCH.SKIPCNT.SKIP, RC, bits [31:0] (R320): skipped epochs (R311); saturates at 0xFFFF_FFFF -/
def EPOCH.SKIPCNT.SKIP : Fld := ⟨.EPOCH, 0x118, 0, 31, 0⟩
/-- EPOCH.SYNCCNT.CLAMP, RC, bits [31:16] (R320): captures with |e| > 64; saturates at 0xFFFF -/
def EPOCH.SYNCCNT.CLAMP : Fld := ⟨.EPOCH, 0x11C, 0, 31, 16⟩
/-- EPOCH.SYNCCNT.LOSTCNT, RC, bits [15:0] (R320): entries to SYNC_LOST; saturates at 0xFFFF -/
def EPOCH.SYNCCNT.LOSTCNT : Fld := ⟨.EPOCH, 0x11C, 0, 15, 0⟩
/-- ORDER.LQBASE.BASE, RW, bits [43:17] (R343): bits [43:17] of the log's device-local address, in the near tier; 0: no log -/
def ORDER.LQBASE.BASE : Fld := ⟨.ORDER, 0x100, 0, 43, 17⟩
/-- ORDER.LQPROD.PROD, RO, bits [31:0] (R343): SEQ of the next late error to be assigned -/
def ORDER.LQPROD.PROD : Fld := ⟨.ORDER, 0x108, 0, 31, 0⟩
/-- ORDER.LQCONS.CONS, RW, bits [31:0] (R343): SEQ of the oldest entry software has not yet consumed -/
def ORDER.LQCONS.CONS : Fld := ⟨.ORDER, 0x10C, 0, 31, 0⟩
/-- ORDER.LQDROP.DROP, RC, bits [31:0] (R343): late errors not written to the log (R341); saturates at 0xFFFF_FFFF -/
def ORDER.LQDROP.DROP : Fld := ⟨.ORDER, 0x110, 0, 31, 0⟩
/-- ORDER.PWTMO.TMO, RW, bits [15:0] (R343): time from acceptance to TIMEOUT in units of 100 µs, 1 to 65,535 (R338) -/
def ORDER.PWTMO.TMO : Fld := ⟨.ORDER, 0x114, 0, 15, 0⟩
/-- ORDER.PENDSEL.QID, RW, bits [17:0] (R343): queue shown in ORDER.PENDSTAT -/
def ORDER.PENDSEL.QID : Fld := ⟨.ORDER, 0x118, 0, 17, 0⟩
/-- ORDER.PENDSTAT.OUTST, RO, bits [31:16] (R343): accepted peer writes of the selected queue without a final outcome; saturates at 0xFFFF -/
def ORDER.PENDSTAT.OUTST : Fld := ⟨.ORDER, 0x11C, 0, 31, 16⟩
/-- ORDER.PENDSTAT.LATE, RO, bits [0] (R343): the selected queue has a pending late error -/
def ORDER.PENDSTAT.LATE : Fld := ⟨.ORDER, 0x11C, 0, 0, 0⟩
/-- LINK.CTL.RELEASE, WO, bits [4] (R369): 1: leave QUARANTINED and retrain (R368) -/
def LINK.CTL.RELEASE : Fld := ⟨.LINK, 0x100, 0, 4, 4⟩
/-- LINK.CTL.RETRAIN, WO, bits [3] (R369): 1: retrain now -/
def LINK.CTL.RETRAIN : Fld := ⟨.LINK, 0x100, 0, 3, 3⟩
/-- LINK.CTL.ALLOW2, RW, bits [2] (R369): 1: two-lane operation permitted -/
def LINK.CTL.ALLOW2 : Fld := ⟨.LINK, 0x100, 0, 2, 2⟩
/-- LINK.CTL.LOOP, RW, bits [1] (R369): 1: near-end loopback for test; link carries no PLP traffic -/
def LINK.CTL.LOOP : Fld := ⟨.LINK, 0x100, 0, 1, 1⟩
/-- LINK.CTL.EN, RW, bits [0] (R369): 0: link DISABLED -/
def LINK.CTL.EN : Fld := ⟨.LINK, 0x100, 0, 0, 0⟩
/-- LINK.STAT.PARTNER, RO, bits [31:16] (R369): partner device ID from the last partner exchange -/
def LINK.STAT.PARTNER : Fld := ⟨.LINK, 0x104, 0, 31, 16⟩
/-- LINK.STAT.PREADY, RO, bits [6] (R369): partner's READY bit -/
def LINK.STAT.PREADY : Fld := ⟨.LINK, 0x104, 0, 6, 6⟩
/-- LINK.STAT.WIDTH, RO, bits [5:4] (R369): 0 none, 1 two lanes, 2 four lanes -/
def LINK.STAT.WIDTH : Fld := ⟨.LINK, 0x104, 0, 5, 4⟩
/-- LINK.STAT.STATE, RO, bits [3:0] (R369): 0 DISABLED, 1 DOWN, 2 TRAINING, 3 UP, 4 QUARANTINED -/
def LINK.STAT.STATE : Fld := ⟨.LINK, 0x104, 0, 3, 0⟩
/-- LINK.RETRY.REPLAY, RC, bits [31:16] (R369): replays (R349); saturates at 0xFFFF -/
def LINK.RETRY.REPLAY : Fld := ⟨.LINK, 0x108, 0, 31, 16⟩
/-- LINK.RETRY.RETRAIN, RC, bits [15:0] (R369): retrains; saturates at 0xFFFF -/
def LINK.RETRY.RETRAIN : Fld := ⟨.LINK, 0x108, 0, 15, 0⟩
/-- LINK.FECCE.CW, RC, bits [31:0] (R369): corrected (FECCE) or uncorrectable (FECUC) codewords; saturates at 0xFFFF_FFFF -/
def LINK.FECCE.CW : Fld := ⟨.LINK, 0x10C, 0, 31, 0⟩
/-- LINK.FECUC.CW, RC, bits [31:0] (R369): corrected (FECCE) or uncorrectable (FECUC) codewords; saturates at 0xFFFF_FFFF -/
def LINK.FECUC.CW : Fld := ⟨.LINK, 0x110, 0, 31, 0⟩
/-- LINK.VIOLCNT.QUAR, RC, bits [31:16] (R369): quarantines; saturates at 0xFFFF -/
def LINK.VIOLCNT.QUAR : Fld := ⟨.LINK, 0x114, 0, 31, 16⟩
/-- LINK.VIOLCNT.VIOL, RC, bits [15:0] (R369): violations (R367); saturates at 0xFFFF -/
def LINK.VIOLCNT.VIOL : Fld := ⟨.LINK, 0x114, 0, 15, 0⟩
/-- ROUTER.CTL.DEVID, RW, bits [31:16] (R369): this module's device ID; writable only while READY = 0 -/
def ROUTER.CTL.DEVID : Fld := ⟨.ROUTER, 0x100, 0, 31, 16⟩
/-- ROUTER.CTL.TTL, RW, bits [9:4] (R369): TTL of packets this module originates, 1 to 63 -/
def ROUTER.CTL.TTL : Fld := ⟨.ROUTER, 0x100, 0, 9, 4⟩
/-- ROUTER.CTL.READY, RW, bits [0] (R369): 1: forward and accept packets (R361, R369); set by firmware -/
def ROUTER.CTL.READY : Fld := ⟨.ROUTER, 0x100, 0, 0, 0⟩
/-- ROUTER.HINT.US, RW, bits [15:0] (R369): retry hint in µs carried by NAK NOT_READY -/
def ROUTER.HINT.US : Fld := ⟨.ROUTER, 0x104, 0, 15, 0⟩
/-- ROUTER.ESET.LATE, RC, bits [31:16] (R369): EPOCH_SET discarded (R366); saturates at 0xFFFF -/
def ROUTER.ESET.LATE : Fld := ⟨.ROUTER, 0x108, 0, 31, 16⟩
/-- ROUTER.ESET.SEND, WO, bits [0] (R369): 1: send EPOCH_SET at the next half epoch -/
def ROUTER.ESET.SEND : Fld := ⟨.ROUTER, 0x108, 0, 0, 0⟩
/-- ROUTER.ESETDST.MC, RW, bits [16] (R369): 1: DST [7:0] names a group -/
def ROUTER.ESETDST.MC : Fld := ⟨.ROUTER, 0x10C, 0, 16, 16⟩
/-- ROUTER.ESETDST.DST, RW, bits [15:0] (R369): destination of EPOCH_SET -/
def ROUTER.ESETDST.DST : Fld := ⟨.ROUTER, 0x10C, 0, 15, 0⟩
/-- ROUTER.BOND.MASK, RW, bits [23:0] (R369): links of the group; a link in two groups is refused with status RANGE -/
def ROUTER.BOND.MASK : Fld := ⟨.ROUTER, 0x120, 4, 23, 0⟩
/-- ROUTER.DROP.TTL, RC, bits [31:16] (R369): packets discarded with TTL = 0; saturates at 0xFFFF -/
def ROUTER.DROP.TTL : Fld := ⟨.ROUTER, 0x160, 0, 31, 16⟩
/-- ROUTER.DROP.NOROUTE, RC, bits [15:0] (R369): packets without a route (R354); saturates at 0xFFFF -/
def ROUTER.DROP.NOROUTE : Fld := ⟨.ROUTER, 0x160, 0, 15, 0⟩
/-- ROUTER.NTFLOST.LOST, RC, bits [31:0] (R369): arrival increments discarded (R363); saturates at 0xFFFF_FFFF -/
def ROUTER.NTFLOST.LOST : Fld := ⟨.ROUTER, 0x164, 0, 31, 0⟩
/-- ROUTER.OUTST.COUNT, RO, bits [14:0] (R369): transactions awaiting a final answer, 0 to 16,384 (R353) -/
def ROUTER.OUTST.COUNT : Fld := ⟨.ROUTER, 0x168, 0, 14, 0⟩
/-- QE.MODE.SERVICE, RO, bits [0] (R401): service mode (R395) -/
def QE.MODE.SERVICE : Fld := ⟨.QE, 0x100, 0, 0, 0⟩
/-- QE.ADMCNT.ADMIT, RC, bits [31:0] (R401): records admitted; saturates at 0xFFFF_FFFF -/
def QE.ADMCNT.ADMIT : Fld := ⟨.QE, 0x108, 0, 31, 0⟩
/-- QE.FNQ.COUNT, RW, bits [50:32] (R401): queues of the function (R373) -/
def QE.FNQ.COUNT : Fld := ⟨.QE, 0x200, 8, 50, 32⟩
/-- QE.FNQ.BASE, RW, bits [17:0] (R401): first QID -/
def QE.FNQ.BASE : Fld := ⟨.QE, 0x200, 8, 17, 0⟩
/-- QE.FNWEIGHT.WEIGHT, RW, bits [7:0] (R401): admissions per round, 1 to 255 (R388) -/
def QE.FNWEIGHT.WEIGHT : Fld := ⟨.QE, 0x400, 4, 7, 0⟩
/-- FN.QRANGE.RANGE, RO, bits [63:0] (R401): copy of QE.FNQ of this function -/
def FN.QRANGE.RANGE : Fld := ⟨.FN, 0x100, 0, 63, 0⟩
/-- FN.QSEL.INDEX, RW, bits [17:0] (R401): local index of the selected queue -/
def FN.QSEL.INDEX : Fld := ⟨.FN, 0x108, 0, 17, 0⟩
/-- FN.QCTX.WORD, RW, bits [31:0] (R401): bits [32k + 31:32k] of the queue context staged for WRITE_CTX, or read by READ_CTX -/
def FN.QCTX.WORD : Fld := ⟨.FN, 0x110, 4, 31, 0⟩
/-- FN.QCMD.CMD, WO, bits [3:0] (R401): queue command (R390) for the selected queue -/
def FN.QCMD.CMD : Fld := ⟨.FN, 0x130, 0, 3, 0⟩
/-- FN.QCMDSTAT.BUSY, RO, bits [31] (R401): a command is in progress -/
def FN.QCMDSTAT.BUSY : Fld := ⟨.FN, 0x134, 0, 31, 31⟩
/-- FN.QCMDSTAT.STATUS, RO, bits [7:0] (R401): status of the last command -/
def FN.QCMDSTAT.STATUS : Fld := ⟨.FN, 0x134, 0, 7, 0⟩
/-- FN.QSTATE.LATE, RO, bits [31] (R401): late-pending mark (R340) -/
def FN.QSTATE.LATE : Fld := ⟨.FN, 0x138, 0, 31, 31⟩
/-- FN.QSTATE.BOUND, RO, bits [30] (R401): queue bound to a session -/
def FN.QSTATE.BOUND : Fld := ⟨.FN, 0x138, 0, 30, 30⟩
/-- FN.QSTATE.SID, RO, bits [23:8] (R401): bound session -/
def FN.QSTATE.SID : Fld := ⟨.FN, 0x138, 0, 23, 8⟩
/-- FN.QSTATE.STATE, RO, bits [2:0] (R401): 0 DISABLED, 1 ACTIVE, 2 HELD, 3 DRAINING, 4 SUSPENDED -/
def FN.QSTATE.STATE : Fld := ⟨.FN, 0x138, 0, 2, 0⟩
/-- FN.QPTR.SQHEAD, RO, bits [31:16] (R401): next record to be read -/
def FN.QPTR.SQHEAD : Fld := ⟨.FN, 0x13C, 0, 31, 16⟩
/-- FN.QPTR.SQTAIL, RO, bits [15:0] (R401): latest tail accepted -/
def FN.QPTR.SQTAIL : Fld := ⟨.FN, 0x13C, 0, 15, 0⟩
/-- FN.EPOCHLO.COUNT, RO, bits [31:0] (R401): bits [31:0] (LO) and [63:32] (HI) of EPOCH.COUNT -/
def FN.EPOCHLO.COUNT : Fld := ⟨.FN, 0x140, 0, 31, 0⟩
/-- FN.EPOCHHI.COUNT, RO, bits [31:0] (R401): bits [31:0] (LO) and [63:32] (HI) of EPOCH.COUNT -/
def FN.EPOCHHI.COUNT : Fld := ⟨.FN, 0x144, 0, 31, 0⟩
/-- FN.ERRCNT.WRDROP, RC, bits [31:16] (R401): BAR4 writes discarded (R375); saturates at 0xFFFF -/
def FN.ERRCNT.WRDROP : Fld := ⟨.FN, 0x148, 0, 31, 16⟩
/-- FN.ERRCNT.DBDROP, RC, bits [15:0] (R401): doorbells discarded (R382); saturates at 0xFFFF -/
def FN.ERRCNT.DBDROP : Fld := ⟨.FN, 0x148, 0, 15, 0⟩
/-- FWC.STAT.ROMREV, RO, bits [31:24] (R420): ROM revision -/
def FWC.STAT.ROMREV : Fld := ⟨.FWC, 0x100, 0, 31, 24⟩
/-- FWC.STAT.ALLOK, RO, bits [7] (R420): SEC page only: every core's firmware verified; mailboxes leave the first-light restriction -/
def FWC.STAT.ALLOK : Fld := ⟨.FWC, 0x100, 0, 7, 7⟩
/-- FWC.STAT.VERIFIED, RO, bits [6] (R420): this core's patch passed R405 -/
def FWC.STAT.VERIFIED : Fld := ⟨.FWC, 0x100, 0, 6, 6⟩
/-- FWC.STAT.BANK, RO, bits [5] (R420): bank booted: 0 A, 1 B -/
def FWC.STAT.BANK : Fld := ⟨.FWC, 0x100, 0, 5, 5⟩
/-- FWC.STAT.PATCHED, RO, bits [4] (R420): a patch runs -/
def FWC.STAT.PATCHED : Fld := ⟨.FWC, 0x100, 0, 4, 4⟩
/-- FWC.STAT.STATE, RO, bits [3:0] (R420): 0 RESET, 1 ROM, 2 VERIFYING, 3 RUNNING, 4 RESTARTING -/
def FWC.STAT.STATE : Fld := ⟨.FWC, 0x100, 0, 3, 0⟩
/-- FWC.PATCHVER.SVN, RO, bits [31:0] (R420): SVN of the running patch; 0 for ROM alone -/
def FWC.PATCHVER.SVN : Fld := ⟨.FWC, 0x104, 0, 31, 0⟩
/-- FWC.WDT.COUNT, RC, bits [31:16] (R420): watchdog restarts; saturates at 0xFFFF -/
def FWC.WDT.COUNT : Fld := ⟨.FWC, 0x108, 0, 31, 16⟩
/-- FWC.WDT.TMO, RW, bits [15:0] (R420): watchdog period in ms, 1 to 65,535 -/
def FWC.WDT.TMO : Fld := ⟨.FWC, 0x108, 0, 15, 0⟩
/-- FWC.RQTMO.TMO, RW, bits [15:0] (R420): request timeout in units of 100 µs, 1 to 65,535 (R420) -/
def FWC.RQTMO.TMO : Fld := ⟨.FWC, 0x10C, 0, 15, 0⟩
/-- FWC.CHCNT.LATE, RC, bits [31:16] (R420): replies discarded after timeout; saturates at 0xFFFF -/
def FWC.CHCNT.LATE : Fld := ⟨.FWC, 0x110, 0, 31, 16⟩
/-- FWC.CHCNT.DLKREF, RC, bits [15:0] (R420): sends refused by R418; saturates at 0xFFFF -/
def FWC.CHCNT.DLKREF : Fld := ⟨.FWC, 0x110, 0, 15, 0⟩
/-- MBOX.CTL.VECTOR, RW, bits [26:16] (R420): MSI-X vector of the function for the reply interrupt -/
def MBOX.CTL.VECTOR : Fld := ⟨.MBOX, 0x100, 0, 26, 16⟩
/-- MBOX.CTL.IEN, RW, bits [1] (R420): 1: send VECTOR when a reply is ready -/
def MBOX.CTL.IEN : Fld := ⟨.MBOX, 0x100, 0, 1, 1⟩
/-- MBOX.CTL.GO, WO, bits [0] (R420): 1: submit the words written as a request -/
def MBOX.CTL.GO : Fld := ⟨.MBOX, 0x100, 0, 0, 0⟩
/-- MBOX.STAT.REPLY, W1C, bits [1] (R420): a reply is ready -/
def MBOX.STAT.REPLY : Fld := ⟨.MBOX, 0x104, 0, 1, 1⟩
/-- MBOX.STAT.BUSY, RO, bits [0] (R420): a request is in progress -/
def MBOX.STAT.BUSY : Fld := ⟨.MBOX, 0x104, 0, 0, 0⟩
/-- MBOX.WIDX.INDEX, RW, bits [10:0] (R420): word index, 0 to 1,027, into the request (WIDX) or the reply (RIDX) -/
def MBOX.WIDX.INDEX : Fld := ⟨.MBOX, 0x108, 0, 10, 0⟩
/-- MBOX.RIDX.INDEX, RW, bits [10:0] (R420): word index, 0 to 1,027, into the request (WIDX) or the reply (RIDX) -/
def MBOX.RIDX.INDEX : Fld := ⟨.MBOX, 0x110, 0, 10, 0⟩
/-- MBOX.WDATA.DATA, WO, bits [31:0] (R420): writes request word WIDX, then adds 1 to WIDX -/
def MBOX.WDATA.DATA : Fld := ⟨.MBOX, 0x10C, 0, 31, 0⟩
/-- MBOX.RDATA.DATA, RO, bits [31:0] (R420): reply word RIDX -/
def MBOX.RDATA.DATA : Fld := ⟨.MBOX, 0x114, 0, 31, 0⟩
/-- OWNER.DOMAIN of every page, RO, bits [11:8] (R422): sealing domain holding the block; valid when SEALED = 1 -/
def HDR.OWNER.DOMAIN (p : Page) : Fld := ⟨p, 0x80, 0, 11, 8⟩
/-- OWNER.SEALED of every page, RO, bits [2] (R422): block held for a sealing domain -/
def HDR.OWNER.SEALED (p : Page) : Fld := ⟨p, 0x80, 0, 2, 2⟩
/-- OWNER.HOLD of every page, RO, bits [1] (R422): secure-hold: the normal world may not remove power, clock or state -/
def HDR.OWNER.HOLD (p : Page) : Fld := ⟨p, 0x80, 0, 1, 1⟩
/-- OWNER.WORLD of every page, RO, bits [0] (R422): 0 normal, 1 secure -/
def HDR.OWNER.WORLD (p : Page) : Fld := ⟨p, 0x80, 0, 0, 0⟩
/-- SEC.STAT.DOMAINS, RO, bits [31:16] (R448): one bit per existing sealing domain -/
def SEC.STAT.DOMAINS : Fld := ⟨.SEC, 0x100, 0, 31, 16⟩
/-- SEC.STAT.WIPING, RO, bits [1] (R448): a wipe of R425 is in progress -/
def SEC.STAT.WIPING : Fld := ⟨.SEC, 0x100, 0, 1, 1⟩
/-- SEC.STAT.SVC, RO, bits [0] (R448): copy of fuse SVC (R428) -/
def SEC.STAT.SVC : Fld := ⟨.SEC, 0x100, 0, 0, 0⟩
/-- SEC.DENYCNT.POWER, RC, bits [31:16] (R448): refusals by R424; saturates at 0xFFFF -/
def SEC.DENYCNT.POWER : Fld := ⟨.SEC, 0x104, 0, 31, 16⟩
/-- SEC.DENYCNT.WRITE, RC, bits [15:0] (R448): refusals by R423; saturates at 0xFFFF -/
def SEC.DENYCNT.WRITE : Fld := ⟨.SEC, 0x104, 0, 15, 0⟩
/-- SEAL.ARG.ARG, RW, bits [63:0] (R448): command argument (R429) -/
def SEAL.ARG.ARG : Fld := ⟨.SEAL, 0x100, 0, 63, 0⟩
/-- SEAL.CMD.CMD, WO, bits [2:0] (R448): sealing command -/
def SEAL.CMD.CMD : Fld := ⟨.SEAL, 0x108, 0, 2, 0⟩
/-- SEAL.CMDSTAT.BUSY, RO, bits [31] (R448): a command is in progress -/
def SEAL.CMDSTAT.BUSY : Fld := ⟨.SEAL, 0x10C, 0, 31, 31⟩
/-- SEAL.CMDSTAT.INDEX, RO, bits [13:8] (R448): region index from the last REG_CREATE -/
def SEAL.CMDSTAT.INDEX : Fld := ⟨.SEAL, 0x10C, 0, 13, 8⟩
/-- SEAL.CMDSTAT.STATUS, RO, bits [7:0] (R448): status of the last command -/
def SEAL.CMDSTAT.STATUS : Fld := ⟨.SEAL, 0x10C, 0, 7, 0⟩
/-- SEAL.REGION.VALID, RO, bits [127] (R448): region exists -/
def SEAL.REGION.VALID : Fld := ⟨.SEAL, 0x400, 16, 127, 127⟩
/-- SEAL.REGION.FILL, RO, bits [126] (R448): creation or release fill in progress (R292) -/
def SEAL.REGION.FILL : Fld := ⟨.SEAL, 0x400, 16, 126, 126⟩
/-- SEAL.REGION.CTX, RO, bits [125] (R448): context region (R432) -/
def SEAL.REGION.CTX : Fld := ⟨.SEAL, 0x400, 16, 125, 125⟩
/-- SEAL.REGION.DOMAIN, RO, bits [119:116] (R448): owning domain -/
def SEAL.REGION.DOMAIN : Fld := ⟨.SEAL, 0x400, 16, 119, 116⟩
/-- SEAL.REGION.GRAN, RO, bits [82:64] (R448): 2 MiB granules, 1 to 2^18 -/
def SEAL.REGION.GRAN : Fld := ⟨.SEAL, 0x400, 16, 82, 64⟩
/-- SEAL.REGION.BASE, RO, bits [43:21] (R448): base in 2 MiB units -/
def SEAL.REGION.BASE : Fld := ⟨.SEAL, 0x400, 16, 43, 21⟩
/-- SERGE.SLOTCTL.GO, WO, bits [31] (R448): 1: start the job -/
def SERGE.SLOTCTL.GO : Fld := ⟨.SERGE, 0x100, 0, 31, 31⟩
/-- SERGE.SLOTCTL.HLEN, RW, bits [23:16] (R448): digest bytes of e: 32, 48 or 64 -/
def SERGE.SLOTCTL.HLEN : Fld := ⟨.SERGE, 0x100, 0, 23, 16⟩
/-- SERGE.SLOTCTL.CURVE, RW, bits [11:8] (R448): curve slot 0 to 9 -/
def SERGE.SLOTCTL.CURVE : Fld := ⟨.SERGE, 0x100, 0, 11, 8⟩
/-- SERGE.SLOTCTL.OP, RW, bits [2:0] (R448): operation (R444) -/
def SERGE.SLOTCTL.OP : Fld := ⟨.SERGE, 0x100, 0, 2, 0⟩
/-- SERGE.SLOTSTAT.STEP, RO, bits [19:16] (R448): failing step of CURVE_LOAD -/
def SERGE.SLOTSTAT.STEP : Fld := ⟨.SERGE, 0x104, 0, 19, 16⟩
/-- SERGE.SLOTSTAT.STATUS, RO, bits [15:8] (R448): status of the last job -/
def SERGE.SLOTSTAT.STATUS : Fld := ⟨.SERGE, 0x104, 0, 15, 8⟩
/-- SERGE.SLOTSTAT.STATE, RO, bits [1:0] (R448): 0 IDLE, 1 QUEUED, 2 RUNNING, 3 DONE -/
def SERGE.SLOTSTAT.STATE : Fld := ⟨.SERGE, 0x104, 0, 1, 0⟩
/-- HASH.CTX.SRC, RW, bits [127:64] (R448): source address of the job -/
def HASH.CTX.SRC : Fld := ⟨.HASH, 0x200, 32, 127, 64⟩
/-- HASH.CTX.LEN, RW, bits [63:24] (R448): job bytes -/
def HASH.CTX.LEN : Fld := ⟨.HASH, 0x200, 32, 63, 24⟩
/-- HASH.CTX.STATUS, RO, bits [23:16] (R448): status of the last job -/
def HASH.CTX.STATUS : Fld := ⟨.HASH, 0x200, 32, 23, 16⟩
/-- HASH.CTX.BUSY, RO, bits [7] (R448): job queued or running -/
def HASH.CTX.BUSY : Fld := ⟨.HASH, 0x200, 32, 7, 7⟩
/-- HASH.CTX.ABORT, WO, bits [6] (R448): 1: discard the message state -/
def HASH.CTX.ABORT : Fld := ⟨.HASH, 0x200, 32, 6, 6⟩
/-- HASH.CTX.GO, WO, bits [5] (R448): 1: start the job -/
def HASH.CTX.GO : Fld := ⟨.HASH, 0x200, 32, 5, 5⟩
/-- HASH.CTX.FINAL, RW, bits [4] (R448): pad and write the digest at the end of the job -/
def HASH.CTX.FINAL : Fld := ⟨.HASH, 0x200, 32, 4, 4⟩
/-- HASH.CTX.INIT, RW, bits [3] (R448): start a new message -/
def HASH.CTX.INIT : Fld := ⟨.HASH, 0x200, 32, 3, 3⟩
/-- HASH.CTX.ALG, RW, bits [1:0] (R448): 0 SHA-256, 1 SHA-384, 2 SHA3-256, 3 SHA3-384 -/
def HASH.CTX.ALG : Fld := ⟨.HASH, 0x200, 32, 1, 0⟩
/-- PWR.STATE.MODULE, RO, bits [18:16] (R471): 0 ACTIVE, 1 IDLE, 2 DOZE, 3 SLUMBER -/
def PWR.STATE.MODULE : Fld := ⟨.PWR, 0x100, 0, 18, 16⟩
/-- PWR.STATE.CLUSTER, RO, bits [15:0] (R471): 2 bits per cluster, C0 in [1:0]: 0 ACTIVE, 1 IDLE, 2 DOZE, 3 powered down by EMERG -/
def PWR.STATE.CLUSTER : Fld := ⟨.PWR, 0x100, 0, 15, 0⟩
/-- PWR.REQ.CLMASK, WO, bits [15:8] (R471): clusters named -/
def PWR.REQ.CLMASK : Fld := ⟨.PWR, 0x104, 0, 15, 8⟩
/-- PWR.REQ.TARGET, WO, bits [2:0] (R471): 0 ACTIVE, 1 IDLE, 2 DOZE, 3 SLUMBER; others reserved -/
def PWR.REQ.TARGET : Fld := ⟨.PWR, 0x104, 0, 2, 0⟩
/-- PWR.REQSTAT.BUSY, RO, bits [31] (R471): a transition is in progress -/
def PWR.REQSTAT.BUSY : Fld := ⟨.PWR, 0x108, 0, 31, 31⟩
/-- PWR.REQSTAT.STATUS, RO, bits [7:0] (R471): status of the last request (R458) -/
def PWR.REQSTAT.STATUS : Fld := ⟨.PWR, 0x108, 0, 7, 0⟩
/-- PWR.CAP.BRAKECAP, RW, bits [31:16] (R471): brake power limit in W, 400 to 1,900 -/
def PWR.CAP.BRAKECAP : Fld := ⟨.PWR, 0x10C, 0, 31, 16⟩
/-- PWR.CAP.CAP, RW, bits [15:0] (R471): cap in W, 400 to 1,900 -/
def PWR.CAP.CAP : Fld := ⟨.PWR, 0x10C, 0, 15, 0⟩
/-- PWR.CAPCTL.ALERT, RO, bits [31] (R471): set by the PMC after 64 groups at s = 15 with the cap exceeded -/
def PWR.CAPCTL.ALERT : Fld := ⟨.PWR, 0x110, 0, 31, 31⟩
/-- PWR.CAPCTL.SKIP, RO, bits [27:24] (R471): current s (R459) -/
def PWR.CAPCTL.SKIP : Fld := ⟨.PWR, 0x110, 0, 27, 24⟩
/-- PWR.CAPCTL.DOZETMO, RW, bits [23:16] (R471): idle epochs before DOZE, in units of 256; 0: never -/
def PWR.CAPCTL.DOZETMO : Fld := ⟨.PWR, 0x110, 0, 23, 16⟩
/-- PWR.CAPCTL.HYST, RW, bits [15:0] (R471): hysteresis in W -/
def PWR.CAPCTL.HYST : Fld := ⟨.PWR, 0x110, 0, 15, 0⟩
/-- PWR.MEAS.BRAKE, RC, bits [31:16] (R471): brake assertions (R463); saturates at 0xFFFF -/
def PWR.MEAS.BRAKE : Fld := ⟨.PWR, 0x114, 0, 31, 16⟩
/-- PWR.MEAS.POWER, RO, bits [15:0] (R471): module power in the last wall epoch, in W -/
def PWR.MEAS.POWER : Fld := ⟨.PWR, 0x114, 0, 15, 0⟩
/-- PWR.DVFS.CUR, RO, bits [10:8] (R471): operating point in effect -/
def PWR.DVFS.CUR : Fld := ⟨.PWR, 0x200, 4, 10, 8⟩
/-- PWR.DVFS.TARGET, RW, bits [2:0] (R471): requested operating point (R453) -/
def PWR.DVFS.TARGET : Fld := ⟨.PWR, 0x200, 4, 2, 0⟩
/-- GLM.STAT.TRIP, RO, bits [31] (R471): R464 or CUT has acted since POR -/
def GLM.STAT.TRIP : Fld := ⟨.GLM, 0x100, 0, 31, 31⟩
/-- GLM.STAT.SCANS, RO, bits [23:8] (R471): scans completed, modulo 2^16 -/
def GLM.STAT.SCANS : Fld := ⟨.GLM, 0x100, 0, 23, 8⟩
/-- GLM.STAT.STATE, RO, bits [3:0] (R471): current state -/
def GLM.STAT.STATE : Fld := ⟨.GLM, 0x100, 0, 3, 0⟩
/-- GLM.EVENT.EV, WO, bits [0] (R471): 1: event 4 in the next scan; written by the PMC -/
def GLM.EVENT.EV : Fld := ⟨.GLM, 0x104, 0, 0, 0⟩
/-- GLM.SENSOR.VALUE, RO, bits [15:0] (R471): reading (R465) or channel value (R466) of the last scan -/
def GLM.SENSOR.VALUE : Fld := ⟨.GLM, 0x200, 4, 15, 0⟩
/-- GLM.CHAN.VALUE, RO, bits [15:0] (R471): reading (R465) or channel value (R466) of the last scan -/
def GLM.CHAN.VALUE : Fld := ⟨.GLM, 0x400, 4, 15, 0⟩
/-- ERRSYS.CNT.COUNT, RC, bits [31:0] (R492): errors of class k module-wide; saturates at 0xFFFF_FFFF -/
def ERRSYS.CNT.COUNT : Fld := ⟨.ERRSYS, 0x100, 4, 31, 0⟩
/-- ERRSYS.STATE.FATAL, RO, bits [31] (R492): fatal state (R484) -/
def ERRSYS.STATE.FATAL : Fld := ⟨.ERRSYS, 0x120, 0, 31, 31⟩
/-- ERRSYS.STATE.CAUSE, RO, bits [15:8] (R492): 1 SEC, 2 PMC, 3 hash KAT, 4 Serge KAT, 5 XTS KAT; 0 none -/
def ERRSYS.STATE.CAUSE : Fld := ⟨.ERRSYS, 0x120, 0, 15, 8⟩
/-- ERRSYS.STATE.RETIRED, RO, bits [7:0] (R492): one bit per retired cluster (R483) -/
def ERRSYS.STATE.RETIRED : Fld := ⟨.ERRSYS, 0x120, 0, 7, 0⟩
/-- ERRSYS.CECFG.CETHR, RW, bits [23:16] (R492): corrected errors per row per patrol period, 1 to 255 (R481) -/
def ERRSYS.CECFG.CETHR : Fld := ⟨.ERRSYS, 0x124, 0, 23, 16⟩
/-- ERRSYS.CECFG.PATROL, RW, bits [15:0] (R492): patrol period in hours, 1 to 65,535 (R480) -/
def ERRSYS.CECFG.PATROL : Fld := ⟨.ERRSYS, 0x124, 0, 15, 0⟩
/-- ERRSYS.STREQ.TEST, WO, bits [31:28] (R492): test of R487; a write of 1 to 5 starts it -/
def ERRSYS.STREQ.TEST : Fld := ⟨.ERRSYS, 0x128, 0, 31, 28⟩
/-- ERRSYS.STREQ.TARGET, RW, bits [23:0] (R492): target of the test -/
def ERRSYS.STREQ.TARGET : Fld := ⟨.ERRSYS, 0x128, 0, 23, 0⟩
/-- ERRSYS.STSTAT.BUSY, RO, bits [31] (R492): a test runs -/
def ERRSYS.STSTAT.BUSY : Fld := ⟨.ERRSYS, 0x12C, 0, 31, 31⟩
/-- ERRSYS.STSTAT.TEST, RO, bits [30:27] (R492): last test started -/
def ERRSYS.STSTAT.TEST : Fld := ⟨.ERRSYS, 0x12C, 0, 30, 27⟩
/-- ERRSYS.STSTAT.FAIL, RO, bits [23:0] (R492): one bit per failing target, in TARGET order -/
def ERRSYS.STSTAT.FAIL : Fld := ⟨.ERRSYS, 0x12C, 0, 23, 0⟩
/-- ERRSYS.STSTATUS.STATUS, RO, bits [7:0] (R492): status of the last test request -/
def ERRSYS.STSTATUS.STATUS : Fld := ⟨.ERRSYS, 0x130, 0, 7, 0⟩
/-- BLK_ID.TYPE of every page, RO, bits [31:16] (R497): page type (table below) -/
def HDR.BLK_ID.TYPE (p : Page) : Fld := ⟨p, 0x0, 0, 31, 16⟩
/-- BLK_ID.INSTANCE of every page, RO, bits [15:0] (R497): tile, cluster, stack, group, link, function, core k or slot number; 0 for a single page -/
def HDR.BLK_ID.INSTANCE (p : Page) : Fld := ⟨p, 0x0, 0, 15, 0⟩
/-- BLK_VER.MAJOR of every page, RO, bits [31:24] (R497): page layout major version -/
def HDR.BLK_VER.MAJOR (p : Page) : Fld := ⟨p, 0x4, 0, 31, 24⟩
/-- BLK_VER.MINOR of every page, RO, bits [23:16] (R497): page layout minor version -/
def HDR.BLK_VER.MINOR (p : Page) : Fld := ⟨p, 0x4, 0, 23, 16⟩
/-- BLK_CAP.PRESENT of every page, RO, bits [31] (R498): the instance exists and is usable -/
def HDR.BLK_CAP.PRESENT (p : Page) : Fld := ⟨p, 0x8, 0, 31, 31⟩
/-- BLK_CAP.RETIRED of every page, RO, bits [30] (R498): CLUSTER and TILE pages: the cluster is retired (R483) -/
def HDR.BLK_CAP.RETIRED (p : Page) : Fld := ⟨p, 0x8, 0, 30, 30⟩
/-- BLK_CTRL.TEST of every page, RW, bits [2] (R498): TILE, CLUSTER: manufacturing test mode; reads 0 elsewhere -/
def HDR.BLK_CTRL.TEST (p : Page) : Fld := ⟨p, 0xC, 0, 2, 2⟩
/-- BLK_CTRL.SRST of every page, WO, bits [1] (R498): TILE: soft reset; on any other page a write of 1 is discarded and logged (R499) -/
def HDR.BLK_CTRL.SRST (p : Page) : Fld := ⟨p, 0xC, 0, 1, 1⟩
/-- BLK_CTRL.EN of every page, RW, bits [0] (R498): TILE, CLUSTER: block enabled; reads 1 elsewhere -/
def HDR.BLK_CTRL.EN (p : Page) : Fld := ⟨p, 0xC, 0, 0, 0⟩
/-- BLK_STAT.BUSY of every page, RO, bits [4] (R498): soft reset, test entry or exit in progress; for other pages, work accepted and not finished -/
def HDR.BLK_STAT.BUSY (p : Page) : Fld := ⟨p, 0x10, 0, 4, 4⟩
/-- BLK_STAT.STATE of every page, RO, bits [3:0] (R498): 0 RESET, 1 READY, 2 DISABLED, 3 TEST, 4 FAILED, 5 OFF; others reserved -/
def HDR.BLK_STAT.STATE (p : Page) : Fld := ⟨p, 0x10, 0, 3, 0⟩
/-- ERR_CNT.COUNT of every page, RC, bits [31:0] (R501): errors logged in this page (R475); saturates at 0xFFFF_FFFF -/
def HDR.ERR_CNT.COUNT (p : Page) : Fld := ⟨p, 0x60, 0, 31, 0⟩
/-- CHIP.IDENT.PART, RO, bits [63:48] (R503): part number -/
def CHIP.IDENT.PART : Fld := ⟨.CHIP, 0x100, 0, 63, 48⟩
/-- CHIP.IDENT.REVL, RO, bits [47:44] (R503): revision letter: 0 A, 1 B, and so on -/
def CHIP.IDENT.REVL : Fld := ⟨.CHIP, 0x100, 0, 47, 44⟩
/-- CHIP.IDENT.REVD, RO, bits [43:40] (R503): revision digit -/
def CHIP.IDENT.REVD : Fld := ⟨.CHIP, 0x100, 0, 43, 40⟩
/-- CHIP.IDENT.SERIAL, RO, bits [31:0] (R503): serial number, unique per part -/
def CHIP.IDENT.SERIAL : Fld := ⟨.CHIP, 0x100, 0, 31, 0⟩
/-- CHIP.IRQSUM.SUM, RO, bits [14:0] (R503): bit b: a page of group b of the interrupt delivery table interrupts -/
def CHIP.IRQSUM.SUM : Fld := ⟨.CHIP, 0x110, 0, 14, 0⟩
/-- CHIP.IRQCTL.VECTOR, RW, bits [26:16] (R503): PF MSI-X vector -/
def CHIP.IRQCTL.VECTOR : Fld := ⟨.CHIP, 0x114, 0, 26, 16⟩
/-- CHIP.IRQCTL.IEN, RW, bits [0] (R503): 1: send VECTOR when SUM changes from zero to nonzero -/
def CHIP.IRQCTL.IEN : Fld := ⟨.CHIP, 0x114, 0, 0, 0⟩
/-- CHIP.SCRATCH.DATA, RW, bits [31:0] (R503): software use; no device effect -/
def CHIP.SCRATCH.DATA : Fld := ⟨.CHIP, 0x120, 4, 31, 0⟩
/-- CHIP.CFGHASH.HASH, RO, bits [255:0] (R503): configuration hash (R220) of the configuration record in effect; byte order of FIPS 180-4, byte 0 at 0x140 -/
def CHIP.CFGHASH.HASH : Fld := ⟨.CHIP, 0x140, 0, 255, 0⟩
/-- RESET.CAUSE.FATALREC, W1C, bits [5] (R504): a fatal record from before the last reset was written to the life log -/
def RESET.CAUSE.FATALREC : Fld := ⟨.RESET, 0x100, 0, 5, 5⟩
/-- RESET.CAUSE.TRIPPED, W1C, bits [4] (R504): the last POR followed a trip or CUT (R464, R469) -/
def RESET.CAUSE.TRIPPED : Fld := ⟨.RESET, 0x100, 0, 4, 4⟩
/-- RESET.CAUSE.PERST, W1C, bits [3] (R504): PERST_N was asserted -/
def RESET.CAUSE.PERST : Fld := ⟨.RESET, 0x100, 0, 3, 3⟩
/-- RESET.CAUSE.SWRST, W1C, bits [2] (R504): RESET.SWRST acted -/
def RESET.CAUSE.SWRST : Fld := ⟨.RESET, 0x100, 0, 2, 2⟩
/-- RESET.CAUSE.WARM, W1C, bits [1] (R504): WARM_RST_N was asserted -/
def RESET.CAUSE.WARM : Fld := ⟨.RESET, 0x100, 0, 1, 1⟩
/-- RESET.CAUSE.POR, W1C, bits [0] (R504): power-on reset -/
def RESET.CAUSE.POR : Fld := ⟨.RESET, 0x100, 0, 0, 0⟩
/-- RESET.SWRST.KEY, WO, bits [31:16] (R504): must be 0x5752 -/
def RESET.SWRST.KEY : Fld := ⟨.RESET, 0x104, 0, 31, 16⟩
/-- RESET.SWRST.GO, WO, bits [0] (R504): 1 with the key: reset the module as WARM_RST_N does -/
def RESET.SWRST.GO : Fld := ⟨.RESET, 0x104, 0, 0, 0⟩
/-- RESET.BOOT.READY, RO, bits [31] (R505): the module has declared itself ready and left the first-light window -/
def RESET.BOOT.READY : Fld := ⟨.RESET, 0x108, 0, 31, 31⟩
/-- RESET.BOOT.STAGE, RO, bits [7:0] (R505): 0x00 VAON up; 0x10 straps sampled; 0x20 SEC ROM running; 0x30 firmware verification; 0x40 memory training; 0x50 link training; 0x60 firmware running; 0xF0 ready; 0xFE boot failed -/
def RESET.BOOT.STAGE : Fld := ⟨.RESET, 0x108, 0, 7, 0⟩
/-- RESET.UPTIME.US, RO, bits [63:0] (R505): microseconds since the last release of POR_N, WARM_RST_N or SWRST -/
def RESET.UPTIME.US : Fld := ⟨.RESET, 0x110, 0, 63, 0⟩
/-- STRAP.VAL.RSVD, RO, bits [6] (R506): the board must strap 0; a 1 is logged in the STRAP page with status RANGE and otherwise ignored -/
def STRAP.VAL.RSVD : Fld := ⟨.STRAP, 0x100, 0, 6, 6⟩
/-- STRAP.VAL.RECOVERY, RO, bits [5] (R506): 1: recovery boot (R507) -/
def STRAP.VAL.RECOVERY : Fld := ⟨.STRAP, 0x100, 0, 5, 5⟩
/-- STRAP.VAL.MADDR, RO, bits [4:2] (R506): SMBus or I3C static address 0x58 + MADDR, 7 bits -/
def STRAP.VAL.MADDR : Fld := ⟨.STRAP, 0x100, 0, 4, 2⟩
/-- STRAP.VAL.MGMT, RO, bits [1:0] (R506): management bus: 0 SMBus, 1 I3C Basic, 2 none (PCIe VDM only), 3 reserved, treated as 2 and logged with status RANGE -/
def STRAP.VAL.MGMT : Fld := ⟨.STRAP, 0x100, 0, 1, 0⟩
/-- STRAP.PINS.LEVEL, RO, bits [6:0] (R506): present levels, bit order of STRAP.VAL -/
def STRAP.PINS.LEVEL : Fld := ⟨.STRAP, 0x104, 0, 6, 0⟩
/-- LIFE.CTL.SNAP, RW, bits [1] (R507): 1: hold the bank read by DATA (R508) -/
def LIFE.CTL.SNAP : Fld := ⟨.LIFE, 0x100, 0, 1, 1⟩
/-- LIFE.CTL.REQ, WO, bits [0] (R507): 1: request a bank write with REASON 3 -/
def LIFE.CTL.REQ : Fld := ⟨.LIFE, 0x100, 0, 0, 0⟩
/-- LIFE.STAT.BUSY, RO, bits [31] (R507): a bank write is in progress -/
def LIFE.STAT.BUSY : Fld := ⟨.LIFE, 0x104, 0, 31, 31⟩
/-- LIFE.STAT.VALID, RO, bits [30] (R507): a valid bank exists -/
def LIFE.STAT.VALID : Fld := ⟨.LIFE, 0x104, 0, 30, 30⟩
/-- LIFE.STAT.BANK, RO, bits [29] (R507): bank read by DATA: the snapshot bank, or the newest valid bank -/
def LIFE.STAT.BANK : Fld := ⟨.LIFE, 0x104, 0, 29, 29⟩
/-- LIFE.STAT.LOST, W1C, bits [28] (R507): a snapshot was released before SNAP was written 0 -/
def LIFE.STAT.LOST : Fld := ⟨.LIFE, 0x104, 0, 28, 28⟩
/-- LIFE.STAT.STATUS, RO, bits [7:0] (R507): status of the last REQ -/
def LIFE.STAT.STATUS : Fld := ⟨.LIFE, 0x104, 0, 7, 0⟩
/-- LIFE.GEN.GEN, RO, bits [63:0] (R507): GEN of the bank that BANK names -/
def LIFE.GEN.GEN : Fld := ⟨.LIFE, 0x108, 0, 63, 0⟩
/-- LIFE.IDX.INDEX, RW, bits [16:0] (R507): 32-bit word of the bank, 0 to 131,071 -/
def LIFE.IDX.INDEX : Fld := ⟨.LIFE, 0x110, 0, 16, 0⟩
/-- LIFE.DATA.DATA, RO, bits [31:0] (R507): word INDEX of the bank; each read adds 1 to INDEX, wrapping to 0 -/
def LIFE.DATA.DATA : Fld := ⟨.LIFE, 0x114, 0, 31, 0⟩
/-- PWIN.VALID, RW, bits [127] (R360): window in use -/
def PWIN.VALID : Fld := ⟨.PWIN, 0x0, 16, 127, 127⟩
/-- PWIN.SECURE, RW, bits [126] (R360): window held by the secure world -/
def PWIN.SECURE : Fld := ⟨.PWIN, 0x0, 16, 126, 126⟩
/-- PWIN.R, RW, bits [125] (R360): RD allowed -/
def PWIN.R : Fld := ⟨.PWIN, 0x0, 16, 125, 125⟩
/-- PWIN.W, RW, bits [124] (R360): WR allowed -/
def PWIN.W : Fld := ⟨.PWIN, 0x0, 16, 124, 124⟩
/-- PWIN.A, RW, bits [123] (R360): ATOM allowed -/
def PWIN.A : Fld := ⟨.PWIN, 0x0, 16, 123, 123⟩
/-- PWIN.NTF, RW, bits [122] (R360): arrival counting (R363) -/
def PWIN.NTF : Fld := ⟨.PWIN, 0x0, 16, 122, 122⟩
/-- PWIN.NTILE, RW, bits [121:116] (R360): tile whose counter is incremented -/
def PWIN.NTILE : Fld := ⟨.PWIN, 0x0, 16, 121, 116⟩
/-- PWIN.NCTR, RW, bits [115:112] (R360): counter 0–15 -/
def PWIN.NCTR : Fld := ⟨.PWIN, 0x0, 16, 115, 112⟩
/-- PWIN.SRCHI, RW, bits [111:96] (R360): highest source device ID admitted -/
def PWIN.SRCHI : Fld := ⟨.PWIN, 0x0, 16, 111, 96⟩
/-- PWIN.SRCLO, RW, bits [95:80] (R360): lowest source device ID admitted -/
def PWIN.SRCLO : Fld := ⟨.PWIN, 0x0, 16, 95, 80⟩
/-- PWIN.BASE, RW, bits [79:48] (R360): bits [43:12] of the first local address -/
def PWIN.BASE : Fld := ⟨.PWIN, 0x0, 16, 79, 48⟩
/-- PWIN.SIZE, RW, bits [47:20] (R360): 4 KiB granules, 1 to 2^28 − 1 -/
def PWIN.SIZE : Fld := ⟨.PWIN, 0x0, 16, 47, 20⟩
/-- MCAST.VALID, RW, bits [63] (R365): group in use -/
def MCAST.VALID : Fld := ⟨.MCAST, 0x0, 8, 63, 63⟩
/-- MCAST.LOCAL, RW, bits [62] (R365): deliver a copy to this module -/
def MCAST.LOCAL : Fld := ⟨.MCAST, 0x0, 8, 62, 62⟩
/-- MCAST.MEMBERS, RW, bits [55:40] (R365): destination modules of the group; used at the initiator -/
def MCAST.MEMBERS : Fld := ⟨.MCAST, 0x0, 8, 55, 40⟩
/-- MCAST.LINKMASK, RW, bits [23:0] (R365): links that receive a copy -/
def MCAST.LINKMASK : Fld := ⟨.MCAST, 0x0, 8, 23, 0⟩
/-- ROUTE.VALID, RW, bits [31] (R354): entry in use -/
def ROUTE.VALID : Fld := ⟨.ROUTE, 0x0, 4, 31, 31⟩
/-- ROUTE.BOND, RW, bits [30] (R354): 1: PRI names a bond group; 0: a link -/
def ROUTE.BOND : Fld := ⟨.ROUTE, 0x0, 4, 30, 30⟩
/-- ROUTE.PRI, RW, bits [29:25] (R354): link 0–23, or bond group 0–11 -/
def ROUTE.PRI : Fld := ⟨.ROUTE, 0x0, 4, 29, 25⟩
/-- ROUTE.ALTV, RW, bits [24] (R354): ALT is valid -/
def ROUTE.ALTV : Fld := ⟨.ROUTE, 0x0, 4, 24, 24⟩
/-- ROUTE.ALT, RW, bits [23:19] (R354): link used while PRI has no link UP -/
def ROUTE.ALT : Fld := ⟨.ROUTE, 0x0, 4, 23, 19⟩
/-- ROUTE.DL, RW, bits [18] (R354): dateline: the packet leaves in class 1 -/
def ROUTE.DL : Fld := ⟨.ROUTE, 0x0, 4, 18, 18⟩
/-- HWMAP.VALID, RW, bits [127] (R376): aperture mapped -/
def HWMAP.VALID : Fld := ⟨.HWMAP, 0x0, 16, 127, 127⟩
/-- HWMAP.W, RW, bits [126] (R376): device writes allowed -/
def HWMAP.W : Fld := ⟨.HWMAP, 0x0, 16, 126, 126⟩
/-- HWMAP.FUNC, RW, bits [125:120] (R376): function, 0 = PF, 1 to 63 = VF -/
def HWMAP.FUNC : Fld := ⟨.HWMAP, 0x0, 16, 125, 120⟩
/-- HWMAP.HBASE, RW, bits [63:12] (R376): bits [63:12] of the host bus address -/
def HWMAP.HBASE : Fld := ⟨.HWMAP, 0x0, 16, 63, 12⟩
/-- BAR4MAP.VALID, RW, bits [127] (R374): segment mapped -/
def BAR4MAP.VALID : Fld := ⟨.BAR4MAP, 0x0, 16, 127, 127⟩
/-- BAR4MAP.W, RW, bits [126] (R374): writes allowed -/
def BAR4MAP.W : Fld := ⟨.BAR4MAP, 0x0, 16, 126, 126⟩
/-- BAR4MAP.TARGET, RW, bits [125:124] (R374): 0 near or far tier; 1 tile scratchpad; 2, 3 reserved -/
def BAR4MAP.TARGET : Fld := ⟨.BAR4MAP, 0x0, 16, 125, 124⟩
/-- BAR4MAP.BASE, RW, bits [43:0] (R374): device-local address of the segment's first byte -/
def BAR4MAP.BASE : Fld := ⟨.BAR4MAP, 0x0, 16, 43, 0⟩
/-- GLM.FILT.VALID, RO, bits [63] (R466): channel in use; invalid channels read 0 -/
def GLM.FILT.VALID : Fld := ⟨.GLM, 0x800, 8, 63, 63⟩
/-- GLM.FILT.AGG, RO, bits [62:61] (R466): input selection -/
def GLM.FILT.AGG : Fld := ⟨.GLM, 0x800, 8, 62, 61⟩
/-- GLM.FILT.LO, RO, bits [60:54] (R466): first sensor -/
def GLM.FILT.LO : Fld := ⟨.GLM, 0x800, 8, 60, 54⟩
/-- GLM.FILT.HI, RO, bits [53:47] (R466): last sensor, used when AGG ≠ 0 -/
def GLM.FILT.HI : Fld := ⟨.GLM, 0x800, 8, 53, 47⟩
/-- GLM.FILT.STAGE0, RO, bits [46:41] (R466): first stage -/
def GLM.FILT.STAGE0 : Fld := ⟨.GLM, 0x800, 8, 46, 41⟩
/-- GLM.FILT.STAGE1, RO, bits [40:35] (R466): second stage -/
def GLM.FILT.STAGE1 : Fld := ⟨.GLM, 0x800, 8, 40, 35⟩
/-- GLM.FILT.STAGE2, RO, bits [34:29] (R466): third stage -/
def GLM.FILT.STAGE2 : Fld := ⟨.GLM, 0x800, 8, 34, 29⟩
/-- GLM.TRANS.VALID, RO, bits [63] (R468): transition in use -/
def GLM.TRANS.VALID : Fld := ⟨.GLM, 0xA00, 8, 63, 63⟩
/-- GLM.TRANS.FROM, RO, bits [62:59] (R468): state it leaves -/
def GLM.TRANS.FROM : Fld := ⟨.GLM, 0xA00, 8, 62, 59⟩
/-- GLM.TRANS.TO, RO, bits [58:55] (R468): state it enters; must be a VALID state -/
def GLM.TRANS.TO : Fld := ⟨.GLM, 0xA00, 8, 58, 55⟩
/-- GLM.TRANS.CHAN, RO, bits [54:49] (R468): channel tested -/
def GLM.TRANS.CHAN : Fld := ⟨.GLM, 0xA00, 8, 54, 49⟩
/-- GLM.TRANS.OP, RO, bits [48:46] (R468): 0 >, 1 ≥, 2 <, 3 ≤, 4 EVENT; 5–7 reserved -/
def GLM.TRANS.OP : Fld := ⟨.GLM, 0xA00, 8, 48, 46⟩
/-- GLM.TRANS.CURV, RO, bits [45] (R468): 1: threshold is curve CURVE at channel XCHAN -/
def GLM.TRANS.CURV : Fld := ⟨.GLM, 0xA00, 8, 45, 45⟩
/-- GLM.TRANS.CURVE, RO, bits [44:42] (R468): curve 0–7 -/
def GLM.TRANS.CURVE : Fld := ⟨.GLM, 0xA00, 8, 44, 42⟩
/-- GLM.TRANS.XCHAN, RO, bits [41:36] (R468): channel fed to the curve -/
def GLM.TRANS.XCHAN : Fld := ⟨.GLM, 0xA00, 8, 41, 36⟩
/-- GLM.TRANS.THRESH, RO, bits [35:20] (R468): signed threshold; for EVENT, [23:20] the event: 0 host link wake, 1 management bus address match, 2 PWR_BRAKE_N asserted, 3 PWR_BRAKE_N released, 4 GLM.EVENT written; others reserved -/
def GLM.TRANS.THRESH : Fld := ⟨.GLM, 0xA00, 8, 35, 20⟩
/-- GLM.TRANS.HOLD, RO, bits [19:12] (R468): consecutive scans, 1–255; 0 acts as 1 -/
def GLM.TRANS.HOLD : Fld := ⟨.GLM, 0xA00, 8, 19, 12⟩
/-- GLM.TRANS.ACT, RO, bits [3:0] (R468): [0] WAKE, [1] LOG, [2] EMERG, [3] CUT -/
def GLM.TRANS.ACT : Fld := ⟨.GLM, 0xA00, 8, 3, 0⟩
/-- GLM.SOUT.VALID, RO, bits [31] (R468): state in use; state 0 must be valid -/
def GLM.SOUT.VALID : Fld := ⟨.GLM, 0xC00, 4, 31, 31⟩
/-- GLM.SOUT.THERM, RO, bits [30] (R468): THERM_N asserted while in the state -/
def GLM.SOUT.THERM : Fld := ⟨.GLM, 0xC00, 4, 30, 30⟩
/-- GLM.SOUT.ALERT, RO, bits [29] (R468): ALERT_N asserted while in the state -/
def GLM.SOUT.ALERT : Fld := ⟨.GLM, 0xC00, 4, 29, 29⟩
/-- GLM.SOUT.BRAKE, RO, bits [28] (R468): brake applied (R463) -/
def GLM.SOUT.BRAKE : Fld := ⟨.GLM, 0xC00, 4, 28, 28⟩
/-- GLM.SOUT.CAPPCT, RO, bits [27:20] (R468): cap as a percentage of 1,900 W, 1–100; 0: none; above 100 fails verification -/
def GLM.SOUT.CAPPCT : Fld := ⟨.GLM, 0xC00, 4, 27, 20⟩
/-- GLM.CURVE.Y, RO, bits [31:16] (R467): point y, signed; CURVE[k][p] is entry 16k + p -/
def GLM.CURVE.Y : Fld := ⟨.GLM, 0xD00, 4, 31, 16⟩
/-- GLM.CURVE.X, RO, bits [15:0] (R467): point x, signed -/
def GLM.CURVE.X : Fld := ⟨.GLM, 0xD00, 4, 15, 0⟩
/-- ERR_LOG.DETAIL of every page, RO, bits [255:192] (R474): by status and source, as in the detail table below -/
def HDR.ERR_LOG.DETAIL (p : Page) : Fld := ⟨p, 0x40, 0, 255, 192⟩
/-- ERR_LOG.ADDR of every page, RO, bits [191:132] (R474): global address (R14) of the line concerned, bits [5:0] zero; or as the detail table states; 0 when none -/
def HDR.ERR_LOG.ADDR (p : Page) : Fld := ⟨p, 0x40, 0, 191, 132⟩
/-- ERR_LOG.EPOCH of every page, RO, bits [127:64] (R474): EPOCH.COUNT when the error was logged -/
def HDR.ERR_LOG.EPOCH (p : Page) : Fld := ⟨p, 0x40, 0, 127, 64⟩
/-- ERR_LOG.QID of every page, RO, bits [63:46] (R474): queue of the record concerned; valid when QV = 1 -/
def HDR.ERR_LOG.QID (p : Page) : Fld := ⟨p, 0x40, 0, 63, 46⟩
/-- ERR_LOG.RIDX of every page, RO, bits [45:30] (R474): ring index of that record, modulo 2^16; valid when QV = 1 -/
def HDR.ERR_LOG.RIDX (p : Page) : Fld := ⟨p, 0x40, 0, 45, 30⟩
/-- ERR_LOG.SRC of every page, RO, bits [29:24] (R474): tile pages: UNIT of R196. Memory controller pages: 0 read, 1 write, 2 patrol, 3 fill. Other pages: 0 -/
def HDR.ERR_LOG.SRC (p : Page) : Fld := ⟨p, 0x40, 0, 29, 24⟩
/-- ERR_LOG.OVF of every page, RO, bits [23] (R474): an error was counted in ERR_CNT and not written to this record -/
def HDR.ERR_LOG.OVF (p : Page) : Fld := ⟨p, 0x40, 0, 23, 23⟩
/-- ERR_LOG.QV of every page, RO, bits [22] (R474): QID and RIDX are valid -/
def HDR.ERR_LOG.QV (p : Page) : Fld := ⟨p, 0x40, 0, 22, 22⟩
/-- ERR_LOG.CLASS of every page, RO, bits [21:19] (R474): class of R473; 0: no record -/
def HDR.ERR_LOG.CLASS (p : Page) : Fld := ⟨p, 0x40, 0, 21, 19⟩
/-- ERR_LOG.STATUS of every page, RO, bits [7:0] (R474): status of R15 -/
def HDR.ERR_LOG.STATUS (p : Page) : Fld := ⟨p, 0x40, 0, 7, 0⟩
/-- SERGE.OPND.DATA, RW, bits [31:0] (R444): operand bytes: operand i at 0x200 + 0x50 i, 80 bytes -/
def SERGE.OPND.DATA : Fld := ⟨.SERGE, 0x200, 4, 31, 0⟩
/-- HASH.DIGEST.DATA, RO, bits [31:0] (R449): digest bytes: context c at 0x400 + 64 c -/
def HASH.DIGEST.DATA : Fld := ⟨.HASH, 0x400, 4, 31, 0⟩
/-- MSIXPF.MASKED, RW, bits [96] (R372): vector masked -/
def MSIXPF.MASKED : Fld := ⟨.MSIXPF, 0x0, 16, 96, 96⟩
/-- MSIXPF.DATA, RW, bits [95:64] (R372): message data -/
def MSIXPF.DATA : Fld := ⟨.MSIXPF, 0x0, 16, 95, 64⟩
/-- MSIXPF.ADDR, RW, bits [63:0] (R372): message address -/
def MSIXPF.ADDR : Fld := ⟨.MSIXPF, 0x0, 16, 63, 0⟩
/-- PBAPF.PENDING, RO, bits [31:0] (R372): pending bits -/
def PBAPF.PENDING : Fld := ⟨.PBAPF, 0x0, 4, 31, 0⟩
/-- MSIX.MASKED, RW, bits [96] (R372): vector masked -/
def MSIX.MASKED : Fld := ⟨.MSIX, 0x0, 16, 96, 96⟩
/-- MSIX.DATA, RW, bits [95:64] (R372): message data -/
def MSIX.DATA : Fld := ⟨.MSIX, 0x0, 16, 95, 64⟩
/-- MSIX.ADDR, RW, bits [63:0] (R372): message address -/
def MSIX.ADDR : Fld := ⟨.MSIX, 0x0, 16, 63, 0⟩
/-- PBA.PENDING, RO, bits [31:0] (R372): pending bits -/
def PBA.PENDING : Fld := ⟨.PBA, 0x0, 4, 31, 0⟩

/-- IRQ_RAW, IRQ_EN, IRQ_SET, IRQ_STAT of every page (table "Common page header"). -/
def HDR.IRQ_RAW (p : Page) : Fld := ⟨p, 0x20, 0, 31, 0⟩
@[inherit_doc HDR.IRQ_RAW] def HDR.IRQ_EN (p : Page) : Fld := ⟨p, 0x24, 0, 31, 0⟩
@[inherit_doc HDR.IRQ_RAW] def HDR.IRQ_SET (p : Page) : Fld := ⟨p, 0x28, 0, 31, 0⟩
@[inherit_doc HDR.IRQ_RAW] def HDR.IRQ_STAT (p : Page) : Fld := ⟨p, 0x2C, 0, 31, 0⟩

/-- Pages whose OWNER reads WORLD = 1 and HOLD = 1 at reset: those of SEC, PMC, the hash unit and the secure Serge
slots (R422; the pages of SEC and PMC are SEC and their FWC pages, ch. 17; GLM is taken over at boot, ch. 19). -/
def Page.secureAtReset : Page → Nat → Bool
  | .SEC, _ | .HASH, _ => true
  | .FWC, n => n < 2
  | .SERGE, n => 4 ≤ n
  | _, _ => false

/-- Does the page carry a usable BLK_CTRL (TILE and CLUSTER pages, R499)? -/
def Page.hasBlkCtrl : Page → Bool
  | .TILE | .CLUSTER => true
  | _ => false

/-- The common header's field rows at header offset `o` (tables of R498 to R501), the instance-dependent reset values
filled in. -/
def headerRow (p : Page) (n o : Nat) : List FldRow :=
  if o = 0x00 then [⟨31, 16, .RO, if p = .MEMC ∧ 12 ≤ n then 0x0061 else p.typeCode⟩,
    ⟨15, 0, .RO, if p = .MEMC ∧ 12 ≤ n then n - 12 else n⟩]
  else if o = 0x04 then [⟨31, 24, .RO, 1⟩, ⟨23, 16, .RO, 0⟩]
  else if o = 0x08 then [⟨31, 31, .RO, 1⟩, ⟨30, 30, .RO, 0⟩]
  else if o = 0x0C then
    [⟨2, 2, if p.hasBlkCtrl then .RW else .RO, 0⟩, ⟨1, 1, .WO, 0⟩, ⟨0, 0, if p.hasBlkCtrl then .RW else .RO, 1⟩]
  else if o = 0x10 then [⟨4, 4, .RO, 0⟩, ⟨3, 0, .RO, 1⟩]
  else if o = 0x20 then [⟨31, 0, .RO, 0⟩]
  else if o = 0x24 then [⟨31, 0, .RW, 0⟩]
  else if o = 0x28 then [⟨31, 0, .W1S, 0⟩]
  else if o = 0x2C then [⟨31, 0, .W1C, 0⟩]
  else if 0x40 ≤ o ∧ o < 0x60 then [⟨31, 0, .RO, 0⟩]
  else if o = 0x60 then [⟨31, 0, .RC, 0⟩]
  else if o = 0x80 then
    let w := if p.secureAtReset n then 1 else 0
    [⟨11, 8, .RO, 0⟩, ⟨2, 2, .RO, 0⟩, ⟨1, 1, .RO, w⟩, ⟨0, 0, .RO, w⟩]
  else []

/-- Where an offset within a page lands: the register's row, its number and the word within it. -/
def RegRow.at? (r : RegRow) (o : Nat) : Option (Nat × Nat) :=
  if o < r.off then none
  else
    let d := o - r.off
    if r.stride = 0 then (if d < 4 * r.words then some (0, d / 4) else none)
    else if d / r.stride < r.count ∧ d % r.stride < 4 * r.words then some (d / r.stride, d % r.stride / 4)
    else none

/-- The register row of a page that holds offset `o`, with the register's number and the word within it. -/
def findRow (rows : List RegRow) (o : Nat) : Option (RegRow × Nat × Nat) :=
  rows.findSome? fun r => (r.at? o).map fun kw => (r, kw.1, kw.2)

/-- The part of a field that lies in word `w` of its register, as a row of that 32-bit word. -/
def FldRow.inWord (f : FldRow) (w : Nat) : Option FldRow :=
  if f.hi < 32 * w ∨ 32 * w + 31 < f.lo then none
  else some ⟨min f.hi (32 * w + 31) - 32 * w, max f.lo (32 * w) - 32 * w, f.acc,
    (f.reset <<< f.lo >>> (32 * w) % 2 ^ 32) >>> (max f.lo (32 * w) - 32 * w)⟩

/-- The fields of one 32-bit word of a page at offset `o`; empty where no register lies. -/
def wordRows (p : Page) (n o : Nat) : List FldRow :=
  if !p.isWindow && o < 0x100 then headerRow p n o
  else match findRow p.rows o with
    | some (r, _, w) =>
      (r.fields.filterMap (·.inWord w)).map fun f =>
        if p = .MEMC ∧ o = 0x100 ∧ f.hi = 31 then { f with reset := if n < 12 then n else n - 12 }
        else if p = .MEMC ∧ o = 0x100 ∧ f.hi = 7 then { f with reset := if n < 12 then 64 else 4 }
        -- T1500CTL and T1500DATA are reserved in the far groups' pages (R302)
        else if p = .MEMC ∧ 12 ≤ n ∧ (o = 0x180 ∨ o = 0x184) then { f with acc := .RO }
        else f
    | none => []

/-- Does a register (or table entry) occupy offset `o` of the page (R495)? -/
def occupied (p : Page) (n o : Nat) : Bool :=
  if !p.isWindow && o < 0x100 then !(headerRow p n o).isEmpty
  else (findRow p.rows o).isSome

/-- The bits of a field row in its word. -/
def FldRow.mask (f : FldRow) : Nat := (2 ^ (f.hi + 1 - f.lo) - 1) <<< f.lo

/-- Bits of a word that some field defines; the rest are reserved and read as zero (R11). -/
def rowsMask (rs : List FldRow) : Nat := rs.foldl (fun m f => m ||| f.mask) 0

/-- The reset value of a word (R502). -/
def rowsReset (rs : List FldRow) : Nat := rs.foldl (fun v f => v ||| (f.reset <<< f.lo)) 0

/-- Bits of a word whose fields have one of the given access types. -/
def accMask (rs : List FldRow) (a : Acc) : Nat := rowsMask (rs.filter (·.acc = a))

/-- The page types in the order of BAR0 (R503). -/
def allPages : List Page :=
  [.CHIP, .RESET, .STRAP, .EPOCH, .LIFE, .ERRSYS, .FWC, .PRIMETAB, .SEC, .SEAL, .SERGE, .HASH, .PWR, .GLM, .QE,
   .FN, .MBOX, .MSIX, .PBA, .MSIXPF, .PBAPF, .HWMAP, .BAR4MAP, .LINK, .ROUTER, .PWIN, .MCAST, .ROUTE, .MEMC,
   .MEMSYS, .ORDER, .CLUSTER, .MUSLIN, .SCACHE, .TILE]

/-- The page or window of block `p` that holds BAR0 offset `a`: its number and the offset in it. -/
def Page.locate (p : Page) (a : Nat) : Option (Nat × Nat) :=
  (List.range p.count).findSome? fun n =>
    if p.base n ≤ a ∧ a < p.base n + p.size then some (n, a - p.base n) else none

/-- BAR0 decoding (R495, R503): page, number and offset, or none where nothing lies. The function block of the PF has
no MSI-X table or pending-bit array of its own at 0x2000 to 0x3FFF (ch. 16). -/
def bar0 (a : Nat) : Option (Page × Nat × Nat) :=
  (allPages.findSome? fun p => (p.locate a).map fun no => (p, no.1, no.2)).filter
    fun r => !((r.1 = .MSIX || r.1 = .PBA) && r.2.1 = 0)

/-- Reset value of the 32-bit word at BAR0 offset `a`. -/
def resetWord (a : Nat) : Word :=
  match bar0 a with
  | some (p, n, o) => BitVec.ofNat 32 (rowsReset (wordRows p n o))
  | none => 0

/-- Bits the word at BAR0 offset `a` defines. -/
def definedMask (a : Nat) : Word :=
  match bar0 a with
  | some (p, n, o) => BitVec.ofNat 32 (rowsMask (wordRows p n o))
  | none => 0

/-- Width of a field in bits. -/
def Fld.width (f : Fld) : Nat := f.hi + 1 - f.lo

/-- BAR0 offset of the word that holds bit `f.lo` of register number `k` of page number `n`. -/
def Fld.addr (f : Fld) (n k : Nat) : Nat := f.page.base n + f.off + f.stride * k


end Sys2Proof.Machine
end

