-- ==== Sys2Proof/Machine/State.lean ====
section
/-!
DEFINITION. The machine's state as plain data (INVENTORY.md, '## State'), the reasons a command can stop, and the state
after reset. Registers are held once, as the 32-bit words of BAR0 (`regs`). Memory is one list of cells over the device-local
address space (R14). Things the spec numbers (tiles, queues, sessions, ...) are sparse maps by their number, an unlisted
one being as reset leaves it.
-/

namespace Sys2Proof.Machine

/-- Whom a reply of the device goes to: a requester on the network on chip, a function's register or BAR4 or configuration
reader, CXL.mem, a function's DOE mailbox, a management port, a firmware core, the test ports. -/
inductive ReplyTo
  | noc
  | bar (fn : Nat)
  | cfg (fn : Nat)
  | cxl
  | doe (fn : Nat)
  | mgmt
  | core (k : Nat)
  | jtag
  | t1500
  deriving DecidableEq, Repr

/-- What the device sends to the outside. -/
inductive Output
  /-- An MSI-X message: function and vector (R386, R501). -/
  | msix (fn vector : Nat)
  /-- A posted write to host memory: function, bus address, bytes, Relaxed Ordering (R376, R377). -/
  | hostWrite (fn addr : Nat) (bs : List Byte) (ro : Bool)
  /-- A read of host memory: function, bus address, bytes (R378). -/
  | hostRead (fn addr len : Nat)
  /-- A flit on a link (table "Flit"): header, credit return, and the packet of which it carries 496 bytes from byte
  496 · part. -/
  | flit (link fseq ack : Nat) (nak idle : Bool) (cvc ccls credits : Nat) (packet : Option Packet) (part : Nat)
  /-- A reply: to whom, its status (R15; for PCIe 0 is Successful Completion), and its bytes. -/
  | reply (dst : ReplyTo) (status : Nat) (bs : List Byte)
  /-- An AER message: Uncorrectable Internal Error (R484). -/
  | aer
  /-- A signal pin takes a level (ch. 23). -/
  | pin (name : String) (level : Bool)
  deriving DecidableEq, Repr


/-! ### Tile (ch. 04 to 11) -/

/-- A word on a data queue: the 32 bits, and the key tag of a key stream's word (R110): 0 for any other word, else
1 + KSID·2^20 + KID. `bad` marks a poisoned word (R95, R342): 0 for a sound one, else 1 + the global address of its line. -/
structure QWord where
  w : Nat
  tag : Nat := 0
  bad : Nat := 0
  deriving DecidableEq, Repr

/-- A data queue (R201) and what the engine at its end holds: of an inbound queue `taken`, the words that a stalled engine has
drawn and not yet used (R92); of an outbound queue the words beyond its 16 KiB, which the stalled engine has not yet been able to
write (R202). `rotate` and `last` are the select mode and last admission of R217; `stalled` marks the engine stall of R202. -/
structure DataQueue where
  opened : Bool := false
  rotate : Bool := false
  last : Option Nat := none
  stalled : Bool := false
  words : List QWord := []
  taken : List QWord := []
  deriving DecidableEq, Repr

/-- A tile channel's binding at its sender (R215), with its tokens not yet sent as (words of the queue ahead, amount). -/
structure Channel where
  bound : Bool := false
  dmask : Nat := 0
  dq : Nat := 0
  dctr : Nat := 0
  msglen : Nat := 0
  sq : Nat := 0
  toks : List (Nat × Nat) := []
  deriving DecidableEq, Repr

/-- What a channel's receive buffer holds, in channel order (R215): a line, or a token of n. -/
inductive RxItem
  | line (ws : List QWord)
  | token (n : Nat)
  deriving DecidableEq, Repr

/-- The receive side of one channel at a destination tile: items not yet admitted, and the lines of the message in
admission still to come (R215). -/
structure RxBuf where
  items : List RxItem := []
  dq : Nat := 0
  dctr : Nat := 0
  msglen : Nat := 0
  left : Nat := 0
  deriving DecidableEq, Repr

/-- One instruction stream of a tile (R196, R199): current segment, offset of the next word in it, length of the
segment, whether the stream waits at the segment end or has issued END, the unmet first WAIT condition of the instruction it holds (R232; 0
when none) with both WAIT fields of that instruction (R206), and the lengths of the segments that are executable and not yet entered (R314). The words of the instruction
memory are those of the record's graph (`Graph.segments`). -/
structure StreamState where
  seg : Nat := 0
  off : Nat := 0
  len : Nat := 4096
  atEnd : Bool := false
  ended : Bool := false
  held : Nat := 0
  waits : List Nat := []
  more : List Nat := []
  deriving DecidableEq, Repr

/-- A Worsted accumulator bank (R74, R87, R110): 80-bit entries, term count, LIVE, and key tag (0 empty, 1 mixed,
else 1 + the tag of `QWord`). ACC01 is both: its upper half lies in ACC1. -/
structure Bank where
  entries : List Nat := []
  terms : Nat := 0
  live : Bool := false
  tag : Nat := 0
  deriving DecidableEq, Repr

/-- The DACC ledger shadow (R138): the first tracked source, of which it copies PSET, KSID, KIND, LEVEL, BOOT, AUX and
TAG, the WS of the weight bound register, the extremes seen, the OR of OVER, and WSUM. -/
structure Shadow where
  src : Ctd := {}
  ws : Int := 0
  scaleMax : Nat := 0
  scaleMin : Nat := 0
  noise : Nat := 0
  mbound : Int := 0
  ovr : Bool := false
  wsum : Nat := 0
  deriving DecidableEq, Repr

/-- DACC (R136 to R138): 48-bit entries (polynomial 0 then 1), term count, LIVE, shadow, and whether an untracked
DMAC has marked it. -/
structure Dacc where
  entries : List Nat := []
  terms : Nat := 0
  live : Bool := false
  shadow : Option Shadow := none
  untracked : Bool := false
  deriving DecidableEq, Repr

/-- IACC (R141 to R144): mode 0 clear, 1 INT32, 2 FP32; 512 entries as 32-bit words; chunks added since the clear. -/
structure Iacc where
  mode : Nat := 0
  entries : List Nat := List.replicate 512 0
  chunks : Nat := 0
  deriving DecidableEq, Repr

/-- A weight bound register (R135). -/
structure Wbr where
  valid : Bool := false
  wsum : Nat := 0
  pset : Nat := 0
  level : Nat := 0
  ws : Int := 0
  exact : Bool := false
  off : Nat := 0
  stride : Nat := 0
  limb0 : Nat := 0
  limbs : Nat := 0
  deriving DecidableEq, Repr

/-- A plaintext bound register (R180): MP signed Q8.8, E, PSET, LEVEL, the range written, VALID. -/
structure Pbr where
  mp : Int := 0
  valid : Bool := false
  e : Int := 0
  pset : Nat := 0
  level : Nat := 0
  off : Nat := 0
  stride : Nat := 0
  limb0 : Nat := 0
  limbs : Nat := 0
  deriving DecidableEq, Repr

/-- A weight stream descriptor (R129), with the ORDER of the WSTREAM that loaded it (R131). -/
structure Wsd where
  pstride : Nat := 0
  pbase : Nat := 0
  place : Nat := 0
  ws : Int := 0
  rowblk : Nat := 0
  rows : Nat := 0
  addr : Nat := 0
  esc : Bool := false
  isSealed : Bool := false
  ilv : Nat := 0
  fmt : Nat := 0
  tag : Nat := 0
  order : Bool := false
  reserved : Nat := 0
  deriving DecidableEq, Repr

/-- A weight stream in progress (R131, R132): its number in the cluster's order, its descriptor, its operands and the next
block, in delivery order. -/
structure WStream where
  head : Nat := 0
  wsd : Wsd := {}
  slot : Nat := 0
  r0 : Nat := 0
  nr : Nat := 0
  b0 : Nat := 0
  nb : Nat := 0
  order : Bool := false
  dest : Bool := false
  qn : Nat := 0
  land : Nat := 0
  next : Nat := 0
  sig : Nat := 0
  deriving DecidableEq, Repr

/-- A key stream as one tile issued it (R112): its number in the cluster's order, operands, the next (limb position, digit) pair to
deliver, the words of the pair in delivery that its queues have not yet taken (b-half, a-half), whether that pair is the last, and
whether a BLINDROT opened it (R166). -/
structure KStream where
  head : Nat := 0
  ksid : Nat := 0
  kid : Nat := 0
  level : Nat := 0
  dlo : Nat := 0
  dhi : Nat := 0
  bq : Nat := 0
  aq : Nat := 0
  dest : Bool := false
  land : Nat := 0
  next : Nat := 0
  sig : Nat := 0
  bufB : List QWord := []
  bufA : List QWord := []
  fin : Bool := false
  rot : Bool := false
  deriving DecidableEq, Repr

/-- The pending EXTRACT bundle of R161: positions, destination descriptor slot, and where the source ciphertext's two
polynomials of limb 0 lie. -/
structure PendingBundle where
  positions : List Nat := []
  dst : Nat := 0
  off0 : Nat := 0
  off1 : Nat := 0
  deriving DecidableEq, Repr

/-- A running stream program (R262): cacheable?, PAD bytes, entries, the SPROG's SIGNAL. -/
structure StreamProg where
  cache : Bool := false
  pad : Nat := 0
  entries : List StreamEntry := []
  sig : Nat := 0
  deriving DecidableEq, Repr

/-- What an engine instruction keeps of its tile as it stood at issue, so that one that stalls goes on under what it issued with
(R86, R92, R150): descriptor slots, bound registers, weight slots, DACC's shadow and mode, IACC's mode and chunks, the last LIFT, the
pending bundle, the banks' key tags, and the words in effect of RESCTL, LDGCTL, DMKCTL and PCLCTL by BAR0 offset. -/
structure IssueView where
  ctds : List (Nat × Ctd) := []
  wbrs : List (Nat × Wbr) := []
  pbrs : List (Nat × Pbr) := []
  wslots : List (Nat × Wsd) := []
  dacc : Dacc := {}
  iacc : Iacc := {}
  lastLift : Option (Nat × Bool) := none
  gauze : Option PendingBundle := none
  tags : Nat × Nat := (0, 0)
  ctl : List (Nat × Word) := []
  deriving DecidableEq, Repr

/-- A BLINDROT in progress (R164, R169): its parameter set, the destination's scratchpad offset, the bytes from one output to the
next, outputs, the sub-sector Vs, the tile's samples (masks, then body) and their accumulators. Its work area has no place in the
spec's scratchpad, so what lies there is held here (log entry 75). -/
structure GzRun where
  pset : Nat := 0
  dst : Nat := 0
  step : Nat := 0
  outs : Nat := 1
  vs : Nat := 0
  samples : List (List Nat) := []
  accs : List (List Nat × List Nat) := []
  deriving DecidableEq, Repr

/-- An engine instruction whose result is not yet visible (R205), in issue order: its unit, OP, IMM, SIGNAL and the inbound queues it
reads; what WSTACC0, WSTACC1 and DMKDACC read once it completes (R96, R150). Of one that waits for words of its queues also: the
outbound queues it writes, how many of its steps remain, whether it has made a non-canonical read, its stream and fields, and its tile
at issue; of a BLINDROT, what it works on, its steps being coordinates. -/
structure InFlight where
  unit : Nat := 0
  op : Nat := 0
  imm : Nat := 0
  sig : Nat := 0
  reads : List Nat := []
  shows : List Nat := []
  outs : List Nat := []
  left : Nat := 0
  nc : Bool := false
  side : Side := .execute
  word : NInstr := {}
  view : IssueView := {}
  gz : Option GzRun := none
  deriving DecidableEq, Repr

/-- An access-unit transfer not yet signalled (R205, R332): its number, SIGNAL, direction (out: MOVEO), the first global
address, its lines, the next line not yet begun, the tile's side of line 0, peer packets not yet accepted or answered,
lines asked of the host and not answered, lines that wait to enter a data queue in order with how many have entered, and
the first refused line's status. -/
structure Transfer where
  id : Nat := 0
  sig : Nat := 0
  out : Bool := false
  gaddr : Nat := 0
  lines : Nat := 0
  next : Nat := 0
  ref : Opnd := .spad 0
  waiting : Nat := 0
  host : List Nat := []
  got : List (Nat × List QWord) := []
  pushed : Nat := 0
  status : Status := .OK
  deriving DecidableEq, Repr

/-- One tile (ch. 04 to 11), apart from its registers, which live in `State.regs`, and its scratchpad, which lies in
`State.mem` at its device-local address (R14). `fetched` holds lines read through peer windows for its stream programs and
weight streams, by global line number, and `asked` those still on the way (R271). `ptbNext` says that the next graph epoch is
marked perturbed (R311); `pendCtds` holds loaded descriptors for segments not yet entered (R210); `shown` is what WSTACC0, WSTACC1 and
DMKDACC read, as the last completed instruction left them (R96, R150). -/
structure Tile where
  rec? : Option Nat := none
  acc : StreamState := {}
  exe : StreamState := {}
  flags : Nat := 0
  ctrs : List Nat := List.replicate 16 0
  inq : List DataQueue := List.replicate 8 {}
  outq : List DataQueue := List.replicate 8 {}
  chans : List Channel := List.replicate 16 {}
  rx : List (Nat × RxBuf) := []
  ctds : List (Nat × Ctd) := []
  acc0 : Bank := {}
  acc1 : Bank := {}
  accWide : Bool := false
  lastLift : Option (Nat × Bool) := none
  dacc : Dacc := {}
  iacc : Iacc := {}
  wbrs : List (Nat × Wbr) := []
  pbrs : List (Nat × Pbr) := []
  wslots : List (Nat × Wsd) := []
  wstreams : List WStream := []
  kstream : Option KStream := none
  trs : List (Nat × List Nat) := []
  ocache : List (Nat × List Nat) := []
  ocBad : List Nat := []
  gauze : Option PendingBundle := none
  gzCount : Nat := 0
  kCount : Nat := 0
  wCount : Nat := 0
  prog : Option StreamProg := none
  engines : List InFlight := []
  shown : List Nat := []
  transfers : List Transfer := []
  xferNext : Nat := 0
  fetched : List (Nat × List Byte) := []
  asked : List Nat := []
  stallQ : List Nat := []
  lanes : List (Nat × Nat) := []
  ptbNext : Bool := false
  pendCtds : List (Nat × Nat × Ctd) := []
  idleEpochs : Nat := 0
  progress : Bool := false
  preempting : Bool := false
  saved : Bool := false
  restored : Bool := false
  sptUnit : Nat := 0
  sptOn : Bool := false
  spares : List (Nat × Nat) := []
  pinned : Option Nat := none
  deriving DecidableEq, Repr

/-! ### Cluster (ch. 05, 10) -/

/-- A limb held in the key cache (R118): its tag, its bytes, their words, and whether the cache's copy is poisoned (R120). -/
structure KcLimb where
  ksid : Nat
  gen : Nat
  kid : Nat
  k : Nat
  d : Nat
  bytes : Nat
  words : List Nat := []
  bad : Bool := false
  deriving DecidableEq, Repr

/-- A reduction (R253 to R258): descriptor fields, elements as 32-bit words, the lines arrived of each contribution by
CIDX, for FADD32 each contribution's words by CIDX, sealed, result lines poisoned, and the record that opened it. -/
structure Reduction where
  isOpen : Bool := false
  op : Nat := 0
  slot : Nat := 0
  sealEpoch : Nat := 0
  expect : Nat := 0
  len : Nat := 0
  base : Nat := 0
  tag : Nat := 0
  words : List Nat := []
  parts : List (Nat × List Nat) := []
  got : List (Nat × List Nat) := []
  isSealed : Bool := false
  bad : List Nat := []
  rec? : Option Nat := none
  deriving DecidableEq, Repr

/-- A line of the stream cache (R252): global line number, world (secure or not), domain of a sealed line, and its bytes. -/
structure ScLine where
  line : Nat
  secure : Bool
  dom : Option Nat
  data : List Byte
  deriving DecidableEq, Repr

/-- A noise step in progress for one lane (R318 to R320): descriptor, lane, seed, parameter set and LEVEL of the ciphertext, and
the next limb to land. -/
structure NoiseRun where
  desc : Nat := 0
  lane : Nat := 0
  seed : List Byte := []
  pset : Nat := 0
  level : Nat := 0
  landed : Nat := 0
  deriving DecidableEq, Repr

/-- A weight block that the cluster has fetched once for its eight tiles (R131): the stream's number, the block's place in
delivery order, its bytes (none: poisoned) and the tiles it has reached. -/
structure WBlockHeld where
  head : Nat
  k : Nat
  data : Option (List Byte)
  reached : Nat
  deriving DecidableEq, Repr

/-- A cluster: key cache (R118), stream cache most recent line first (R252), sizes in effect in MiB (R251),
pending flush, size, invalidate and reduction-area changes, reductions by RID, and the headers of the key streams (R112),
weight streams (R131; `wblocks`: blocks the cluster has fetched for all its tiles) and Gauze macros (R160) that its tiles have issued
since dispatch, in order, and the RRD packets that wait for a seal (R362). -/
structure Cluster where
  keyCache : List KcLimb := []
  kcSize : Nat := 0
  kcSizeReq : Option Nat := none
  kcFlush : Bool := false
  streamCache : List ScLine := []
  red : Nat := 0
  redReq : Option Nat := none
  scInv : Bool := false
  reds : List (Nat × Reduction) := []
  kheads : List (List Nat) := []
  wheads : List (List Nat) := []
  wblocks : List WBlockHeld := []
  gzHeads : List (List Nat) := []
  wait : Bool := false
  rrds : List Packet := []
  noise : List NoiseRun := []
  idleEpochs : Nat := 0
  gated : Bool := false
  deriving DecidableEq, Repr

/-! ### Key sets (ch. 05) -/

/-- A key directory entry (R102). -/
structure DirEntry where
  kid : Nat
  base : Nat
  alt : Nat
  pin : Bool
  deriving DecidableEq, Repr

/-- A key set (R100): its descriptor, with the directory as KSET_LOAD read it. STATE is 0 loaded, 1 verified, 2 bound. -/
structure KeySet where
  live : Bool := false
  state : Nat := 0
  pset : Nat := 0
  gen : Nat := 0
  sid : Nat := 0
  kcQuota : Nat := 0
  dirAddr : Nat := 0
  nkeys : Nat := 0
  seed : List Byte := []
  dir : List DirEntry := []
  deriving DecidableEq, Repr


/-! ### Records (ch. 01, 16) -/

/-- Where an admitted record stands (R21, R25, R31): admitted, dispatched, or finished and without its CQE yet. -/
inductive RecStage
  | none | admitted | dispatched | finished
  deriving DecidableEq, Repr

/-- A failure raised by a record's work: epoch, cluster, status, and the DETAIL of R385 (R32). -/
structure RecFailure where
  epoch : Nat
  cluster : Nat
  status : Status
  detail : Nat
  deriving DecidableEq, Repr

/-- A LOAD of a descriptor list on its way (R210): cluster, slot, LANEREL, graph epoch, global address, whether it has been asked
of a peer or the host, and what came. -/
structure DescLoad where
  cluster : Nat
  slot : Nat
  rel : Bool
  gep : Nat
  addr : Nat
  asked : Bool := false
  got : Option (Option (List Byte) × Status) := none
  deriving DecidableEq, Repr

/-- What a cluster keeps of a saved record while another one runs: the headers of its key streams, weight streams and Gauze macros,
and its noise steps (`Cluster`). -/
structure Parked where
  kheads : List (List Nat) := []
  wheads : List (List Nat) := []
  gzHeads : List (List Nat) := []
  noise : List NoiseRun := []
  deriving DecidableEq, Repr

/-- An admitted record: the fields of its work record (R383), and its progress: its graph's clusters and tiles, the tiles whose
part is done, its lane and the record bound to lane 0 of its batch (R274), whether it took a token, its descriptor loads, the
graph epoch that runs, the STOREs not yet written (cluster, descriptor list entry), what its
clusters keep for it while another record runs in its place, whether its function's reset aborts it
(R380), the failures raised, and the outcome once it has one. -/
structure RunRec where
  stage : RecStage := .none
  qid : Nat := 0
  ridx : Nat := 0
  fn : Nat := 0
  sid : Nat := 0
  ksid : Nat := 0
  opcode : Nat := 0
  graph : Nat := 0
  inPtr : Nat := 0
  outPtr : Nat := 0
  auxPtr : Nat := 0
  seedPtr : Nat := 0
  seed : List Byte := []
  arg : Nat := 0
  deadline : Nat := 0
  tag : Nat := 0
  flags : Nat := 0
  clusters : Nat := 0
  tiles : List Nat := []
  tilesDone : List Nat := []
  lane : Nat := 0
  leader : Nat := 0
  token : Bool := false
  counted : Bool := false
  loads : List DescLoad := []
  gep : Nat := 0
  stores : List (Nat × Nat) := []
  heads : List (Nat × Parked) := []
  aborting : Bool := false
  failures : List RecFailure := []
  result : Option (Status × Nat) := none
  deriving DecidableEq, Repr

/-! ### Queues and sessions (ch. 16) -/

/-- A queue pair (R381, R382, R385 to R392): STATE (0 DISABLED, 1 ACTIVE, 2 HELD, 3 DRAINING, 4 SUSPENDED), context in effect and
the one that takes effect at the next boundary, submission head and tail, latched tail, CQEs written since ENABLE and those
consumed, tokens in 1/16 record, CQEs not yet signalled and boundaries until the timer fires, late errors pending oldest first
(status, SEQ, global address), the bound session, and the head record as fetched from a host ring (its bytes). -/
structure Queue where
  state : Nat := 0
  ctx : Nat := 2 ^ 64 + 2 ^ 56
  pend : Option Nat := none
  head : Nat := 0
  tail : Nat := 0
  latched : Option Nat := none
  cqes : Nat := 0
  consumed : Nat := 0
  tokens : Nat := 0
  unsig : Nat := 0
  timer : Option Nat := none
  late : List (Nat × Nat × Nat) := []
  sid : Option Nat := none
  wr : List Byte := []
  deriving DecidableEq, Repr

/-- A session (R395 to R400): STATE (0 FREE, 1 OPEN, 2 DRAINING), owner function, key set, limit, SEALED flag, quotas left (none:
no quota), EXPIRES, and the control records whose CQE waits for its end. -/
structure Session where
  state : Nat := 0
  fn : Nat := 0
  ksid : Nat := 0
  maxflight : Nat := 0
  isSealed : Bool := false
  qrec : Option Nat := none
  qepoch : Option Nat := none
  expires : Nat := 0
  closers : List Nat := []
  deriving DecidableEq, Repr

/-- The queue engine (R384, R388, R397): the number of the next record admitted, the rotation (the function served last, what is
left of its turn, the queue each function served last and what is left of that queue's turn), and nonces outstanding oldest
first (function, bytes, epoch of issue). -/
structure QueueEngine where
  nextRec : Nat := 0
  fn : Nat := 63
  fnLeft : Nat := 0
  lastQ : List (Nat × Nat) := []
  qLeft : Nat := 0
  nonces : List (Nat × List Byte × Nat) := []
  deriving DecidableEq, Repr

/-! ### Sealed regions and domains (ch. 12, 18) -/

/-- A sealed region (R288, R289, R292): first byte, granules of 2 MiB, the domain it belongs to, whether it is the context
region, its two XTS keys (none once erased, R426), and whether it is being filled on creation or on release. -/
structure Region where
  live : Bool := false
  base : Nat := 0
  size : Nat := 0
  dom : Nat := 0
  ctx : Bool := false
  keys : Option (Nat × Nat) := none
  filling : Bool := false
  releasing : Bool := false
  deriving DecidableEq, Repr

/-- A sealed domain (R430, R434): its clusters as a mask, the owner key, the program hashes it may run, the SHA-384 of its
policy, its key pair, and the last SEQ it accepted. -/
structure Domain where
  live : Bool := false
  clusters : Nat := 0
  ownerX : Nat := 0
  ownerY : Nat := 0
  hashes : List (List Byte) := []
  digest : List Byte := []
  key : Nat := 0
  pubX : Nat := 0
  pubY : Nat := 0
  seq : Option Nat := none
  deriving DecidableEq, Repr

/-- SEC beyond its pages (R427, R429, R436): the sealing command in progress and the regions whose fills end it, client
keys by KSID, and the test port's instruction. -/
structure SecUnit where
  cmd : Nat := 0
  waits : List Nat := []
  clientKeys : SMap (Nat × Nat) := []
  jtag : JtagIr := .IDCODE
  deriving DecidableEq, Repr

/-! ### Host port (ch. 16) -/

/-- What a function's configuration space holds that the device acts on (R371, R377, R386): Enable Relaxed Ordering of Device
Control, MSI-X Enable and Function Mask, the PF's BAR4 size as a power of two; whether a function-level reset is under way (R380);
and the other 32-bit words written to it, by their number. -/
structure PcieFn where
  ero : Bool := true
  msixOn : Bool := false
  msixMask : Bool := false
  bar4 : Nat := 36
  flr : Bool := false
  words : List (Nat × Nat) := []
  deriving DecidableEq, Repr

/-- The CXL.mem decoder (R379): committed, its error bit, first host address and bytes. -/
structure Cxl where
  committed : Bool := false
  error : Bool := false
  base : Nat := 0
  size : Nat := 0
  deriving DecidableEq, Repr

/-! ### Peer links (ch. 15) -/

/-- What issued a peer transaction: a transfer of a tile by its number, a read or a write of a tile's stream program or
weight stream, a cluster's descriptor list, or a firmware core. -/
inductive Origin
  | transfer (tile id : Nat)
  | fetch (tile : Nat)
  | store (tile : Nat)
  | descriptor (cluster : Nat)
  | core (k : Nat)
  deriving DecidableEq, Repr

/-- A peer transaction that awaits a final answer (R353), by TAG: its packet, origin and record, the global address and
line number of its first line, ACCEPTs and final answers still to come (MEMBERS of a multicast), the devices to which it is to be
sent again after a NAK's hint (R364), the queue and ring index of its record, which outlive it (R339), and
whether a reset ended that record, so that no late error is recorded (R511). -/
structure PeerTxn where
  live : Bool := false
  packet : Packet := {}
  origin : Origin := .core 0
  rec? : Option Nat := none
  gaddr : Nat := 0
  pos : Nat := 0
  accepts : Nat := 0
  finals : Nat := 0
  retry : List Nat := []
  qid : Nat := 0
  ridx : Nat := 0
  mute : Bool := false
  deriving DecidableEq, Repr

/-- A flit kept for replay (R349). -/
structure SentFlit where
  fseq : Nat
  packet : Packet
  part : Nat
  deriving DecidableEq, Repr

/-- A link's protocol state beyond its page (R348 to R350, R368): next FSEQ to send, next expected, retry buffer, replays
without progress, credits held per (VC, class) in 64-byte units, packets accepted and not yet taken, the times (ns) of
its last violations, and the lane eye margins of its last MARGIN test (R487). Number 24 holds the packets this module sends itself. -/
structure Link where
  txSeq : Nat := 0
  rxSeq : Nat := 0
  retry : List SentFlit := []
  replays : Nat := 0
  credits : List Nat := List.replicate 8 512
  rx : List Packet := []
  viols : List Nat := []
  margins : List Nat := []
  holding : Bool := false
  deriving DecidableEq, Repr

/-- A packet waiting to leave (R350): the packet, whether it must leave in class 1 because it arrived so, and the link a
multicast copy takes. -/
structure TxPacket where
  packet : Packet
  one : Bool := false
  link : Option Nat := none
  deriving DecidableEq, Repr

/-! ### Memory controllers (ch. 12, 20) -/

/-- A memory controller beyond its page (R284, R286, R298, R301, R481): tokens of its eight partitions in 1/256, requests
that wait, corrected errors per row in this patrol period, lines read and written modulo 4,096, the channel calibrated next and
the epoch of its last calibration, the temperature of its last training once a report has given it, whether training failed, and the IEEE 1500 shift in progress (register 0 none, 1 instruction, 2 data; bits left;
the bits shifted in so far as words, and the bits the wrapper holds to shift out). -/
structure MemCtl where
  tokens : List Nat := List.replicate 8 0x100000
  waiting : List LineReq := []
  rows : List (Nat × Nat) := []
  readLines : Nat := 0
  writeLines : Nat := 0
  nextCal : Nat := 0
  calEpoch : Nat := 0
  trainTemp : Option Nat := none
  failed : Bool := false
  shiftOp : Nat := 0
  shiftLeft : Nat := 0
  shiftIn : List Nat := []
  deriving DecidableEq, Repr

/-! ### The life log (ch. 20) -/

/-- A bank of the life log (R488): valid, header fields, 128 counters, 32 × 16 histogram bins, and the event ring. -/
structure LifeBank where
  valid : Bool := false
  gen : Nat := 0
  powersec : Nat := 0
  head : Nat := 0
  events : Nat := 0
  reason : Nat := 0
  counts : List (Nat × Nat) := []
  hists : List (Nat × Nat) := []
  ring : List (Nat × Nat) := []
  deriving DecidableEq, Repr

/-- The life log (R484, R488, R489, R491, R508): its two banks, what the PMC has gathered on VAON since the last write
(counters, histogram bins, event records), the reasons of the writes that wait and of the one that runs, the fatal record kept
on VAON, seconds since the last requested write was completed, the bank a snapshot holds, and the epochs marked perturbed
since the last histogram sample. -/
structure LifeLog where
  bank0 : LifeBank := {}
  bank1 : LifeBank := {}
  counts : List (Nat × Nat) := []
  hists : List (Nat × Nat) := []
  events : List Nat := []
  waiting : List Nat := []
  writing : Option Nat := none
  fatal : Option Nat := none
  sinceRequest : Option Nat := none
  snap : Option Bool := none
  perturbed : Nat := 0
  deriving DecidableEq, Repr

/-- A page's error record beyond its words (R475): whether a read of ERR_CNT lets any error replace the record, and the
seven words a read of the first has latched. -/
structure ErrPage where
  free : Bool := false
  latch : List Nat := []
  deriving DecidableEq, Repr

/-- The requested self-test (R487) and what the containment table keeps (R482, R483): test (0 none) and targets; whether
LBIST has started; clusters to be reset at the next boundary with nothing dispatched; clusters retired and not yet out of
the enabled mask; clusters with a fault in the last 24 h with the minutes since. -/
structure SelfTest where
  test : Nat := 0
  target : Nat := 0
  started : Bool := false
  resets : Nat := 0
  retiring : Nat := 0
  faults : List (Nat × Nat) := []
  deriving DecidableEq, Repr



/-! ### Hash unit and Serge (ch. 18) -/

/-- A context of the hash unit (R440 to R442): the message so far (its bytes; the unit keeps the running state of them),
the algorithm it was started with, and whether it was started with INIT since it was last zeroed. -/
structure HashCtx where
  started : Bool := false
  alg : Nat := 0
  msg : List Byte := []
  deriving DecidableEq, Repr

/-- The hash unit (R440, R441): its contexts, the contexts on its two lanes, and those ready, first come first. -/
structure HashUnit where
  ctxs : List (Nat × HashCtx) := []
  lanes : List Nat := []
  ready : List Nat := []
  deriving DecidableEq, Repr

/-- Serge (R443 to R448): loaded curves by slot, the slot that runs, the normal slot whose state is saved, the slots that
wait in rotation, and SEC's key store by handle. -/
structure SergeUnit where
  curves : List (Nat × Curve) := []
  running : Option Nat := none
  saved : Option Nat := none
  ready : List Nat := []
  keys : List (Nat × Nat) := []
  deriving DecidableEq, Repr



/-! ### Contexts, power, Gloaming, epochs (ch. 09, 13, 19) -/

/-- A preempted tile's context (R226, R230): what the header holds (the tile, TILE.SELLAST and TILE.PCLFLAGS), and the
scratchpad bytes below `scratchEnd` that a CCC saved for a record of another session. The parts with a stated layout lie in
memory. -/
structure Context where
  live : Bool := false
  tile : Tile := {}
  sellast : Nat := 0
  pclflags : Nat := 0
  scratchEnd : Nat := 0
  scratch : SMap Byte := []
  deriving DecidableEq, Repr

/-- Power management beyond its page (R451 to R463): wall epochs in the current group and their PWR.MEAS sum, groups at
s = 15 over the cap, the points commanded to the tile islands, the tiles raised for a preemption, the operating points
whose voltage each half rail has reached and ramps to, the transition of PWR.REQ in progress (target, clusters), clusters
that wake for an admitted record, whether SLUMBER is being left, the brake pin, whether the brake's effect still holds, the
tiles it preempted, whether an EMERG action holds the tiles unpowered, and PWR.STATE.CLUSTER as SLUMBER found it. -/
structure Power where
  epochs : Nat := 0
  sum : Nat := 0
  overGroups : Nat := 0
  points : List Nat := List.replicate 64 4
  raised : List Nat := []
  rail : List Nat := [4, 4]
  ramp : List Nat := [4, 4]
  trans : Option (Nat × Nat) := none
  waking : Nat := 0
  leaving : Bool := false
  brakePin : Bool := false
  braking : Bool := false
  braked : List Nat := []
  emerg : Bool := false
  savedClusters : Nat := 0
  deriving DecidableEq, Repr

/-- Gloaming beyond its page (R466, R468, R529): no scan yet since the tables were loaded; per channel and stage the last
output and input; hold counts; events since the last scan; running on the on-die oscillator; the trip was a CUT. -/
structure Gloaming where
  first : Bool := true
  stages : List (Nat × List (Int × Int)) := []
  holds : List (Nat × Nat) := []
  events : List Nat := []
  oscillator : Bool := false
  cut : Bool := false
  deriving DecidableEq, Repr

/-- The epoch generator beyond its page (R305 to R309, R366): the slew of the current epoch, captures in a row with
|e| ≤ 16, whether the window of the current epoch has its pulse, EPOCH.STAT as of the last boundary (R321), the adopted count, the count an EPOCH_SET gives the next
boundary, whether an EPOCH_SET waits for the half of the next epoch, and the high count words that reads of the low one have latched:
0 of the EPOCH page, 1 + f of function f's (R321). -/
structure EpochGen where
  slew : Int := 0
  good : Nat := 0
  taken : Bool := false
  shown : Nat := 0
  adopted : Bool := false
  setTo : Option Nat := none
  esetWaits : Bool := false
  latch : List (Nat × Nat) := []
  deriving DecidableEq, Repr



/-! ### Firmware cores, mailboxes, management (ch. 16 to 18, 22, 23) -/

/-- A firmware core's channels (R417 to R420): the requests in its inbox and the one it handles as (sender, SEQ); its own
outstanding requests as (target, SEQ); and the late errors its next FENCE reports as (status code, SEQ) (R340). -/
structure FwCore where
  requests : List (Nat × Nat) := []
  handling : Option (Nat × Nat) := none
  waiting : List (Nat × Nat) := []
  late : List (Nat × Nat) := []
  deriving DecidableEq, Repr

/-- A mailbox endpoint (R409, R413, R421): features granted by its last HELLO (none: no HELLO since its reset), request words as
written by their index, the request in progress (none: empty), the last reply, and the SEQ that a management endpoint's reply answered. -/
structure Mailbox where
  grant : Option Nat := none
  words : List (Nat × Nat) := []
  request : List Byte := []
  reply : List Byte := []
  seq : Option Nat := none
  deriving DecidableEq, Repr

/-- Patches of one core type (R404 to R407): the images in banks A and B of package flash, the bank booted (0xFF: ROM alone), the
image that runs, the bank staged and verified (0xFF: none), and the SVN floor in one-time fuses. -/
structure Patches where
  a : List Byte := []
  b : List Byte := []
  booted : Nat := 0xFF
  running : List Byte := []
  staged : Nat := 0xFF
  floor : Nat := 0
  deriving DecidableEq, Repr

/-- The vendor part of package flash (R39, R57, R165): whether its signature verifies, prime table entries by slot, parameter sets
by number with their curve tables, and the repack sequences by number with the indices of the further class 0 keys that each names
(R159). -/
structure Vendor where
  signed : Bool := true
  primes : List (Nat × Nat) := []
  psets : List (Nat × List Byte × List Byte) := []
  repacks : List (Nat × List Nat) := []
  deriving DecidableEq, Repr

/-- The boot configuration block of package flash (R516): VALID, whether its signature verifies, the device ID, and the device IDs of the
configuration's modules in configuration order (R220; the spec does not say where the SCH has them from: log entry 41). -/
structure BootConfig where
  valid : Bool := false
  signed : Bool := true
  dev : Nat := 0
  modules : List Nat := []
  deriving DecidableEq, Repr

/-- Package flash, fuses and what firmware keeps (R222, R301, R404, R428, R516): patches of SEC, PMC, SCH and CCC, vendor primes
and parameter sets, the boot configuration, the fuse SVC, the translation cache, least recently used first, every translation made, by program hash and configuration
hash (R220), repairs made by unit,
the links whose training attempt of the boot is still to come (R513), and whether the last boot followed a POR (R517). -/
structure Firmware where
  types : List Patches := List.replicate 4 {}
  vendor : Vendor := {}
  boot : BootConfig := {}
  svc : Bool := false
  cache : List Graph := []
  translated : List (List Byte × List Byte × Translation) := []
  repairs : List (Nat × Nat) := []
  links : Nat := 0
  afterPor : Bool := true
  deriving DecidableEq, Repr

/-- The SPDM connection of a transport endpoint (R437): the version in use (none before GET_VERSION), whether capabilities and
algorithms are agreed, and the messages that signatures cover: of the connection (A), of the certificate (B), and measurement
requests since the last signature (L). -/
structure Spdm where
  version : Option Nat := none
  caps : Bool := false
  algs : Bool := false
  a : List Byte := []
  b : List Byte := []
  l : List Byte := []
  deriving DecidableEq, Repr

/-- The management port (R408, R532): the MCTP endpoint ID, and the dynamic address assigned on I3C. -/
structure Mgmt where
  eid : Nat := 0
  dynamic : Option Nat := none
  deriving DecidableEq, Repr


/-! ### The whole machine -/

/-- The state of the module. Each field is named by the rule its docstring cites; INVENTORY.md lists them with their
reset values. -/
structure State where
  /-- The 32-bit words of BAR0 by offset (R494 to R503), an unlisted word being at its reset value (R502). -/
  regs : SMap Word := []
  /-- Memory over device-local addresses (R14): near tier, far tier, tile scratchpads; an unlisted byte reads as zero (log entry 5). -/
  mem : (List Host.Cell) := []
  /-- Poisoned 64-byte lines by line number (R478). -/
  poison : SMap Bool := []
  /-- Key tag of scratchpad rows a key stream landed, by line number (R110). -/
  landTag : SMap Nat := []
  /-- Tiles T0 to T63. -/
  tiles : SMap Tile := []
  /-- Clusters C0 to C7. -/
  clusters : SMap Cluster := []
  /-- Parameter sets by number (R38, R39). -/
  psets : SMap Pset := []
  /-- Prime table entries by slot, 128 bits each (R56). -/
  primes : SMap Nat := []
  /-- What the device has sent: host writes, interrupts, packets, replies, pin changes, oldest first. -/
  out : (List Output) := []
  /-- The model's own counter of free values (log entry 1). -/
  fresh : Nat := 0
  /-- Admitted records by record number (R21 to R26, R383). -/
  records : SMap RunRec := []
  /-- Words in effect, by BAR0 offset, of registers whose written value takes effect at a later boundary (R48, R72, R150, R195). -/
  deferred : SMap (Option Word) := []
  /-- Key sets by KSID (R100). -/
  ksets : SMap KeySet := []
  /-- Sealed regions by number (R288). -/
  regions : SMap Region := []
  /-- Sealed domains by number (R430). -/
  domains : SMap Domain := []
  /-- PCIe functions' configuration by function number (R371, R377). -/
  pcie : SMap PcieFn := []
  /-- Peer transactions by TAG (R353). -/
  peers : SMap PeerTxn := []
  /-- Peer links L0 to L23 (R345 to R350); 24 is this module's own deliveries. -/
  links : SMap Link := []
  /-- Packets waiting to leave, oldest first (R350). -/
  txq : (List TxPacket) := []
  /-- Loaded graphs by graph id (R219). -/
  graphs : SMap Graph := []
  /-- Memory controllers by MEMC number: 0 to 11 stacks, 12 to 27 far groups (R284). -/
  memctl : SMap MemCtl := []
  /-- The life log and what is gathered for it (R488, R489). -/
  life : LifeLog := {}
  /-- The CXL.mem decoder (R379). -/
  cxl : Cxl := {}
  /-- The hash unit (R440). -/
  hash : HashUnit := {}
  /-- Serge (R443). -/
  serge : SergeUnit := {}
  /-- Contexts of preempted tiles by the base of their context area (R226). -/
  contexts : SMap Context := []
  /-- Power management (ch. 19). -/
  power : Power := {}
  /-- The Gloaming monitor (ch. 19). -/
  glm : Gloaming := {}
  /-- The epoch generator (ch. 13). -/
  epoch : EpochGen := {}
  /-- SEC (ch. 18). -/
  sec : SecUnit := {}
  /-- Error records' latches by BAR0 offset of the page (R475). -/
  errPages : SMap ErrPage := []
  /-- Self-test and retirement (R482, R483, R487). -/
  tests : SelfTest := {}
  /-- Queue pairs by QID (R381). -/
  queues : SMap Queue := []
  /-- Sessions by SID (R395). -/
  sessions : SMap Session := []
  /-- The queue engine (R388). -/
  qe : QueueEngine := {}
  /-- Doorbell latches of the first-light window by function and BAR2 slot, 2^18 · function + slot: the last SQTAIL and CQHEAD (R518). -/
  doorbells : SMap (Option Nat × Option Nat) := []
  /-- Firmware cores by their number in R503 (R417 to R420). -/
  cores : SMap FwCore := []
  /-- Mailbox endpoints: of function f, and of management endpoint ID e as 64 + e (R409). -/
  mboxes : SMap Mailbox := []
  /-- Package flash, fuses and what the firmware keeps (R222, R301, R404, R516). -/
  fw : Firmware := {}
  /-- SPDM connections: 0 of the PF's DOE mailbox, 1 + e of management endpoint ID e (R437). -/
  spdm : SMap Spdm := []
  /-- The management port (R408, R532). -/
  mgmt : Mgmt := {}
  /-- Words written and held until the write that makes them take effect, by BAR0 offset (R496). -/
  held : SMap (Option Word) := []
  /-- The commands that wait, first in, first out: the queue of the block interface, no part of the hardware. -/
  pending : List Instr := []
  deriving DecidableEq, Repr

/-- Right after reset (R502): every register word reads its reset value, memory lists nothing, nothing is loaded, open,
placed or pending. Values the spec does not give are named in log entries 3 and 4. -/
def State.reset : State := {}

/-- Why a command stops with a fault. No command of this model does: every outcome the spec gives is a next state. -/
inductive Fault
  /-- Nobody raises it; safe. -/
  | none
  deriving DecidableEq, Repr

/-- Why a command has no outcome. -/
inductive Refusal
  /-- Raised by an arm of `exec` whose command has no meaning yet, and by nothing else; safe. -/
  | notModelled (mnemonic : String)
  deriving DecidableEq, Repr

end Sys2Proof.Machine
end

