-- ==== Sys2Proof/Machine/Act.lean ====
section
/-!
DEFINITION. Every way a command can change the machine: the primitive updates (`Act`), one per field of State, what each
does (`apply`), and what a sequence of them reaches (`Reach`). A command's effect is built from them and nothing else
(`Tx`), so what holds of every primitive update holds of every command.
-/

namespace Sys2Proof.Machine

/-- A primitive update. -/
inductive Act
  | regs (k : Nat) (v : Word)
  | mem (a : Nat) (bs : List Byte)
  | poison (k : Nat) (v : Bool)
  | landTag (k : Nat) (v : Nat)
  | tiles (k : Nat) (v : Tile)
  | clusters (k : Nat) (v : Cluster)
  | psets (k : Nat) (v : Pset)
  | primes (k : Nat) (v : Nat)
  | out (o : Output)
  | fresh (v : Nat)
  | records (k : Nat) (v : RunRec)
  | deferred (k : Nat) (v : (Option Word))
  | ksets (k : Nat) (v : KeySet)
  | regions (k : Nat) (v : Region)
  | domains (k : Nat) (v : Domain)
  | pcie (k : Nat) (v : PcieFn)
  | peers (k : Nat) (v : PeerTxn)
  | links (k : Nat) (v : Link)
  | txq (v : (List TxPacket))
  | graphs (k : Nat) (v : Graph)
  | memctl (k : Nat) (v : MemCtl)
  | life (v : LifeLog)
  | cxl (v : Cxl)
  | hash (v : HashUnit)
  | serge (v : SergeUnit)
  | contexts (k : Nat) (v : Context)
  | power (v : Power)
  | glm (v : Gloaming)
  | epoch (v : EpochGen)
  | sec (v : SecUnit)
  | errPages (k : Nat) (v : ErrPage)
  | tests (v : SelfTest)
  | queues (k : Nat) (v : Queue)
  | sessions (k : Nat) (v : Session)
  | qe (v : QueueEngine)
  | doorbells (k : Nat) (v : (Option Nat × Option Nat))
  | cores (k : Nat) (v : FwCore)
  | mboxes (k : Nat) (v : Mailbox)
  | fw (v : Firmware)
  | spdm (k : Nat) (v : Spdm)
  | mgmt (v : Mgmt)
  | held (k : Nat) (v : (Option Word))
  deriving DecidableEq, Repr

/-- What an unlisted key of each map reads as. -/
def regsDefault (k : Nat) : Word := resetWord k
def poisonDefault (_ : Nat) : Bool := false
def landTagDefault (_ : Nat) : Nat := 0
def tilesDefault (_ : Nat) : Tile := {}
def clustersDefault (_ : Nat) : Cluster := {}
def psetsDefault (_ : Nat) : Pset := {}
def primesDefault (_ : Nat) : Nat := 0
def recordsDefault (_ : Nat) : RunRec := {}
def deferredDefault (_ : Nat) : (Option Word) := none
def ksetsDefault (_ : Nat) : KeySet := {}
def regionsDefault (_ : Nat) : Region := {}
def domainsDefault (_ : Nat) : Domain := {}
def pcieDefault (_ : Nat) : PcieFn := {}
def peersDefault (_ : Nat) : PeerTxn := {}
def linksDefault (_ : Nat) : Link := {}
def graphsDefault (_ : Nat) : Graph := {}
def memctlDefault (_ : Nat) : MemCtl := {}
def contextsDefault (_ : Nat) : Context := {}
def errPagesDefault (_ : Nat) : ErrPage := {}
def queuesDefault (_ : Nat) : Queue := {}
def sessionsDefault (_ : Nat) : Session := {}
def doorbellsDefault (_ : Nat) : (Option Nat × Option Nat) := (none, none)
def coresDefault (_ : Nat) : FwCore := {}
def mboxesDefault (_ : Nat) : Mailbox := {}
def spdmDefault (_ : Nat) : Spdm := {}
def heldDefault (_ : Nat) : (Option Word) := none

/-- The effect of a primitive update. A register word keeps only its defined bits (R11); a map entry equal to its
default is not listed. -/
def Act.apply (a : Act) (s : State) : State :=
  match a with
  | .regs k v => { s with regs := mapPut (resetWord k) s.regs k (v &&& definedMask k) }
  | .mem a bs => { s with mem := memWriteBytes s.mem a bs }
  | .poison k v => { s with poison := mapPut (poisonDefault k) s.poison k v }
  | .landTag k v => { s with landTag := mapPut (landTagDefault k) s.landTag k v }
  | .tiles k v => { s with tiles := mapPut (tilesDefault k) s.tiles k v }
  | .clusters k v => { s with clusters := mapPut (clustersDefault k) s.clusters k v }
  | .psets k v => { s with psets := mapPut (psetsDefault k) s.psets k v }
  | .primes k v => { s with primes := mapPut (primesDefault k) s.primes k v }
  | .out o => { s with out := s.out ++ [o] }
  | .fresh v => { s with fresh := v }
  | .records k v => { s with records := mapPut (recordsDefault k) s.records k v }
  | .deferred k v => { s with deferred := mapPut (deferredDefault k) s.deferred k v }
  | .ksets k v => { s with ksets := mapPut (ksetsDefault k) s.ksets k v }
  | .regions k v => { s with regions := mapPut (regionsDefault k) s.regions k v }
  | .domains k v => { s with domains := mapPut (domainsDefault k) s.domains k v }
  | .pcie k v => { s with pcie := mapPut (pcieDefault k) s.pcie k v }
  | .peers k v => { s with peers := mapPut (peersDefault k) s.peers k v }
  | .links k v => { s with links := mapPut (linksDefault k) s.links k v }
  | .txq v => { s with txq := v }
  | .graphs k v => { s with graphs := mapPut (graphsDefault k) s.graphs k v }
  | .memctl k v => { s with memctl := mapPut (memctlDefault k) s.memctl k v }
  | .life v => { s with life := v }
  | .cxl v => { s with cxl := v }
  | .hash v => { s with hash := v }
  | .serge v => { s with serge := v }
  | .contexts k v => { s with contexts := mapPut (contextsDefault k) s.contexts k v }
  | .power v => { s with power := v }
  | .glm v => { s with glm := v }
  | .epoch v => { s with epoch := v }
  | .sec v => { s with sec := v }
  | .errPages k v => { s with errPages := mapPut (errPagesDefault k) s.errPages k v }
  | .tests v => { s with tests := v }
  | .queues k v => { s with queues := mapPut (queuesDefault k) s.queues k v }
  | .sessions k v => { s with sessions := mapPut (sessionsDefault k) s.sessions k v }
  | .qe v => { s with qe := v }
  | .doorbells k v => { s with doorbells := mapPut (doorbellsDefault k) s.doorbells k v }
  | .cores k v => { s with cores := mapPut (coresDefault k) s.cores k v }
  | .mboxes k v => { s with mboxes := mapPut (mboxesDefault k) s.mboxes k v }
  | .fw v => { s with fw := v }
  | .spdm k v => { s with spdm := mapPut (spdmDefault k) s.spdm k v }
  | .mgmt v => { s with mgmt := v }
  | .held k v => { s with held := mapPut (heldDefault k) s.held k v }

/-- What a sequence of primitive updates reaches. -/
inductive Reach : State → State → Prop
  | refl (s : State) : Reach s s
  | tail {s t : State} (h : Reach s t) (a : Act) : Reach s (a.apply t)

/-- A command's effect in the making: the state now, reached from `s` by primitive updates. -/
structure Tx (s : State) where
  now : State
  ok : Reach s now

/-- No update yet. -/
def begin (s : State) : Tx s := ⟨s, .refl s⟩

/-- One more update. -/
def Tx.act {s : State} (t : Tx s) (a : Act) : Tx s := ⟨a.apply t.now, .tail t.ok a⟩

/-- The outcome of a command whose effect is complete. -/
def done {s : State} (t : Tx s) : Host.Outcome State Fault Refusal := .next t.now

variable {s : State}

/-- The 32-bit words of BAR0 by offset (R494 to R503), an unlisted word being at its reset value (R502). -/
def State.regsAt (s : State) (k : Nat) : Word := mapGet (regsDefault k) s.regs k
@[inherit_doc State.regsAt] def Tx.regsAt (t : Tx s) (k : Nat) : Word := t.now.regsAt k
/-- Write entry `k` of `regs`. -/
def Tx.putRegs (t : Tx s) (k : Nat) (v : Word) : Tx s := t.act (.regs k v)
/-- Poisoned 64-byte lines by line number (R478). -/
def State.poisonAt (s : State) (k : Nat) : Bool := mapGet (poisonDefault k) s.poison k
@[inherit_doc State.poisonAt] def Tx.poisonAt (t : Tx s) (k : Nat) : Bool := t.now.poisonAt k
/-- Write entry `k` of `poison`. -/
def Tx.putPoison (t : Tx s) (k : Nat) (v : Bool) : Tx s := t.act (.poison k v)
/-- Key tag of scratchpad rows a key stream landed, by line number (R110). -/
def State.landTagAt (s : State) (k : Nat) : Nat := mapGet (landTagDefault k) s.landTag k
@[inherit_doc State.landTagAt] def Tx.landTagAt (t : Tx s) (k : Nat) : Nat := t.now.landTagAt k
/-- Write entry `k` of `landTag`. -/
def Tx.putLandTag (t : Tx s) (k : Nat) (v : Nat) : Tx s := t.act (.landTag k v)
/-- Tiles T0 to T63. -/
def State.tilesAt (s : State) (k : Nat) : Tile := mapGet (tilesDefault k) s.tiles k
@[inherit_doc State.tilesAt] def Tx.tilesAt (t : Tx s) (k : Nat) : Tile := t.now.tilesAt k
/-- Write entry `k` of `tiles`. -/
def Tx.putTiles (t : Tx s) (k : Nat) (v : Tile) : Tx s := t.act (.tiles k v)
/-- Change entry `k` of `tiles`. -/
def Tx.modTiles (t : Tx s) (k : Nat) (f : Tile → Tile) : Tx s := t.putTiles k (f (t.tilesAt k))
/-- Clusters C0 to C7. -/
def State.clustersAt (s : State) (k : Nat) : Cluster := mapGet (clustersDefault k) s.clusters k
@[inherit_doc State.clustersAt] def Tx.clustersAt (t : Tx s) (k : Nat) : Cluster := t.now.clustersAt k
/-- Write entry `k` of `clusters`. -/
def Tx.putClusters (t : Tx s) (k : Nat) (v : Cluster) : Tx s := t.act (.clusters k v)
/-- Change entry `k` of `clusters`. -/
def Tx.modClusters (t : Tx s) (k : Nat) (f : Cluster → Cluster) : Tx s := t.putClusters k (f (t.clustersAt k))
/-- Parameter sets by number (R38, R39). -/
def State.psetsAt (s : State) (k : Nat) : Pset := mapGet (psetsDefault k) s.psets k
@[inherit_doc State.psetsAt] def Tx.psetsAt (t : Tx s) (k : Nat) : Pset := t.now.psetsAt k
/-- Write entry `k` of `psets`. -/
def Tx.putPsets (t : Tx s) (k : Nat) (v : Pset) : Tx s := t.act (.psets k v)
/-- Change entry `k` of `psets`. -/
def Tx.modPsets (t : Tx s) (k : Nat) (f : Pset → Pset) : Tx s := t.putPsets k (f (t.psetsAt k))
/-- Prime table entries by slot, 128 bits each (R56). -/
def State.primesAt (s : State) (k : Nat) : Nat := mapGet (primesDefault k) s.primes k
@[inherit_doc State.primesAt] def Tx.primesAt (t : Tx s) (k : Nat) : Nat := t.now.primesAt k
/-- Write entry `k` of `primes`. -/
def Tx.putPrimes (t : Tx s) (k : Nat) (v : Nat) : Tx s := t.act (.primes k v)
/-- Write `fresh`. -/
def Tx.putFresh (t : Tx s) (v : Nat) : Tx s := t.act (.fresh v)
/-- Admitted records by record number (R21 to R26, R383). -/
def State.recordsAt (s : State) (k : Nat) : RunRec := mapGet (recordsDefault k) s.records k
@[inherit_doc State.recordsAt] def Tx.recordsAt (t : Tx s) (k : Nat) : RunRec := t.now.recordsAt k
/-- Write entry `k` of `records`. -/
def Tx.putRecords (t : Tx s) (k : Nat) (v : RunRec) : Tx s := t.act (.records k v)
/-- Change entry `k` of `records`. -/
def Tx.modRecords (t : Tx s) (k : Nat) (f : RunRec → RunRec) : Tx s := t.putRecords k (f (t.recordsAt k))
/-- Words in effect, by BAR0 offset, of registers whose written value takes effect at a later boundary (R48, R72, R150, R195). -/
def State.deferredAt (s : State) (k : Nat) : (Option Word) := mapGet (deferredDefault k) s.deferred k
@[inherit_doc State.deferredAt] def Tx.deferredAt (t : Tx s) (k : Nat) : (Option Word) := t.now.deferredAt k
/-- Write entry `k` of `deferred`. -/
def Tx.putDeferred (t : Tx s) (k : Nat) (v : (Option Word)) : Tx s := t.act (.deferred k v)
/-- Change entry `k` of `deferred`. -/
def Tx.modDeferred (t : Tx s) (k : Nat) (f : (Option Word) → (Option Word)) : Tx s := t.putDeferred k (f (t.deferredAt k))
/-- Key sets by KSID (R100). -/
def State.ksetsAt (s : State) (k : Nat) : KeySet := mapGet (ksetsDefault k) s.ksets k
@[inherit_doc State.ksetsAt] def Tx.ksetsAt (t : Tx s) (k : Nat) : KeySet := t.now.ksetsAt k
/-- Write entry `k` of `ksets`. -/
def Tx.putKsets (t : Tx s) (k : Nat) (v : KeySet) : Tx s := t.act (.ksets k v)
/-- Change entry `k` of `ksets`. -/
def Tx.modKsets (t : Tx s) (k : Nat) (f : KeySet → KeySet) : Tx s := t.putKsets k (f (t.ksetsAt k))
/-- Sealed regions by number (R288). -/
def State.regionsAt (s : State) (k : Nat) : Region := mapGet (regionsDefault k) s.regions k
@[inherit_doc State.regionsAt] def Tx.regionsAt (t : Tx s) (k : Nat) : Region := t.now.regionsAt k
/-- Write entry `k` of `regions`. -/
def Tx.putRegions (t : Tx s) (k : Nat) (v : Region) : Tx s := t.act (.regions k v)
/-- Change entry `k` of `regions`. -/
def Tx.modRegions (t : Tx s) (k : Nat) (f : Region → Region) : Tx s := t.putRegions k (f (t.regionsAt k))
/-- Sealed domains by number (R430). -/
def State.domainsAt (s : State) (k : Nat) : Domain := mapGet (domainsDefault k) s.domains k
@[inherit_doc State.domainsAt] def Tx.domainsAt (t : Tx s) (k : Nat) : Domain := t.now.domainsAt k
/-- Write entry `k` of `domains`. -/
def Tx.putDomains (t : Tx s) (k : Nat) (v : Domain) : Tx s := t.act (.domains k v)
/-- Change entry `k` of `domains`. -/
def Tx.modDomains (t : Tx s) (k : Nat) (f : Domain → Domain) : Tx s := t.putDomains k (f (t.domainsAt k))
/-- PCIe functions' configuration by function number (R371, R377). -/
def State.pcieAt (s : State) (k : Nat) : PcieFn := mapGet (pcieDefault k) s.pcie k
@[inherit_doc State.pcieAt] def Tx.pcieAt (t : Tx s) (k : Nat) : PcieFn := t.now.pcieAt k
/-- Write entry `k` of `pcie`. -/
def Tx.putPcie (t : Tx s) (k : Nat) (v : PcieFn) : Tx s := t.act (.pcie k v)
/-- Change entry `k` of `pcie`. -/
def Tx.modPcie (t : Tx s) (k : Nat) (f : PcieFn → PcieFn) : Tx s := t.putPcie k (f (t.pcieAt k))
/-- Peer transactions by TAG (R353). -/
def State.peersAt (s : State) (k : Nat) : PeerTxn := mapGet (peersDefault k) s.peers k
@[inherit_doc State.peersAt] def Tx.peersAt (t : Tx s) (k : Nat) : PeerTxn := t.now.peersAt k
/-- Write entry `k` of `peers`. -/
def Tx.putPeers (t : Tx s) (k : Nat) (v : PeerTxn) : Tx s := t.act (.peers k v)
/-- Change entry `k` of `peers`. -/
def Tx.modPeers (t : Tx s) (k : Nat) (f : PeerTxn → PeerTxn) : Tx s := t.putPeers k (f (t.peersAt k))
/-- Peer links L0 to L23 (R345 to R350); 24 is this module's own deliveries. -/
def State.linksAt (s : State) (k : Nat) : Link := mapGet (linksDefault k) s.links k
@[inherit_doc State.linksAt] def Tx.linksAt (t : Tx s) (k : Nat) : Link := t.now.linksAt k
/-- Write entry `k` of `links`. -/
def Tx.putLinks (t : Tx s) (k : Nat) (v : Link) : Tx s := t.act (.links k v)
/-- Change entry `k` of `links`. -/
def Tx.modLinks (t : Tx s) (k : Nat) (f : Link → Link) : Tx s := t.putLinks k (f (t.linksAt k))
/-- Write `txq`. -/
def Tx.putTxq (t : Tx s) (v : (List TxPacket)) : Tx s := t.act (.txq v)
/-- Change `txq`. -/
def Tx.modTxq (t : Tx s) (f : (List TxPacket) → (List TxPacket)) : Tx s := t.putTxq (f t.now.txq)
/-- Loaded graphs by graph id (R219). -/
def State.graphsAt (s : State) (k : Nat) : Graph := mapGet (graphsDefault k) s.graphs k
@[inherit_doc State.graphsAt] def Tx.graphsAt (t : Tx s) (k : Nat) : Graph := t.now.graphsAt k
/-- Write entry `k` of `graphs`. -/
def Tx.putGraphs (t : Tx s) (k : Nat) (v : Graph) : Tx s := t.act (.graphs k v)
/-- Change entry `k` of `graphs`. -/
def Tx.modGraphs (t : Tx s) (k : Nat) (f : Graph → Graph) : Tx s := t.putGraphs k (f (t.graphsAt k))
/-- Memory controllers by MEMC number: 0 to 11 stacks, 12 to 27 far groups (R284). -/
def State.memctlAt (s : State) (k : Nat) : MemCtl := mapGet (memctlDefault k) s.memctl k
@[inherit_doc State.memctlAt] def Tx.memctlAt (t : Tx s) (k : Nat) : MemCtl := t.now.memctlAt k
/-- Write entry `k` of `memctl`. -/
def Tx.putMemctl (t : Tx s) (k : Nat) (v : MemCtl) : Tx s := t.act (.memctl k v)
/-- Change entry `k` of `memctl`. -/
def Tx.modMemctl (t : Tx s) (k : Nat) (f : MemCtl → MemCtl) : Tx s := t.putMemctl k (f (t.memctlAt k))
/-- Write `life`. -/
def Tx.putLife (t : Tx s) (v : LifeLog) : Tx s := t.act (.life v)
/-- Change `life`. -/
def Tx.modLife (t : Tx s) (f : LifeLog → LifeLog) : Tx s := t.putLife (f t.now.life)
/-- Write `cxl`. -/
def Tx.putCxl (t : Tx s) (v : Cxl) : Tx s := t.act (.cxl v)
/-- Change `cxl`. -/
def Tx.modCxl (t : Tx s) (f : Cxl → Cxl) : Tx s := t.putCxl (f t.now.cxl)
/-- Write `hash`. -/
def Tx.putHash (t : Tx s) (v : HashUnit) : Tx s := t.act (.hash v)
/-- Change `hash`. -/
def Tx.modHash (t : Tx s) (f : HashUnit → HashUnit) : Tx s := t.putHash (f t.now.hash)
/-- Write `serge`. -/
def Tx.putSerge (t : Tx s) (v : SergeUnit) : Tx s := t.act (.serge v)
/-- Change `serge`. -/
def Tx.modSerge (t : Tx s) (f : SergeUnit → SergeUnit) : Tx s := t.putSerge (f t.now.serge)
/-- Contexts of preempted tiles by the base of their context area (R226). -/
def State.contextsAt (s : State) (k : Nat) : Context := mapGet (contextsDefault k) s.contexts k
@[inherit_doc State.contextsAt] def Tx.contextsAt (t : Tx s) (k : Nat) : Context := t.now.contextsAt k
/-- Write entry `k` of `contexts`. -/
def Tx.putContexts (t : Tx s) (k : Nat) (v : Context) : Tx s := t.act (.contexts k v)
/-- Change entry `k` of `contexts`. -/
def Tx.modContexts (t : Tx s) (k : Nat) (f : Context → Context) : Tx s := t.putContexts k (f (t.contextsAt k))
/-- Write `power`. -/
def Tx.putPower (t : Tx s) (v : Power) : Tx s := t.act (.power v)
/-- Change `power`. -/
def Tx.modPower (t : Tx s) (f : Power → Power) : Tx s := t.putPower (f t.now.power)
/-- Write `glm`. -/
def Tx.putGlm (t : Tx s) (v : Gloaming) : Tx s := t.act (.glm v)
/-- Change `glm`. -/
def Tx.modGlm (t : Tx s) (f : Gloaming → Gloaming) : Tx s := t.putGlm (f t.now.glm)
/-- Write `epoch`. -/
def Tx.putEpoch (t : Tx s) (v : EpochGen) : Tx s := t.act (.epoch v)
/-- Change `epoch`. -/
def Tx.modEpoch (t : Tx s) (f : EpochGen → EpochGen) : Tx s := t.putEpoch (f t.now.epoch)
/-- Write `sec`. -/
def Tx.putSec (t : Tx s) (v : SecUnit) : Tx s := t.act (.sec v)
/-- Change `sec`. -/
def Tx.modSec (t : Tx s) (f : SecUnit → SecUnit) : Tx s := t.putSec (f t.now.sec)
/-- Error records' latches by BAR0 offset of the page (R475). -/
def State.errPagesAt (s : State) (k : Nat) : ErrPage := mapGet (errPagesDefault k) s.errPages k
@[inherit_doc State.errPagesAt] def Tx.errPagesAt (t : Tx s) (k : Nat) : ErrPage := t.now.errPagesAt k
/-- Write entry `k` of `errPages`. -/
def Tx.putErrPages (t : Tx s) (k : Nat) (v : ErrPage) : Tx s := t.act (.errPages k v)
/-- Change entry `k` of `errPages`. -/
def Tx.modErrPages (t : Tx s) (k : Nat) (f : ErrPage → ErrPage) : Tx s := t.putErrPages k (f (t.errPagesAt k))
/-- Write `tests`. -/
def Tx.putTests (t : Tx s) (v : SelfTest) : Tx s := t.act (.tests v)
/-- Change `tests`. -/
def Tx.modTests (t : Tx s) (f : SelfTest → SelfTest) : Tx s := t.putTests (f t.now.tests)
/-- Queue pairs by QID (R381). -/
def State.queuesAt (s : State) (k : Nat) : Queue := mapGet (queuesDefault k) s.queues k
@[inherit_doc State.queuesAt] def Tx.queuesAt (t : Tx s) (k : Nat) : Queue := t.now.queuesAt k
/-- Write entry `k` of `queues`. -/
def Tx.putQueues (t : Tx s) (k : Nat) (v : Queue) : Tx s := t.act (.queues k v)
/-- Change entry `k` of `queues`. -/
def Tx.modQueues (t : Tx s) (k : Nat) (f : Queue → Queue) : Tx s := t.putQueues k (f (t.queuesAt k))
/-- Sessions by SID (R395). -/
def State.sessionsAt (s : State) (k : Nat) : Session := mapGet (sessionsDefault k) s.sessions k
@[inherit_doc State.sessionsAt] def Tx.sessionsAt (t : Tx s) (k : Nat) : Session := t.now.sessionsAt k
/-- Write entry `k` of `sessions`. -/
def Tx.putSessions (t : Tx s) (k : Nat) (v : Session) : Tx s := t.act (.sessions k v)
/-- Change entry `k` of `sessions`. -/
def Tx.modSessions (t : Tx s) (k : Nat) (f : Session → Session) : Tx s := t.putSessions k (f (t.sessionsAt k))
/-- Write `qe`. -/
def Tx.putQe (t : Tx s) (v : QueueEngine) : Tx s := t.act (.qe v)
/-- Change `qe`. -/
def Tx.modQe (t : Tx s) (f : QueueEngine → QueueEngine) : Tx s := t.putQe (f t.now.qe)
/-- Doorbell latches of the first-light window by function and BAR2 slot, 2^18 · function + slot: the last SQTAIL and CQHEAD (R518). -/
def State.doorbellsAt (s : State) (k : Nat) : (Option Nat × Option Nat) := mapGet (doorbellsDefault k) s.doorbells k
@[inherit_doc State.doorbellsAt] def Tx.doorbellsAt (t : Tx s) (k : Nat) : (Option Nat × Option Nat) := t.now.doorbellsAt k
/-- Write entry `k` of `doorbells`. -/
def Tx.putDoorbells (t : Tx s) (k : Nat) (v : (Option Nat × Option Nat)) : Tx s := t.act (.doorbells k v)
/-- Change entry `k` of `doorbells`. -/
def Tx.modDoorbells (t : Tx s) (k : Nat) (f : (Option Nat × Option Nat) → (Option Nat × Option Nat)) : Tx s := t.putDoorbells k (f (t.doorbellsAt k))
/-- Firmware cores by their number in R503 (R417 to R420). -/
def State.coresAt (s : State) (k : Nat) : FwCore := mapGet (coresDefault k) s.cores k
@[inherit_doc State.coresAt] def Tx.coresAt (t : Tx s) (k : Nat) : FwCore := t.now.coresAt k
/-- Write entry `k` of `cores`. -/
def Tx.putCores (t : Tx s) (k : Nat) (v : FwCore) : Tx s := t.act (.cores k v)
/-- Change entry `k` of `cores`. -/
def Tx.modCores (t : Tx s) (k : Nat) (f : FwCore → FwCore) : Tx s := t.putCores k (f (t.coresAt k))
/-- Mailbox endpoints: of function f, and of management endpoint ID e as 64 + e (R409). -/
def State.mboxesAt (s : State) (k : Nat) : Mailbox := mapGet (mboxesDefault k) s.mboxes k
@[inherit_doc State.mboxesAt] def Tx.mboxesAt (t : Tx s) (k : Nat) : Mailbox := t.now.mboxesAt k
/-- Write entry `k` of `mboxes`. -/
def Tx.putMboxes (t : Tx s) (k : Nat) (v : Mailbox) : Tx s := t.act (.mboxes k v)
/-- Change entry `k` of `mboxes`. -/
def Tx.modMboxes (t : Tx s) (k : Nat) (f : Mailbox → Mailbox) : Tx s := t.putMboxes k (f (t.mboxesAt k))
/-- Write `fw`. -/
def Tx.putFw (t : Tx s) (v : Firmware) : Tx s := t.act (.fw v)
/-- Change `fw`. -/
def Tx.modFw (t : Tx s) (f : Firmware → Firmware) : Tx s := t.putFw (f t.now.fw)
/-- SPDM connections: 0 of the PF's DOE mailbox, 1 + e of management endpoint ID e (R437). -/
def State.spdmAt (s : State) (k : Nat) : Spdm := mapGet (spdmDefault k) s.spdm k
@[inherit_doc State.spdmAt] def Tx.spdmAt (t : Tx s) (k : Nat) : Spdm := t.now.spdmAt k
/-- Write entry `k` of `spdm`. -/
def Tx.putSpdm (t : Tx s) (k : Nat) (v : Spdm) : Tx s := t.act (.spdm k v)
/-- Change entry `k` of `spdm`. -/
def Tx.modSpdm (t : Tx s) (k : Nat) (f : Spdm → Spdm) : Tx s := t.putSpdm k (f (t.spdmAt k))
/-- Write `mgmt`. -/
def Tx.putMgmt (t : Tx s) (v : Mgmt) : Tx s := t.act (.mgmt v)
/-- Change `mgmt`. -/
def Tx.modMgmt (t : Tx s) (f : Mgmt → Mgmt) : Tx s := t.putMgmt (f t.now.mgmt)
/-- Words written and held until the write that makes them take effect, by BAR0 offset (R496). -/
def State.heldAt (s : State) (k : Nat) : (Option Word) := mapGet (heldDefault k) s.held k
@[inherit_doc State.heldAt] def Tx.heldAt (t : Tx s) (k : Nat) : (Option Word) := t.now.heldAt k
/-- Write entry `k` of `held`. -/
def Tx.putHeld (t : Tx s) (k : Nat) (v : (Option Word)) : Tx s := t.act (.held k v)
/-- Change entry `k` of `held`. -/
def Tx.modHeld (t : Tx s) (k : Nat) (f : (Option Word) → (Option Word)) : Tx s := t.putHeld k (f (t.heldAt k))
/-- Add an output. -/
def Tx.emit (t : Tx s) (o : Output) : Tx s := t.act (.out o)

end Sys2Proof.Machine
end

