-- ==== Sys2Proof/Machine/Ledger.lean ====
section
/-!
DEFINITION. The noise ledger (ch. 02): descriptor layout (R34) and checks (R35, R36), exact Q16.16 arithmetic (R42),
curves (R43), the update rows (R44), refusals (R45) and checks (R46).
-/

namespace Sys2Proof.Machine

/-- Read a 256-bit descriptor (R34). -/
def ctdOfNat (x : Nat) : Ctd where
  mbound := signed (bits x 255 240) 16
  noise := bits x 239 224
  scale := bits x 223 192
  addr := bits x 187 128
  ksid := bits x 127 112
  dim := bits x 111 96
  layout := bits x 95 88
  logn := bits x 87 84
  comp := bits x 83 80
  level := bits x 79 72
  pset := bits x 69 64
  kind := bits x 63 60
  lwemod := bits x 58 57
  ntt := bit x 56
  raised := bit x 50
  boot := bit x 49
  ovr := bit x 48
  aux := bits x 47 32
  tag := bits x 31 0
  reserved := bits x 191 188 + bits x 71 70 + bits x 59 59 + bits x 55 51

/-- Write a descriptor as 256 bits (R34); reserved bits are written as zero. -/
def ctdToNat (d : Ctd) : Nat :=
  encodeSigned d.mbound 16 <<< 240 + (d.noise % 2 ^ 16) <<< 224 + (d.scale % 2 ^ 32) <<< 192
    + (d.addr % 2 ^ 60) <<< 128 + (d.ksid % 2 ^ 16) <<< 112 + (d.dim % 2 ^ 16) <<< 96
    + (d.layout % 2 ^ 8) <<< 88 + (d.logn % 16) <<< 84 + (d.comp % 16) <<< 80 + (d.level % 256) <<< 72
    + (d.pset % 64) <<< 64 + (d.kind % 16) <<< 60 + (d.lwemod % 4) <<< 57 + bnat d.ntt <<< 56
    + bnat d.raised <<< 50 + bnat d.boot <<< 49 + bnat d.ovr <<< 48 + (d.aux % 2 ^ 16) <<< 32
    + d.tag % 2 ^ 32

/-- Ring degree of a parameter set. -/
def Pset.n (ps : Pset) : Nat := 2 ^ ps.logn

/-- R35: does the descriptor hold values that its parameter set and kind allow? The key set is `ksid`, the one bound
to the record's session. -/
def ctdLegal (c : PsetCtx) (ksid : Nat) (d : Ctd) : Bool :=
  let ps := c.ps
  ps.live && d.kind < 4 && bit ps.kinds d.kind && d.logn + 10 = ps.logn && d.ksid = ksid && d.reserved = 0 &&
  (match d.kind with
   | 0 => (d.comp = 2 || d.comp = 3) && d.level < ps.numQ && d.lwemod = 0 && d.dim = 0 && (d.boot || d.aux = 0)
   | 1 => (d.comp = 2 || d.comp = 3) && d.level < ps.numQ && d.lwemod = 0 && d.dim = 0 && !d.boot && d.aux = 0
   | 2 => d.comp = 1 && d.level = 0 && !d.ntt && !d.boot && d.aux = 0 &&
      ((d.lwemod = 0 && d.dim + 1 = ps.n) || ((d.lwemod = 1 || d.lwemod = 2) && d.dim + 1 = ps.lweN))
   | _ => d.comp = 2 && d.level < ps.numQ && d.lwemod = 0 && d.dim = 0 && !d.boot &&
      d.aux = ps.gauze.glev * 256 + ps.gauze.bgLog)

/-- R36: an input descriptor is refused (none), or admitted with NOISE raised to FRESH_NOISE; the Bool says whether it
was raised. -/
def admitInput (ps : Pset) (d : Ctd) : Option (Ctd × Bool) :=
  if !ps.live || d.ovr || d.boot then none
  else if d.noise < ps.freshNoise then some ({ d with noise := ps.freshNoise, raised := true }, true)
  else some (d, false)

/-- A Q8.8 value in Q16.16. -/
def q16 (v : Int) : Int := 256 * v

/-- Interpolation between neighbouring points (R43), at `x` in Q16.16; the result is Q8.8 rounded toward +∞. -/
def interp (pts : List (Int × Int)) (x : Int) : Int :=
  match pts with
  | [] => 0
  | [p] => p.2
  | p :: q :: r =>
    if x ≤ q16 p.1 then p.2
    else if x ≤ q16 q.1 then
      p.2 + ceilI ((q.2 - p.2) * (x - q16 p.1)) (q16 q.1 - q16 p.1).toNat
    else interp (q :: r) x

/-- Curve `k` of a parameter set at `x` in Q16.16; the result is in Q16.16. -/
def curveAt (ps : Pset) (k : Nat) (x : Int) : Int := q16 (interp (ps.curves.getD k []) x)

/-- LA of R42: combines independent noises. -/
def la (ps : Pset) (a b : Int) : Int := max a b + curveAt ps 0 (a - b).natAbs

/-- LS of R42: bounds a sum of magnitudes. -/
def ls (ps : Pset) (a b : Int) : Int := max a b + curveAt ps 1 (a - b).natAbs

/-- The three ledger fields in Q16.16, before they are stored. -/
structure LedgerVals where
  scale : Int
  mbound : Int
  noise : Int
  deriving DecidableEq, Repr

/-- The fields of a descriptor in Q16.16. -/
def ctdVals (d : Ctd) : LedgerVals := ⟨d.scale, q16 d.mbound, q16 d.noise⟩

/-- R42: store the ledger fields with their roundings and clamps; the Bool says whether a field saturated. -/
def storeVals (d : Ctd) (v : LedgerVals) : Ctd × Bool :=
  let n := ceilI v.noise 256
  let m := ceilI v.mbound 256
  ({ d with
      noise := if n < 0 then 0 else if 0xFFFF < n then 0xFFFF else n.toNat
      mbound := if m < -0x8000 then -0x8000 else if 0x7FFF < m then 0x7FFF else m
      scale := if v.scale < 0 then 0 else if 0xFFFFFFFF < v.scale then 0xFFFFFFFF else v.scale.toNat },
   0xFFFF < n || 0x7FFF < m || v.scale < 0 || 0xFFFFFFFF < v.scale)

/-- The operations of the update table (R44) with their operands. `mp`, `ws`, `wb` and `st` are in Q16.16. -/
inductive LedgerOp
  | add
  | addPlain (mp : Int)
  | mulConst (c : Int)
  | weights (ws wb : Int)
  | tensor
  | keySwitch
  | rescale
  | modSwitch
  | levelDrop (level : Nat)
  | toNtt (f : Bool)
  | modRaise
  | modRed
  | extract
  | lweKs
  | lweModsw
  | blindrot (p : Nat)
  | repack (st : Int) (bundle level : Nat)
  | copy
  deriving DecidableEq, Repr

/-- log2 of a ciphertext's modulus in Q16.16 (LOG2Q, ch. 02). -/
def log2Q (c : PsetCtx) (d : Ctd) : Int :=
  if d.kind = 2 then
    if d.lwemod = 0 then (c.l2.getD 0 0 : Nat)
    else if d.lwemod = 1 then (c.ps.lweLogq * 65536 : Nat)
    else ((c.ps.logn + 1) * 65536 : Nat)
  else ((c.l2.take (d.level + 1)).sum : Nat)

/-- R45: is the combination of sources refused with RANGE? -/
def sourcesRefused (c : PsetCtx) (op : LedgerOp) : List Ctd → Bool
  | [a] =>
    match op with
    | .modRed => !a.boot || !(a.level + 1 + c.ps.evalmodDepth ≤ c.ps.numQ)
    | .modRaise => a.level ≠ 0 || a.kind ≠ 0
    | .rescale => a.kind ≠ 0 || a.level = 0
    | .modSwitch => a.kind ≠ 1 || a.level = 0 || c.ps.bgvT = 0 || c.q.getD a.level 1 ∣ c.ps.bgvT
    | .levelDrop l => !(l ≤ a.level)
    | .extract => a.level ≠ 0
    | .mulConst k => k = 0
    | _ => false
  | a :: b :: _ =>
    a.pset ≠ b.pset || a.ksid ≠ b.ksid || a.kind ≠ b.kind || a.level ≠ b.level || a.boot ≠ b.boot ||
    (a.boot && a.aux ≠ b.aux) ||
    (op = .add && a.kind = 0 && c.ps.scaleTol < (max a.scale b.scale) - (min a.scale b.scale))
  | [] => true

/-- R44: the destination descriptor and whether a field saturated. The first source is `a`, the second `b`. Three points that R44 leaves
open (DESIGN CHOICE, log entry 66): the arrangement bits of LAYOUT in the destination of EXTRACT and REPACK, which R44's copy would leave at
a value that R260 refuses for the new kind, become BUNDLE and LIMBWISE; a tensor product of a kind other than CKKS and BGV, for which it has
no row, takes the CKKS row; and log2 B of REPACK_NOISE is rounded up to Q16.16. -/
def ledgerRow (c : PsetCtx) (op : LedgerOp) (a b : Ctd) : Ctd × Bool :=
  let ps := c.ps
  let v := ctdVals a
  let w := ctdVals b
  let mg := curveAt ps 2 (a.level * 65536 : Nat)
  let enc := q16 ps.encNoise
  let l2 : Int := (c.l2.getD a.level 0 : Nat)
  let d := { a with ovr := a.ovr || b.ovr }
  match op with
  | .add => storeVals d ⟨max v.scale w.scale, ls ps v.mbound w.mbound, la ps v.noise w.noise⟩
  | .addPlain mp => storeVals d ⟨v.scale, ls ps v.mbound mp, la ps v.noise (v.scale + enc)⟩
  | .mulConst k => let l : Int := (log2UpQ16 k.natAbs : Nat); storeVals d ⟨v.scale, v.mbound + l, v.noise + l⟩
  | .weights ws wb =>
    if a.kind = 1 then storeVals d ⟨v.scale, v.mbound + wb, v.noise + wb + mg⟩
    else storeVals d ⟨v.scale + ws, v.mbound + wb,
      la ps (v.noise + ws + wb) (v.scale + v.mbound + enc) + mg⟩
  | .tensor =>
    let d := { d with comp := 3 }
    if a.kind = 1 then storeVals d ⟨v.scale, v.mbound + w.mbound,
      la ps (la ps (v.mbound + w.noise) (w.mbound + v.noise)) (v.noise + w.noise + v.scale) + mg⟩
    else storeVals d ⟨v.scale + w.scale, v.mbound + w.mbound,
      la ps (la ps (v.mbound + v.scale + w.noise) (w.mbound + w.scale + v.noise)) (v.noise + w.noise) + mg⟩
  | .keySwitch => storeVals { d with comp := 2 }
      ⟨v.scale, v.mbound, la ps v.noise (curveAt ps 3 (a.level * 65536 : Nat))⟩
  | .rescale => storeVals { d with level := a.level - 1 }
      ⟨v.scale - l2, v.mbound, la ps (v.noise - l2) (curveAt ps 4 ((a.level - 1) * 65536 : Nat))⟩
  | .modSwitch => storeVals { d with level := a.level - 1 }
      ⟨v.scale, v.mbound, la ps (v.noise - l2) (curveAt ps 4 ((a.level - 1) * 65536 : Nat))⟩
  | .levelDrop l => ({ d with level := l }, false)
  | .toNtt f => ({ d with ntt := f }, false)
  | .modRaise => storeVals { d with level := ps.numQ - 1, aux := encodeSigned a.mbound 16, boot := true }
      ⟨v.scale, (c.l2.getD 0 0 : Nat) + q16 ps.raiseI - v.scale, v.noise⟩
  | .modRed => storeVals { d with boot := false, aux := 0 }
      ⟨v.scale, q16 (signed a.aux 16), la ps v.noise (curveAt ps 9 (q16 (signed a.aux 16)))⟩
  | .extract => ({ d with kind := 2, dim := ps.n - 1, lwemod := 0, comp := 1, ntt := false, layout := a.layout % 64 + 128 }, false)
  | .lweKs =>
    let s := log2Q c a - (ps.lweLogq * 65536 : Nat)
    storeVals { d with dim := ps.lweN - 1, lwemod := 1 }
      ⟨v.scale - s, v.mbound, la ps (v.noise - s) (curveAt ps 6 0)⟩
  | .lweModsw =>
    let s : Int := (ps.lweLogq * 65536 : Nat) - ((ps.logn + 1) * 65536 : Nat)
    storeVals { d with lwemod := 2 }
      ⟨v.scale - s, v.mbound, la ps (v.noise - s) (curveAt ps 5 ((ps.logn + 1) * 65536 : Nat))⟩
  | .blindrot p => storeVals { d with lwemod := 1 }
      ⟨(ps.lweLogq * 65536 : Nat) - (p * 65536 : Nat) - 65536, (p * 65536 : Nat),
       curveAt ps 7 ((p + 1) * 65536 : Nat)⟩
  | .repack st bundle l =>
    storeVals { d with kind := 0, level := l, comp := 2, lwemod := 0, dim := 0, layout := a.layout % 64 }
      ⟨st, v.mbound, la ps (v.noise + st - v.scale) (curveAt ps 8 (log2UpQ16 bundle : Nat))⟩
  | .copy => (d, false)

/-- What R46 needs to know beyond the destination: whether a field saturated, a negacyclic-safe lookup, the log2 of a
lookup's output count (R154), a weight sum that saturated (R139), and the source of a MODRAISE. -/
structure CheckCtx where
  saturated : Bool := false
  nega : Bool := false
  outsLog : Nat := 0
  maxMbound : Bool := false
  raiseSrc : Option Ctd := none
  deriving DecidableEq, Repr

/-- R46: the codes of the failing checks, ascending. -/
def failingChecks (c : PsetCtx) (d : Ctd) (k : CheckCtx) : List Nat :=
  let v := ctdVals d
  let lq := log2Q c d
  let m := q16 c.ps.margin
  let one : Int := 65536
  (if d.kind < 3 ∧ ¬ (v.scale + v.mbound + (if k.nega then 0 else one) ≤ lq) then [1] else [])
  ++ (if d.kind = 0 ∧ ¬ (q16 c.ps.minprec ≤ v.scale - v.noise) then [2] else [])
  ++ (if d.kind = 1 ∧ ¬ (v.scale + v.noise + m ≤ lq - one) then [3] else [])
  ++ (if d.kind = 2 ∧ ¬ (v.noise + m ≤ v.scale - (k.outsLog * 65536 : Nat) - one) then [4] else [])
  ++ (if k.saturated then [5] else [])
  ++ (match k.raiseSrc with
      | some s => if d.kind = 0 ∧ ¬ (s.mbound ≤ c.ps.bootMbound) then [6] else []
      | none => [])

/-- The outcome of a ledger update: refused (RANGE), failing a check with the lowest code and the computed
descriptor, or passing. -/
inductive LedgerOut
  | refused
  | failed (code : Nat) (d : Ctd)
  | passed (d : Ctd)
  deriving DecidableEq, Repr

/-- R44 to R46 in one: refusals, row, checks. -/
def ledger (c : PsetCtx) (op : LedgerOp) (srcs : List Ctd) (k : CheckCtx) : LedgerOut :=
  if sourcesRefused c op srcs then .refused
  else
    let a := srcs.getD 0 {}
    let b := srcs.getD 1 {}
    let r := ledgerRow c op a { b with ovr := b.ovr && 1 < srcs.length }
    let r := if k.maxMbound then ({ r.1 with mbound := 0x7FFF }, true) else r
    let k := { k with saturated := k.saturated || r.2, raiseSrc := if op = .modRaise then some a else none }
    match failingChecks c r.1 k with
    | [] => .passed r.1
    | code :: _ => .failed code r.1

/-- Does a failing check trap (R47: LMODE 0 or FORCE_TRAP)? -/
def traps (ps : Pset) (forceTrap : Bool) : Bool := ps.lmode = 0 || forceTrap

end Sys2Proof.Machine
end

