-- ==== Sys2Proof/Machine/Ops.lean ====
section
/-!
DEFINITION. The named operations over registers, memory, error records and interrupts that every command's meaning is
written with.
-/

namespace Sys2Proof.Machine

variable {s : State}

/-! ### Registers -/

/-- The words that hold bits `lo` to `hi` of a register starting at BAR0 offset `a`, as one number from bit 0 of the
first of them. -/
def State.regSpan (s : State) (a : Nat) : Nat → Nat
  | 0 => 0
  | n + 1 => s.regSpan a n + (s.regsAt (a + 4 * n)).toNat <<< (32 * n)

/-- The value of a field, of register number `k` of page number `n` (R8). -/
def State.fld (s : State) (f : Fld) (n : Nat := 0) (k : Nat := 0) : Nat :=
  let w := f.lo / 32
  bits (s.regSpan (f.addr n k + 4 * w) (f.hi / 32 + 1 - w)) (f.hi - 32 * w) (f.lo - 32 * w)

@[inherit_doc State.fld] def Tx.fld (t : Tx s) (f : Fld) (n : Nat := 0) (k : Nat := 0) : Nat := t.now.fld f n k

/-- A one-bit field as a truth value. -/
def State.flag (s : State) (f : Fld) (n : Nat := 0) (k : Nat := 0) : Bool := s.fld f n k ≠ 0
@[inherit_doc State.flag] def Tx.flag (t : Tx s) (f : Fld) (n : Nat := 0) (k : Nat := 0) : Bool := t.now.flag f n k

/-- The word of a register whose writes take effect at a later boundary, as it is in effect: the value before the
writes that still wait (R48, R72, R150, R195, ...). -/
def State.regEff (s : State) (k : Nat) : Word := (s.deferredAt k).getD (s.regsAt k)

/-- A field of one word as it is in effect. -/
def Tx.fldEff (t : Tx s) (f : Fld) (n : Nat := 0) (k : Nat := 0) : Nat :=
  bits (t.now.regEff (f.addr n k + 4 * (f.lo / 32))).toNat (f.hi % 32) (f.lo % 32)

/-- A one-bit field as it is in effect. -/
def Tx.flagEff (t : Tx s) (f : Fld) (n : Nat := 0) (k : Nat := 0) : Bool := t.fldEff f n k ≠ 0

/-- Write `n` consecutive register words from `a`, the low word first. -/
def Tx.putSpan (t : Tx s) (a : Nat) : Nat → Nat → Tx s
  | 0, _ => t
  | n + 1, v => (t.putRegs a (BitVec.ofNat 32 v)).putSpan (a + 4) n (v >>> 32)

/-- Give a field a value; the register's other bits stay. -/
def Tx.setFld (t : Tx s) (f : Fld) (v : Nat) (n : Nat := 0) (k : Nat := 0) : Tx s :=
  let w := f.lo / 32
  let c := f.hi / 32 + 1 - w
  let a := f.addr n k + 4 * w
  t.putSpan a c (setBits (t.now.regSpan a c) (f.hi - 32 * w) (f.lo - 32 * w) v)

/-- Add to a counter field that saturates at all ones (R10, RC counters). -/
def Tx.bump (t : Tx s) (f : Fld) (by_ : Nat := 1) (n : Nat := 0) (k : Nat := 0) : Tx s :=
  t.setFld f (min (t.fld f n k + by_) (2 ^ f.width - 1)) n k

/-- EPOCH.COUNT (R303, R321). -/
def State.epochCount (s : State) : Nat := s.fld EPOCH.COUNTLO.COUNT + s.fld EPOCH.COUNTHI.COUNT <<< 32

/-- This module's device ID. -/
def State.devId (s : State) : Nat := s.fld ROUTER.CTL.DEVID

/-- The global address of the line that holds a device-local address (R14, R474). -/
def State.globalLine (s : State) (a : Nat) : Nat := s.devId <<< 44 + a % 2 ^ 44 / 64 * 64

/-- A conditional update. -/
def Tx.when (t : Tx s) (c : Bool) (f : Tx s → Tx s) : Tx s := if c then f t else t

/-- Apply an update for every element of a list, in order. -/
def Tx.forEach {α : Type} (t : Tx s) (l : List α) (f : Tx s → α → Tx s) : Tx s := l.foldl f t

/-! ### Interrupts (R501) -/

/-- PF summary bit of a page (table "Interrupt delivery"); none for pages of the secure world. -/
def summaryBit (p : Page) (n : Nat) : Option Nat :=
  match p with
  | .CLUSTER | .MUSLIN | .SCACHE => some n
  | .TILE => some (n / 8)
  | .CHIP | .RESET | .STRAP | .EPOCH | .LIFE | .ERRSYS => some 8
  | .FWC | .PRIMETAB => some 9
  | .SEAL => some 10
  | .SERGE => if n < 4 then some 10 else none
  | .PWR | .GLM => some 11
  | .QE | .FN | .MBOX => some 12
  | .LINK | .ROUTER => some 13
  | .MEMC | .MEMSYS | .ORDER => some 14
  | _ => none

/-- Does the page interrupt the PF: IRQ_STAT AND IRQ_EN not zero, WORLD 0, and it has a summary bit (R501)? -/
def State.pageInterrupts (s : State) (p : Page) (n : Nat) : Bool :=
  s.fld (HDR.IRQ_STAT p) n &&& s.fld (HDR.IRQ_EN p) n ≠ 0 && s.fld (HDR.OWNER.WORLD p) n = 0

/-- CHIP.IRQSUM.SUM: the summary bits of the pages that interrupt. Only pages whose IRQ_STAT word is listed can. -/
def State.irqSum (s : State) : Nat :=
  s.regs.foldl (fun m kv =>
    if kv.1 % 0x1000 = 0x2C then
      match bar0 kv.1 with
      | some (p, n, 0x2C) =>
        match summaryBit p n with
        | some b => if s.pageInterrupts p n then m ||| 2 ^ b else m
        | none => m
      | _ => m
    else m) 0

/-- The MSI-X table entry's Vector Control word of a function's vector, and the word of its pending bit; none where the function
has no such vector (R371). -/
def msixAt (f v : Nat) : Option (Nat × Nat) :=
  if f = 0 then (if v < 2048 then some ((Page.MSIXPF).base 0 + 16 * v + 12, (Page.PBAPF).base 0 + 4 * (v / 32)) else none)
  else if v < 32 then some ((Page.MSIX).base f + 16 * v + 12, (Page.PBA).base f) else none

/-- Send a vector of a function (R386): nothing while MSI-X is disabled, its pending bit while the vector or the function is
masked, else the message. -/
def Tx.msix (t : Tx s) (f v : Nat) : Tx s :=
  match msixAt f v with
  | none => t
  | some (c, p) =>
    let x := t.now.pcieAt f
    if !x.msixOn then t
    else if x.msixMask || bit (t.regsAt c).toNat 0 then t.putRegs p (t.regsAt p ||| BitVec.ofNat 32 (2 ^ (v % 32)))
    else t.emit (.msix f v)

/-- After an update: CHIP.IRQCTL.VECTOR is sent when the summary changes from zero to nonzero and IEN is 1 (R501). -/
def Tx.irqEdge (t : Tx s) (f : Tx s → Tx s) : Tx s :=
  let u := f t
  if t.now.irqSum = 0 ∧ u.now.irqSum ≠ 0 ∧ u.flag CHIP.IRQCTL.IEN then u.msix 0 (u.fld CHIP.IRQCTL.VECTOR)
  else u

/-- An event source of a page rises for one cycle: its IRQ_STAT bit is set (R501; log entry 31). -/
def Tx.raiseIrq (t : Tx s) (p : Page) (n b : Nat) : Tx s :=
  t.irqEdge fun t => t.setFld (HDR.IRQ_STAT p) (t.fld (HDR.IRQ_STAT p) n ||| 2 ^ b) n

/-- A source that shows a condition takes its level: while it is 1 its IRQ_STAT bit is set (R501). -/
def Tx.levelIrq (t : Tx s) (p : Page) (n b : Nat) (on : Bool) : Tx s :=
  let raw := t.fld (HDR.IRQ_RAW p) n
  if on then (t.setFld (HDR.IRQ_RAW p) (raw ||| 2 ^ b) n).raiseIrq p n b
  else t.setFld (HDR.IRQ_RAW p) (if bit raw b then raw - 2 ^ b else raw) n

/-- Write a register word that takes effect at a later boundary: the word in effect is kept until then. -/
def Tx.writeDeferred (t : Tx s) (off : Nat) (v : Word) : Tx s :=
  (if (t.now.deferredAt off).isNone then t.putDeferred off (some (t.regsAt off)) else t).putRegs off v

/-- The written word of a register takes effect. -/
def Tx.commitWord (t : Tx s) (off : Nat) : Tx s := t.putDeferred off none

/-- Return the words of a page to their reset values, but for the bits that `keep` gives each word by its offset (R502); nothing
stays held for it. -/
def Tx.resetPage (t : Tx s) (p : Page) (n : Nat) (keep : Nat → Word := fun _ => 0) : Tx s :=
  let ks := (t.now.regs.filter fun kv => p.base n ≤ kv.1 && kv.1 < p.base n + p.size).map (·.1)
  let hs := (t.now.held.filter fun kv => p.base n ≤ kv.1 && kv.1 < p.base n + p.size).map (·.1)
  let ds := (t.now.deferred.filter fun kv => p.base n ≤ kv.1 && kv.1 < p.base n + p.size).map (·.1)
  let t := (t.forEach hs fun t k => t.putHeld k none).forEach ds fun t k => t.putDeferred k none
  t.forEach ks fun t k =>
    let m := keep (k - p.base n)
    t.putRegs k ((t.regsAt k &&& m) ||| (resetWord k &&& ~~~m))

/-! ### Life-log counts (R489, R490) -/

/-- Add to a sparse count. -/
def addCount (m : List (Nat × Nat)) (k by_ : Nat) : List (Nat × Nat) := mapInsert m k (mapGet 0 m k + by_)

/-- Gather one or more into a life-log counter (R489). -/
def Tx.lifeCount (t : Tx s) (k : Nat) (by_ : Nat := 1) : Tx s :=
  t.putLife { t.now.life with counts := addCount t.now.life.counts k by_ }

/-- Gather an event record (R490). -/
def Tx.lifeEvent (t : Tx s) (r : Nat) : Tx s := t.putLife { t.now.life with events := t.now.life.events ++ [r] }

/-- The life-log counter of an error of a class in a page, where it has one (table "Counters"). -/
def lifeIndex (p : Page) (n cls : Nat) : Option Nat :=
  match p with
  | .MEMC => if cls = 1 then some (if n < 12 then 12 + n else 24 + n) else if cls = 2 then some (if n < 12 then 24 + n else 40 + n)
      else none
  | .TILE => if cls = 1 then some (68 + n / 8) else if cls = 2 then some (92 + n / 8) else none
  | .SCACHE | .MUSLIN => if cls = 1 then some (84 + n) else if cls = 2 then some (92 + n) else none
  | .CLUSTER => if cls = 2 then some (92 + n) else none
  | _ => none

/-! ### Error records (R473 to R475) -/

/-- The class a status has by itself (R473): UCC 2, PROTO 4, PROG 5. -/
def Status.cls : Status → Nat
  | .POISON | .TIMEOUT | .ABORTED => 2
  | .PROTO | .VERSION => 4
  | _ => 5

/-- An error to log; its record by number, or by queue and ring index. -/
structure Err where
  status : Status
  cls : Nat
  src : Nat := 0
  addr : Nat := 0
  detail : Nat := 0
  rec? : Option Nat := none
  qr? : Option (Nat × Nat) := none
  deriving DecidableEq, Repr

/-- The 256-bit error record of R474. -/
def errRecord (s : State) (e : Err) : Nat :=
  let r := s.recordsAt (e.rec?.getD 0)
  let qr := if e.rec?.isSome then some (r.qid, r.ridx) else e.qr?
  (e.detail % 2 ^ 64) <<< 192 + (e.addr % 2 ^ 60) <<< 132 + (s.epochCount % 2 ^ 64) <<< 64
    + (match qr with
       | some x => (x.1 % 2 ^ 18) <<< 46 + (x.2 % 2 ^ 16) <<< 30 + 1 <<< 22
       | none => 0)
    + (e.src % 64) <<< 24 + e.cls <<< 19 + e.status.code

/-- Log an error in a page (R475): count it in ERR_CNT, ERRSYS.CNT and the life log, raise ERRSYS's UCC or UCF source,
and replace the record or set OVF. A UCF goes into the event ring (R490). -/
def Tx.logError (t : Tx s) (p : Page) (n : Nat) (e : Err) : Tx s :=
  let held := t.fld (HDR.ERR_LOG.CLASS p) n
  let r := errRecord t.now e
  let t' := (t.bump (HDR.ERR_CNT.COUNT p) 1 n).bump ERRSYS.CNT.COUNT 1 0 (e.cls - 1)
  let t' := match lifeIndex p n e.cls with
    | some k => t'.lifeCount k
    | none => t'
  let q := t.now.errPagesAt (p.base n)
  let t' := if ((e.cls = 2 ∨ e.cls = 3) ∧ held ≤ e.cls) ∨ held = 1 ∨ held = 4 ∨ held = 5 ∨ held = 0 ∨ q.free then
    (t'.putSpan (p.base n + 0x40) 8 r).putErrPages (p.base n) { q with free := false }
  else t'.setFld (HDR.ERR_LOG.OVF p) 1 n
  if e.cls = 2 then t'.raiseIrq .ERRSYS 0 0 else if e.cls = 3 then (t'.raiseIrq .ERRSYS 0 1).lifeEvent r else t'

/-- Log a status with its own class and nothing else. -/
def Tx.logStatus (t : Tx s) (p : Page) (n : Nat) (st : Status) : Tx s := t.logError p n { status := st, cls := st.cls }

/-! ### Memory (R14, R478) -/

/-- Device-local address of a tile's scratchpad (R14). -/
def spadBase (tile : Nat) : Nat := 0x20000000000 + tile * 0x2000000

/-- Bytes of a scratchpad (R14). -/
def spadBytes : Nat := 0x2000000

/-- The end of a tile's usable scratchpad (R240, R245). -/
def State.spadEnd (s : State) (tile : Nat) : Nat := s.fld TILE.SPAD_SIZE.SIZE tile * 0x80000

/-- Read bytes at a device-local address. -/
def State.read (s : State) (a n : Nat) : List Byte := memReadBytes s.mem a n

/-- Read 32-bit words at a device-local address. -/
def State.readWords (s : State) (a n : Nat) : List Nat := bytesWords (s.read a (4 * n))

/-- The numbers of the 64-byte lines that hold bytes `a` to `a + n − 1`. -/
def linesOf (a n : Nat) : List Nat := if n = 0 then [] else (List.range ((a + n - 1) / 64 + 1 - a / 64)).map (a / 64 + ·)

/-- The first poisoned line among those of a range (R478). -/
def State.firstPoison (s : State) (a n : Nat) : Option Nat :=
  (s.poison.find? fun kv => a / 64 ≤ kv.1 && kv.1 * 64 < a + n).map (·.1)

/-- Is any line of the range poisoned? -/
def State.poisoned (s : State) (a n : Nat) : Bool := (s.firstPoison a n).isSome

/-- Remove map entries with keys in a range: one update per listed key. -/
def keysIn {α : Type} (m : SMap α) (lo hi : Nat) : List Nat := (m.filter fun kv => lo ≤ kv.1 && kv.1 < hi).map (·.1)

/-- Write bytes at a device-local address. A whole-line write removes the line's poison (R478); any write to a
scratchpad row removes its key tag (R110). -/
def Tx.write (t : Tx s) (a : Nat) (bs : List Byte) : Tx s :=
  let n := bs.length
  if n = 0 then t
  else
    let t := t.act (.mem a bs)
    let t := t.forEach (keysIn t.now.poison ((a + 63) / 64) ((a + n) / 64)) fun t k => t.putPoison k false
    t.forEach (keysIn t.now.landTag (a / 64) ((a + n - 1) / 64 + 1)) fun t k => t.putLandTag k 0

/-- Write 32-bit words. -/
def Tx.writeWords (t : Tx s) (a : Nat) (ws : List Nat) : Tx s := t.write a (wordsBytes ws)

/-- Poison the lines of a range (R478). -/
def Tx.poisonRange (t : Tx s) (a n : Nat) : Tx s := t.forEach (linesOf a n) fun t k => t.putPoison k true

/-- Zero a range of memory and its poison. -/
def Tx.zeroRange (t : Tx s) (a n : Nat) : Tx s :=
  let t := t.forEach (keysIn t.now.mem a (a + n)) fun t k => t.act (.mem k [0])
  let t := t.forEach (keysIn t.now.poison (a / 64) ((a + n + 63) / 64)) fun t k => t.putPoison k false
  t.forEach (keysIn t.now.landTag (a / 64) ((a + n + 63) / 64)) fun t k => t.putLandTag k 0

/-! ### Parameter sets and primes (R56, R61) -/

/-- The prime of a prime table slot (R56). -/
def State.primeQ (s : State) (slot : Nat) : Nat := bits (s.primesAt slot) 31 0

/-- Is the slot validated (R56)? -/
def State.primeValid (s : State) (slot : Nat) : Bool := bit (s.primesAt slot) 127

/-- A parameter set with the primes it names (R61, R66). -/
def State.psetCtx (s : State) (n : Nat) : PsetCtx :=
  let ps := s.psetsAt n
  let e := ps.qslot.map s.primesAt
  let f := ps.pslot.map s.primesAt
  { ps := ps, q := e.map (bits · 31 0), p := f.map (bits · 31 0), l2 := e.map (bits · 63 32),
    root := e.map (bits · 95 64), proot := f.map (bits · 95 64),
    mont := e.map (bit · 126), pmont := f.map (bit · 126) }

/-! ### Free values (log entry 1) -/

/-- Take the next number of the free-value counter. -/
def Tx.freshen (t : Tx s) : Tx s := t.putFresh (t.now.fresh + 1)

/-- Leave `n` bytes at `a` undefined: they hold a free value. -/
def Tx.spoilBytes (t : Tx s) (a n : Nat) : Tx s := t.freshen.act (.mem a (natLe n (Config.draw t.now.fresh % 256 ^ n)))

/-- An event record whose status and class the spec does not state (R490): free. -/
def Tx.lifeNote (t : Tx s) : Tx s :=
  let x := Config.draw t.now.fresh
  t.freshen.lifeEvent (errRecord t.now { status := statusOfCode (x % 256), cls := 1 + x / 256 % 5 })

end Sys2Proof.Machine
end

