-- ==== Sys2Proof/Machine/Flags.lean ====
section
/-!
DEFINITION. Flags and counters of a tile (R204 to R206), tile channels and tokens (R215, R217), and how a stream marks
its epoch perturbed (R16, R313).
-/

namespace Sys2Proof.Machine

variable {s : State}

/-- 32-bit words that a data queue holds (R201). -/
def queueWords : Nat := 4096

/-- The tiles of a cluster (R14). -/
def clusterTiles (cl : Nat) : List Nat := (List.range 8).map (8 * cl + ·)

/-! ### WAIT conditions (R204) -/

/-- A WAIT condition with legal fields: index and value zero for KIND 0, value zero for flags, a counter below 16. -/
def waitLegal (c : Nat) : Bool :=
  match bits c 23 22 with
  | 0 => bits c 21 0 = 0
  | 3 => bits c 21 16 < 16
  | _ => bits c 15 0 = 0

/-- Does the condition hold for the tile's flags and counters? -/
def waitHolds (x : Tile) (c : Nat) : Bool :=
  match bits c 23 22 with
  | 0 => true
  | 3 => (x.ctrs.getD (bits c 21 16) 0 + 0x10000 - bits c 15 0) % 0x10000 < 0x8000
  | _ => bit x.flags (bits c 21 16)

/-- A flag number cleared in a flag word. -/
def clearFlag (fl i : Nat) : Nat := if bit fl i then fl - 2 ^ i else fl

/-- A KIND 2 condition clears its flag when the instruction issues. -/
def consume (x : Tile) (c : Nat) : Tile :=
  if bits c 23 22 = 2 then { x with flags := clearFlag x.flags (bits c 21 16) } else x

/-! ### SIGNAL (R205) -/

/-- A SIGNAL with legal fields; a token must name a bound channel. -/
def signalLegal (x : Tile) (g : Nat) : Bool :=
  match bits g 11 10 with
  | 0 => bits g 9 0 = 0
  | 1 => true
  | 2 => bits g 9 4 < 16
  | _ => bits g 9 4 < 16 && (x.chans.getD (bits g 9 4) {}).bound

/-- Add to a counter modulo 2^16. -/
def addCtr (x : Tile) (c n : Nat) : Tile :=
  { x with ctrs := x.ctrs.set c ((x.ctrs.getD c 0 + n) % 0x10000), progress := true }

/-- Set a flag. -/
def setFlag (x : Tile) (i : Nat) : Tile := { x with flags := x.flags ||| 2 ^ i, progress := true }

/-! ### Tile channels (R215 to R217) -/

/-- Lines waiting in a receive buffer. -/
def RxBuf.lines (r : RxBuf) : Nat := (r.items.filter fun i => match i with | .line _ => true | _ => false).length

/-- Tokens at the head of a receive buffer, and what follows them. -/
def splitTokens : List RxItem → Nat × List RxItem
  | .token n :: r => ((splitTokens r).1 + n, (splitTokens r).2)
  | r => (0, r)

/-- Take tokens at the head, then, while a message is in admission and DQ is open with room for a line, its lines into DQ; fuel
bounds the items. -/
def rxAdvance : Nat → Tile → Nat → Tile
  | 0, x, _ => x
  | f + 1, x, key =>
    let r := mapGet {} x.rx key
    match r.items with
    | .token n :: rest =>
      rxAdvance f (addCtr { x with rx := mapPut {} x.rx key { r with items := rest } } r.dctr n) key
    | .line ws :: rest =>
      if r.left = 0 then x
      else
        let q := x.inq.getD r.dq {}
        if !q.opened || queueWords < q.words.length + ws.length then x
        else
        let x := { x with
          rx := mapPut {} x.rx key { r with items := rest, left := r.left - 1 }
          inq := x.inq.set r.dq { q with words := q.words ++ ws }, progress := true }
        rxAdvance f (if r.left = 1 then addCtr x r.dctr 1 else x) key
    | [] => x

/-- A receive buffer gives up all it can. -/
def Tile.rxRun (x : Tile) (key : Nat) : Tile := rxAdvance (mapGet {} x.rx key).items.length x key

/-- The destination tiles of a channel of tile `i`. -/
def chanDests (i : Nat) (c : Channel) : List Nat :=
  ((List.range 8).filter (bit c.dmask ·)).map (8 * (i / 8) + ·)

/-- Put an item into the receive buffers of a channel's destinations. -/
def Tx.postItem (t : Tx s) (i c : Nat) (ch : Channel) (it : RxItem) : Tx s :=
  t.forEach (chanDests i ch) fun t d =>
    t.modTiles d fun x =>
      let key := 16 * (i % 8) + c
      let r := mapGet {} x.rx key
      let r := { r with items := r.items ++ [it], dq := ch.dq, dctr := ch.dctr, msglen := ch.msglen }
      { x with rx := mapPut {} x.rx key r }.rxRun key

/-- Has every destination credit for one more line (64 per channel, R215)? -/
def State.chanCredit (s : State) (i c : Nat) (ch : Channel) : Bool :=
  (chanDests i ch).all fun d => (mapGet {} (s.tilesAt d).rx (16 * (i % 8) + c)).lines < 64

/-- Send what channel `c` of tile `i` can: tokens whose words have gone, and whole lines while credit lasts. -/
def Tx.drainChan (t : Tx s) (i c : Nat) : Nat → Tx s
  | 0 => t
  | f + 1 =>
    let x := t.tilesAt i
    let ch := x.chans.getD c {}
    let q := x.outq.getD ch.sq {}
    match ch.toks with
    | (0, n) :: rest =>
      ((t.modTiles i fun x => { x with chans := x.chans.set c { ch with toks := rest } }).postItem i c ch
        (.token n)).drainChan i c f
    | _ =>
      if 16 ≤ q.words.length ∧ t.now.chanCredit i c ch then
        ((t.modTiles i fun x => { x with
            outq := x.outq.set ch.sq { q with words := q.words.drop 16 }
            chans := x.chans.set c { ch with toks := ch.toks.map fun kn => (kn.1 - 16, kn.2) } }).postItem i c ch
          (.line (q.words.take 16))).drainChan i c f
      else t

/-- Send what every bound channel of the tile can. -/
def Tx.drain (t : Tx s) (i : Nat) : Tx s :=
  t.forEach (List.range 16) fun t c =>
    let ch := (t.tilesAt i).chans.getD c {}
    if ch.bound then t.drainChan i c ((t.tilesAt i).outq.getD ch.sq {}).words.length.succ else t

/-- A SIGNAL takes effect (R205): a flag, a counter, or a token behind the words its channel still has to send. -/
def Tx.signal (t : Tx s) (i g : Nat) : Tx s :=
  let k := bits g 9 4
  match bits g 11 10 with
  | 0 => t
  | 1 => t.modTiles i (setFlag · k)
  | 2 => t.modTiles i (addCtr · k (bits g 3 0 + 1))
  | _ =>
    (t.modTiles i fun x =>
      let ch := x.chans.getD k {}
      let ch := { ch with toks := ch.toks ++ [((x.outq.getD ch.sq {}).words.length, bits g 3 0 + 1)] }
      { x with chans := x.chans.set k ch, progress := true }).drain i

/-! ### What enters an inbound queue as room comes (R113, R201, R202, R215) -/

/-- Words that an inbound queue has room for. -/
def Tile.room (x : Tile) (q : Nat) : Nat := queueWords - (x.inq.getD q {}).words.length

/-- Words enter an inbound queue. -/
def Tile.feed (x : Tile) (q : Nat) (ws : List QWord) : Tile :=
  let d := x.inq.getD q {}
  { x with inq := x.inq.set q { d with words := d.words ++ ws }, progress := x.progress || ws ≠ [] }

/-- The tile's key stream gives its queues what they have room for: both halves in lockstep, or the one half that is in delivery
(R113). -/
def Tile.feedKeys (x : Tile) : Tile :=
  match x.kstream with
  | none => x
  | some k =>
    let rb := min (x.room k.bq) k.bufB.length
    let ra := min (x.room k.aq) k.bufA.length
    let nb := if k.bufA = [] then rb else min rb ra
    let na := if k.bufB = [] then ra else min rb ra
    { ((x.feed k.bq (k.bufB.take nb)).feed k.aq (k.bufA.take na)) with
      kstream := some { k with bufB := k.bufB.drop nb, bufA := k.bufA.drop na } }

/-- A transfer of the tile by its number. -/
def Tile.transfer (x : Tile) (id : Nat) : Option Transfer := x.transfers.find? (·.id = id)

/-- Replace a transfer. -/
def Tile.setTransfer (x : Tile) (v : Transfer) : Tile :=
  { x with transfers := x.transfers.map fun o => if o.id = v.id then v else o }

/-- Is a transfer in front of `id` still moving words of the same queue? -/
def Tile.behind (x : Tile) (v : Transfer) : Bool :=
  (x.transfers.takeWhile (·.id ≠ v.id)).any fun o =>
    o.out = v.out && o.ref = v.ref && (match o.ref with | .queue _ => true | _ => false) &&
    (if o.out then o.next < o.lines else o.pushed < o.lines)

/-- The lines that may enter the queue now, in order, of `room` words. -/
def flushLines : Nat → Nat → Transfer → List QWord → Transfer × List QWord
  | 0, _, v, ws => (v, ws)
  | f + 1, room, v, ws =>
    match v.got.find? (·.1 = v.pushed) with
    | some g =>
      if room < g.2.length then (v, ws)
      else flushLines f (room - g.2.length) { v with pushed := v.pushed + 1, got := v.got.filter (·.1 ≠ v.pushed) } (ws ++ g.2)
    | none => (v, ws)

/-- Let the transfers into data queues deliver what they hold in order, as far as there is room. -/
def Tile.flush (x : Tile) : Tile :=
  x.transfers.foldl (fun x o =>
    match x.transfer o.id with
    | some v =>
      match v.ref with
      | .queue q =>
        if v.out || x.behind v then x
        else
          let r := flushLines v.got.length (x.room q) v []
          (x.setTransfer r.1).feed q r.2
      | _ => x
    | none => x) x

/-! ### Run state, perturbed epochs -/

/-- TILE.RUNSTAT.STATE values (R232). -/
def runIdle : Nat := 0
@[inherit_doc runIdle] def runRunning : Nat := 1
@[inherit_doc runIdle] def runStopping : Nat := 2
@[inherit_doc runIdle] def runSaving : Nat := 3
@[inherit_doc runIdle] def runSaved : Nat := 4
@[inherit_doc runIdle] def runRestoring : Nat := 5
@[inherit_doc runIdle] def runStopped : Nat := 6
@[inherit_doc runIdle] def runHalted : Nat := 7

/-- The run state of a tile. -/
def State.runState (s : State) (i : Nat) : Nat := s.fld TILE.RUNSTAT.STATE i

/-- Does the tile stand in a graph epoch of a record: running, halted, or still on its way to its resumption points? -/
def State.inEpoch (s : State) (i : Nat) : Bool :=
  s.runState i = runRunning || s.runState i = runHalted || s.runState i = runSaving

/-- Does the tile still wait for keys: it works for a record and has not stopped? -/
def State.keyWaits (s : State) (i : Nat) : Bool :=
  (s.tilesAt i).rec?.isSome && s.runState i ≠ runStopped && s.runState i ≠ runIdle

/-- Does any key stream run on the cluster (KCSTAT.ACTIVE, R121), or a noise step, which takes Muslin as one does (R320)? -/
def State.keyActive (s : State) (cl : Nat) : Bool :=
  ((List.range 8).any fun p => s.keyWaits (8 * cl + p) && (s.tilesAt (8 * cl + p)).kstream.isSome) || (s.clustersAt cl).noise ≠ []

/-- The stream ends on the tile. -/
def Tx.endKey (t : Tx s) (i : Nat) : Tx s := t.modTiles i fun x => { x with kstream := none, progress := true }

/-- A key stream whose last words have entered its queues ends and signals (R113, R205). -/
def Tx.finishKey (t : Tx s) (i : Nat) : Tx s :=
  match (t.tilesAt i).kstream with
  | some k => if k.fin && k.bufB = [] && k.bufA = [] then (t.endKey i).signal i k.sig else t
  | none => t

/-- The inbound queues take what waits for room: lines of transfers, words of the key stream, messages in admission, whose
senders then send what the returned credit allows (R215). -/
def Tx.refill (t : Tx s) (i : Nat) : Tx s :=
  let t := (t.modTiles i fun x => x.feedKeys.flush).finishKey i
  t.forEach (((t.tilesAt i).rx.filter fun k => k.2.left ≠ 0).map (·.1)) fun t key =>
    (t.modTiles i (·.rxRun key)).drain (8 * (i / 8) + key / 16)

/-- Mark the epoch of a tile that stands in one perturbed, counting it once in TILE.PTBCNT (R16, R313). -/
def Tx.perturb (t : Tx s) (i : Nat) : Tx s :=
  if t.now.inEpoch i ∧ t.fld TILE.RUNSTAT.PERTURBED i = 0 then
    ((t.setFld TILE.RUNSTAT.PERTURBED 1 i).bump TILE.PTBCNT.EPOCHS 1 i).modLife fun l => { l with perturbed := l.perturbed + 1 }
  else t

/-- An underrun of an engine (R16): counted once while the engine stalls on it, and the epoch marked perturbed. -/
def Tx.underrun (t : Tx s) (i unit : Nat) : Tx s :=
  if (t.tilesAt i).stallQ.contains unit then t
  else ((t.bump TILE.STRCNT.UNDERRUN 1 i).perturb i).modTiles i fun x => { x with stallQ := insertSorted x.stallQ unit }

/-- A program counter (R199): half of the instruction memory by the segment's parity, plus the offset. -/
def StreamState.pc (x : StreamState) : Nat := 4096 * (x.seg % 2) + x.off

/-- A stream of a tile. -/
def Tile.stream (x : Tile) : Side → StreamState
  | .access => x.acc
  | .execute => x.exe

/-- Replace a stream of a tile. -/
def Tile.setStream (x : Tile) (d : Side) (v : StreamState) : Tile :=
  match d with
  | .access => { x with acc := v }
  | .execute => { x with exe := v }

/-- Enter the segments that are executable and not yet entered while the stream stands at a segment end (R199, R314); fuel
bounds them. -/
def StreamState.settle : Nat → StreamState → StreamState
  | 0, v => v
  | f + 1, v =>
    match v.more with
    | n :: rest =>
      if v.atEnd || v.ended then
        settle f { v with seg := v.seg + 1, off := 0, len := n, atEnd := n = 0 || v.ended, more := rest }
      else v
    | [] => v

/-- Both streams enter the segments they can, and descriptors loaded for a segment that the execute stream has entered take
their slots (R210). -/
def Tile.settle (x : Tile) : Tile :=
  let x := { x with acc := x.acc.settle x.acc.more.length, exe := x.exe.settle x.exe.more.length }
  let now := x.pendCtds.filter fun p => p.1 ≤ x.exe.seg
  { x with ctds := now.foldl (fun m p => mapInsert m p.2.1 p.2.2) x.ctds, pendCtds := x.pendCtds.filter fun p => x.exe.seg < p.1 }

/-- A record's work raises an error on a cluster (R32). -/
def Tx.failRecord (t : Tx s) (r : Option Nat) (cluster : Nat) (st : Status) (detail : Nat) : Tx s :=
  match r with
  | some k => t.modRecords k fun x => { x with failures := x.failures ++ [⟨t.now.epochCount, cluster, st, detail⟩] }
  | none => t

/-- The tile stops on an error: RUNSTAT, IRQ_RAW.STOPPED, the error record, and its record fails (R214, R32). -/
def Tx.stopTile (t : Tx s) (i : Nat) (e : Err) : Tx s :=
  let r := (t.tilesAt i).rec?
  let t := (t.setFld TILE.RUNSTAT.STATE runStopped i).setFld TILE.RUNSTAT.STATUS e.status.code i
  let t := (t.raiseIrq .TILE i 0).logError .TILE i { e with rec? := r }
  t.failRecord r (i / 8) e.status (if e.status = .LEDGER then e.detail % 256 else 0)

end Sys2Proof.Machine
end

