-- ==== Sys2Proof/Machine/Memory.lean ====
section
/-!
DEFINITION. Device-local memory as a requester sees it (R14, R281 to R283, R290 to R293, R300, R431): which lines exist,
who may access them, line-by-line reads and writes, and the controllers' regulators (R284 to R287).
-/

namespace Sys2Proof.Machine

variable {s : State}

/-- First byte of the far tier, of its range's end, of the host window and of the register space (R14). -/
def nearEnd : Nat := 0x9000000000
@[inherit_doc nearEnd] def farBase : Nat := 0x10000000000
@[inherit_doc nearEnd] def spadSpace : Nat := 0x20000000000
@[inherit_doc nearEnd] def hostBase : Nat := 0x30000000000
@[inherit_doc nearEnd] def hostEnd : Nat := 0x40000000000
@[inherit_doc nearEnd] def regSpace : Nat := 0xF0000000000

/-- Far-tier bytes F (MEMSYS.FARCFG.SIZE, R280). -/
def State.farSize (s : State) : Nat := s.fld MEMSYS.FARCFG.SIZE * 2 ^ 30

/-- Is an address in the near range, in the far tier, in the scratchpads, in the host window? -/
def isNear (a : Nat) : Bool := a < nearEnd
@[inherit_doc isNear] def State.isFar (s : State) (a : Nat) : Bool := farBase ≤ a && a < farBase + s.farSize
@[inherit_doc isNear] def isSpad (a : Nat) : Bool := spadSpace ≤ a && a < spadSpace + 64 * 0x2000000
@[inherit_doc isNear] def isHostWin (a : Nat) : Bool := hostBase ≤ a && a < hostEnd

/-- Half of a near or far address: 0 West, 1 East (R281, R282). -/
def State.halfOf (s : State) (a : Nat) : Nat :=
  if isNear a then (if a < 0x4800000000 then 0 else 1) else if a - farBase < s.farSize / 2 then 0 else 1

/-- The controller of a line: MEMC number 0 to 11 for a stack, 12 to 27 for a far group (R281, R282, R503). -/
def State.controllerOf (s : State) (a : Nat) : Nat :=
  let half := s.halfOf a
  if isNear a then 6 * half + ((a - 0x4800000000 * half) / 4096) % 6
  else 12 + 8 * half + ((a - farBase - half * (s.farSize / 2)) / 4096) % 8

/-- Offset of a near or far line within its stack or group (R281, R282). -/
def State.tierOffset (s : State) (a : Nat) : Nat :=
  let half := s.halfOf a
  let h := if isNear a then a - 0x4800000000 * half else a - farBase - half * (s.farSize / 2)
  h / 4096 / (if isNear a then 6 else 8) * 4096 + h % 4096

/-- The pseudo-channel of its stack, or the channel of its group, on which a line lies (R281, R282). -/
def State.channelOf (s : State) (a : Nat) : Nat :=
  let o := s.tierOffset a
  if isNear a then bits o 11 6 ^^^ bits o 17 12 else bits o 7 6 ^^^ bits o 13 12

/-- The lent range in effect, as first and end address: a change of LEND takes effect with its fill (R293, R294). -/
def State.lentRange (s : State) : Nat × Nat :=
  let w := (s.regEff (MEMSYS.LEND.BASE.addr 0 0)).toNat
  (farBase + bits w 9 0 * 2 ^ 30, farBase + (bits w 9 0 + bits w 30 20) * 2 ^ 30)

/-- Is the address in the lent range (R293)? -/
def State.isLent (s : State) (a : Nat) : Bool := s.lentRange.1 ≤ a && a < s.lentRange.2

/-- The sealed region that holds an address (R288). -/
def State.regionOf (s : State) (a : Nat) : Option Region :=
  (s.regions.find? fun r => r.2.live && r.2.base ≤ a && a < r.2.base + r.2.size * 2 ^ 21).map (·.2)

/-- The domain whose sealed tiles include tile `i` (R431). -/
def State.domainOfCluster (s : State) (c : Nat) : Option Nat :=
  (s.domains.find? fun d => d.2.live && bit d.2.clusters c).map (·.1)

/-- The domain a requester acts for. -/
def State.domainOf (s : State) : Who → Option Nat
  | .tile i => s.domainOfCluster (i / 8)
  | _ => none

/-- Status of an access to the line that holds `a` (R283, R290, R292, R293, R300, R431). The host window and the register
space are no memory here (R283, R497). -/
def State.access (s : State) (who : Who) (a : Nat) : Status :=
  let sealedBy (a : Nat) : Status :=
    match s.regionOf a with
    | some r => if r.filling then .NOT_READY else if who = .sec ∨ s.domainOf who = some r.dom then .OK else .DENIED
    | none => .OK
  if isNear a then
    if bit (s.fld MEMSYS.HALFCTL.OFFLINE) (s.halfOf a) then .NOT_READY else sealedBy a
  else if s.isFar a then
    if !bit (s.fld MEMSYS.FARCFG.HALFOK) (s.halfOf a) then .RANGE
    else if bit (s.fld MEMSYS.HALFCTL.OFFLINE) (2 + s.halfOf a) then .NOT_READY
    else if s.isLent a ≠ (who = .cxl : Bool) then .DENIED
    else sealedBy a
  else if isSpad a then
    let i := (a - spadSpace) / 0x2000000
    if s.spadEnd i ≤ (a - spadSpace) % 0x2000000 then .RANGE
    else if (s.domainOfCluster (i / 8)).isSome ∧ who ≠ .sec ∧ s.domainOf who ≠ s.domainOfCluster (i / 8) then .DENIED
    else .OK
  else .RANGE

/-- The status of a request for a range: RANGE where a line lies outside every valid range (R283), else that of the first line that is
refused. -/
def State.rangeStatus (s : State) (who : Who) (a n : Nat) : Status :=
  let sts := (linesOf a n).map fun k => s.access who (64 * k)
  if sts.contains .RANGE then .RANGE else (sts.find? (· ≠ .OK)).getD .OK

/-- Does a write of `n` bytes at `a` cover only part of a poisoned line (R342)? -/
def State.partBad (s : State) (a n : Nat) : Bool :=
  n ≠ 0 && ((a % 64 ≠ 0 && s.poisonAt (a / 64)) || ((a + n) % 64 ≠ 0 && s.poisonAt ((a + n) / 64)))

/-- Status of a write: that of its lines, or POISON where it covers only part of a poisoned line (R342). -/
def State.writeStatus (s : State) (who : Who) (a n : Nat) : Status :=
  match s.rangeStatus who a n with
  | .OK => if s.partBad a n then .POISON else .OK
  | st => st

/-- Log a refused access, a write or a read: DENIED at the controller (R290), a write that a scratchpad refuses in its
tile's page (R240), any other write in MEMSYS (R283). -/
def Tx.logAccess (t : Tx s) (a : Nat) (st : Status) (w : Bool) : Tx s :=
  let e : Err := { status := st, cls := st.cls, addr := t.now.globalLine a }
  if st = .DENIED ∧ (isNear a ∨ t.now.isFar a) then t.logError .MEMC (t.now.controllerOf a) { e with src := bnat w }
  else if !w then t
  else if isSpad a then t.logError .TILE ((a - spadSpace) / 0x2000000) e
  else t.logError .MEMSYS 0 e

/-- Log the lines of a range that a read may not reach (R290). -/
def Tx.logRead (t : Tx s) (who : Who) (a n : Nat) : Tx s :=
  t.forEach (linesOf a n) fun t k => match t.now.access who (64 * k) with | .OK => t | st => t.logAccess (64 * k) st false

/-- Write within one line, or log the refusal (R283, R290); a poisoned line takes no partial write (R342). -/
def Tx.writeLine (t : Tx s) (who : Who) (a : Nat) (bs : List Byte) : Tx s :=
  match t.now.access who a with
  | .OK => if t.now.partBad a bs.length then t else t.write a bs
  | st => t.logAccess a st true

/-- Write a range line by line: lines that may not be written are discarded and logged; the status of the request
(R283). -/
def Tx.writeRange (t : Tx s) (who : Who) (a : Nat) (bs : List Byte) : Tx s :=
  if t.now.writeStatus who a bs.length = .OK then t.write a bs
  else t.forEach (linesOf a bs.length) fun t k =>
    let lo := max a (64 * k)
    let hi := min (a + bs.length) (64 * k + 64)
    t.writeLine who lo ((bs.drop (lo - a)).take (hi - lo))

/-- Bytes a requester reads in a range, with the status: that of its lines, POISON where one is poisoned, else OK. -/
def State.readRange (s : State) (who : Who) (a n : Nat) : List Byte × Status :=
  match s.rangeStatus who a n with
  | .OK => if s.poisoned a n then ([], .POISON) else (s.read a n, .OK)
  | st => ([], st)

/-- What a read judged line by line returns (R240, R283): the bytes of the lines that it may read and that are not poisoned. -/
def State.readLines (s : State) (who : Who) (a n : Nat) : List Byte :=
  (linesOf a n).flatMap fun k =>
    let lo := max a (64 * k)
    if s.access who (64 * k) = .OK && !s.poisonAt k then s.read lo (min (a + n) (64 * k + 64) - lo) else []

/-! ### Regulators (R284 to R287) -/

/-- A controller's regulator word in effect. -/
def State.regulator (s : State) (m p : Nat) : Nat := (s.regEff (MEMC.REG.WC.addr m p)).toNat

/-- The partition of a source class, as in effect (R284). -/
def State.partition (s : State) (c : Nat) : Nat := bits (s.regEff (MEMSYS.PARTMAP.MAP.addr 0 0)).toNat (4 * c + 2) (4 * c)

/-- The buckets after `n` line slots: RATE/256 of a token each, never beyond BURST. -/
def State.refill (s : State) (m n : Nat) (tokens : List Nat) : List Nat :=
  tokens.zipIdx.map fun k =>
    let r := s.regulator m k.2
    min (k.1 + n * bits r 24 16) (256 * bits r 15 0)

/-- Does a request of another partition that holds a token wait at the controller (R284)? -/
def State.contends (s : State) (q : MemCtl) (p : Nat) : Bool :=
  q.waiting.any fun o => s.partition o.cls ≠ p && 256 ≤ q.tokens.getD (s.partition o.cls) 0

/-- May the request be served now, and what its bucket then holds (R284, R286)? `contended`: beside what waits, a request of another
partition that holds a token arrives. -/
def State.grants (s : State) (m : Nat) (q : MemCtl) (r : LineReq) (contended : Bool) : Option (List Nat) :=
  let p := s.partition r.cls
  let tok := q.tokens.getD p 0
  if (q.waiting.takeWhile (· ≠ r)).any fun o => o.a / 64 = r.a / 64 then none
  else if 256 ≤ tok then some (q.tokens.set p (tok - 256))
  else if bit (s.regulator m p) 31 && !contended && !s.contends q p then some q.tokens
  else none

/-- A line request waits at its controller. -/
def Tx.lineWaits (t : Tx s) (m : Nat) (r : LineReq) : Tx s :=
  (t.modMemctl m fun q => { q with waiting := q.waiting ++ [r] }).bump MEMC.REGWAIT.WAIT 1 m

/-- Count lines in units of 4,096 (RDKL, WRKL). -/
def Tx.countLine (t : Tx s) (m : Nat) (w : Bool) : Tx s :=
  let q := t.now.memctlAt m
  let n := (if w then q.writeLines else q.readLines) + 1
  let t := t.putMemctl m (if w then { q with writeLines := n % 4096 } else { q with readLines := n % 4096 })
  t.when (n = 4096) fun t => if w then t.bump MEMC.WRKL.KL 1 m else t.bump MEMC.RDKL.KL 1 m

end Sys2Proof.Machine
end

