-- ==== Sys2Proof/Machine/PeerBase.lean ====
section
/-!
DEFINITION. What sending on the peer links shares (ch. 15): packets and their virtual channels (R350 to R352), peer
transactions (R353), multicast at its source (R365), and the host window's apertures (R376, R377).
-/

namespace Sys2Proof.Machine

variable {s : State}

/-! ### Packets -/

/-- Types of the packet type table (R352). -/
def ptWR : Nat := 0x01
@[inherit_doc ptWR] def ptRD : Nat := 0x02
@[inherit_doc ptWR] def ptATOM : Nat := 0x03
@[inherit_doc ptWR] def ptCONTRIB : Nat := 0x04
@[inherit_doc ptWR] def ptRRD : Nat := 0x05
@[inherit_doc ptWR] def ptACCEPT : Nat := 0x10
@[inherit_doc ptWR] def ptDONE : Nat := 0x11
@[inherit_doc ptWR] def ptFAIL : Nat := 0x12
@[inherit_doc ptWR] def ptNAK : Nat := 0x13
@[inherit_doc ptWR] def ptRDATA : Nat := 0x14
@[inherit_doc ptWR] def ptATOMR : Nat := 0x15
@[inherit_doc ptWR] def ptEPOCHSET : Nat := 0x20
@[inherit_doc ptWR] def ptQUAR : Nat := 0x21

/-- The virtual channel of a packet type (R350, R352); none for a reserved type. -/
def typeVc (ty : Nat) : Option Nat :=
  if ty = 0x01 ∨ ty = 0x02 ∨ ty = 0x03 then some 0
  else if 0x10 ≤ ty ∧ ty ≤ 0x15 then some 1
  else if ty = 0x04 ∨ ty = 0x05 then some 2
  else if ty = 0x20 ∨ ty = 0x21 then some 3
  else none

/-- Room a packet takes in a receive buffer, in 64-byte units: its header and its payload (R350, table "Flit"). -/
def Packet.units (p : Packet) : Nat := p.len + 1

/-- Flits a packet takes, of 496 bytes each (table "Flit"). -/
def Packet.flits (p : Packet) : Nat := ceilDiv (16 + 64 * p.len) 496

/-- A multicast group's entry (R365). -/
def State.group (s : State) (g : Nat) : Nat := s.regSpan ((Page.MCAST).base 0 + 8 * g) 2

/-- A peer window's descriptor (R360). -/
def State.pwin (s : State) (n : Nat) : Nat := s.regSpan ((Page.PWIN).base 0 + 16 * n) 4

/-- The link that stands for packets to this module itself. -/
def selfLink : Nat := 24

/-- Hand a packet to this module's own deliveries. -/
def Tx.deliver (t : Tx s) (p : Packet) : Tx s := t.modLinks selfLink fun l => { l with rx := l.rx ++ [p] }

/-- The links a multicast packet takes by its group, and whether a copy stays here (R365). -/
def State.groupOut (s : State) (g : Nat) : List Nat × Bool :=
  let e := s.group g
  if bit e 63 then ((List.range 24).filter (bit e ·), bit e 62) else ([], false)

/-- Send a packet that this module originates (R352, R354, R365): SRC, TTL and VC filled in, class 0; multicast copies on
each link of the group, a local copy and a packet to this module to its own deliveries, anything else to the queue of
waiting packets. -/
def Tx.sendPacket (t : Tx s) (p : Packet) : Tx s :=
  let p := { p with src := t.now.devId, ttl := t.fld ROUTER.CTL.TTL, cls := 0, vc := (typeVc p.type).getD 0 }
  if p.mc then
    let g := t.now.groupOut p.dst
    (t.putTxq (t.now.txq ++ g.1.map fun l => { packet := p, link := some l })).when g.2 fun t => t.deliver p
  else if p.dst = t.now.devId then t.deliver p
  else t.putTxq (t.now.txq ++ [{ packet := p }])

/-! ### Transactions -/

/-- Transactions awaiting a final answer (ROUTER.OUTST, R353). -/
def State.peerCount (s : State) : Nat := s.peers.length

/-- The lowest TAG that no outstanding transaction holds (log entry 30). -/
def State.freeTag (s : State) : Nat := s.peers.foldl (fun k kv => if kv.1 = k then k + 1 else k) 0

/-- Packets of a tile that still count against its 96 transactions in flight (R353). -/
def State.tileFlight (s : State) (i : Nat) : Nat :=
  (s.peers.filter fun kv => kv.2.accepts ≠ 0 && (match kv.2.origin with
    | .transfer j _ | .fetch j | .store j => i = j | _ => false)).length

/-- May tile `i` start another transaction (R353)? -/
def State.peerRoom (s : State) (i : Nat) : Bool := s.peerCount < 16384 && s.tileFlight i < 96

/-- Members that answer a request: one, or the MEMBERS of a multicast group (R365). -/
def State.answers (s : State) (p : Packet) : Nat := if p.mc then bits (s.group p.dst) 55 40 else 1

/-- Does a packet type get a final outcome after its ACCEPT (R352)? -/
def hasOutcome (ty : Nat) : Bool := ty = 0x01 || ty = 0x04

/-- Send a request and open its transaction. -/
def Tx.request (t : Tx s) (p : Packet) (o : Origin) (r : Option Nat) (gaddr pos : Nat) : Tx s :=
  let tag := t.now.freeTag
  let p := { p with tag := tag }
  let m := t.now.answers p
  let x := t.recordsAt (r.getD 0)
  (t.putPeers tag { live := true, packet := p, origin := o, rec? := r, gaddr := gaddr, pos := pos, accepts := m,
                    finals := m, qid := if r.isSome then x.qid else 0, ridx := if r.isSome then x.ridx else 0 }).sendPacket p

/-- Lines of the next packet of a request at local address `a` with `n` lines to go: at most 16 and not across a 1 KiB
boundary (R352). -/
def packetLines (a n : Nat) : Nat := min n ((1024 - a % 1024) / 64)

/-- `n` bytes that the spec does not state (log entry 1). -/
def Tx.freeBytes (t : Tx s) (n : Nat) : Tx s × List Byte := (t.freshen, natLe n (Config.draw t.now.fresh % 256 ^ n))

/-! ### The host window (R376 to R378) -/

/-- The aperture entry of a host-window address. -/
def State.aperture (s : State) (a : Nat) : Nat := s.regSpan ((Page.HWMAP).base 0 + 16 * ((a - hostBase) / 2 ^ 32)) 4

/-- May function `fn` reach the aperture, for a read or a write? -/
def apertureAllows (e fn : Nat) (w : Bool) : Bool := bit e 127 && bits e 125 120 = fn && (!w || bit e 126)

/-- The host bus address of a host-window address. -/
def State.hostAddr (s : State) (a : Nat) : Nat :=
  (bits (s.aperture a) 63 12) <<< 12 + (a - hostBase) % 2 ^ 32

/-- A posted data write to host memory by function `fn`, with Relaxed Ordering where the function enables it. -/
def Tx.postHost (t : Tx s) (fn a : Nat) (bs : List Byte) : Tx s :=
  t.emit (.hostWrite fn (t.now.hostAddr a) bs (t.pcieAt fn).ero)

end Sys2Proof.Machine
end

