-- ==== Sys2Proof/Machine/Operands.lean ====
section
/-!
DEFINITION. How an instruction is issued and finds its operands: the operand word (R207), OPA (R208), primes and limbs
(R65, R84), references and their checks (R82, R83, R214, R240), the issue rules (R196 to R206, R214), and the
limb-by-limb execution that every engine shares, with its poison and non-canonical-read rules (R52, R95) and its stalls on data
queues (R92, R202).
-/

namespace Sys2Proof.Machine

variable {s : State}

/-! ### Fields -/

/-- Read a 26-bit REF (R207); none where it is illegal. -/
def refOpnd (r : Nat) : Option Opnd :=
  if bit r 25 then (if bits r 24 3 = 0 then some (.queue (bits r 2 0)) else none)
  else if bits r 5 0 = 0 then some (.spad (bits r 24 0)) else none

/-- The operand word of an engine instruction (R207). -/
structure OpWord where
  ref0 : Nat
  ref1 : Nat
  ref2 : Nat
  lstride : Nat
  pstride : Nat
  limb0 : Nat
  nlimb : Nat
  resv : Nat
  deriving DecidableEq, Repr

/-- Split the operand word (R207). -/
def opWord (w : NInstr) : OpWord :=
  let x := w.opd.toNat
  ⟨bits x 127 102, bits x 101 76, bits x 75 50, bits x 49 31, bits x 30 12, bits x 11 8, bits x 7 4, bits x 3 0⟩

/-- OPA as a number. -/
def NInstr.a (w : NInstr) : Nat := w.opa.toNat

/-- IMM: bits [26:0] of OPA (R208). -/
def NInstr.imm (w : NInstr) : Nat := bits w.a 26 0

/-- Descriptor-mode slots (R208): destination, first source, second source. -/
def NInstr.dst (w : NInstr) : Nat := bits w.a 50 43
@[inherit_doc NInstr.dst] def NInstr.src1 (w : NInstr) : Nat := bits w.a 42 35
@[inherit_doc NInstr.dst] def NInstr.src2 (w : NInstr) : Nat := bits w.a 34 27

/-- Raw-mode fields (R208): basis, PSET, LEVEL. -/
def NInstr.basis (w : NInstr) : Nat := bits w.a 50 50
@[inherit_doc NInstr.basis] def NInstr.pset (w : NInstr) : Nat := bits w.a 49 44
@[inherit_doc NInstr.basis] def NInstr.level (w : NInstr) : Nat := bits w.a 43 36

/-- Bits [127:64] of the instruction word (R203), which an error record carries (R475). -/
def instrHigh (unit op : Nat) (w : NInstr) : Nat :=
  unit <<< 60 + op <<< 52 + w.ldg.toNat <<< 48 + bnat w.ext <<< 47 + bits w.a 50 4

/-! ### Limbs and primes (R17, R65, R84) -/

/-- A limb of a basis: extended index, prime, generic path?, 2^18-th root. -/
structure Limb where
  j : Nat
  q : Nat
  mont : Bool
  root : Nat
  deriving DecidableEq, Repr

/-- The limb with extended index `j` at LEVEL `l` (R65). -/
def extLimb (c : PsetCtx) (l j : Nat) : Limb :=
  if j ≤ l then ⟨j, c.q.getD j 1, c.mont.getD j false, c.root.getD j 0⟩
  else ⟨j, c.p.getD (j - l - 1) 1, c.pmont.getD (j - l - 1) false, c.proot.getD (j - l - 1) 0⟩

/-- Which limbs an instruction ranges over. -/
inductive Basis
  | chain | below | special | extended
  deriving DecidableEq, Repr

/-- The extended indices of a basis at LEVEL `l`. -/
def basisIdx (c : PsetCtx) (l : Nat) : Basis → List Nat
  | .chain => List.range (l + 1)
  | .below => List.range l
  | .special => (List.range c.ps.numP).map (l + 1 + ·)
  | .extended => List.range (l + 1 + c.ps.numP)

/-- The limbs of a basis that a tile at cluster position `pos` holds (R17), ascending. -/
def tileLimbs (c : PsetCtx) (l : Nat) (b : Basis) (pos : Nat) : List Limb :=
  ((basisIdx c l b).filter (· % 8 = pos)).map (extLimb c l)

/-- Local limbs `limb0` to `limb0 + nlimb − 1` with their local index; none when they run beyond the tile's limbs or
NLIMB is outside 1 to 10 (R214). -/
def namedLimbs (ls : List Limb) (limb0 nlimb : Nat) : Option (List (Nat × Limb)) :=
  if 1 ≤ nlimb ∧ nlimb ≤ 10 ∧ limb0 + nlimb ≤ ls.length then
    some (((List.range nlimb).map fun k => limb0 + k).zip ((ls.drop limb0).take nlimb))
  else none

/-- A reference's operand for polynomial `p` and local limb `t` (R207). -/
def opndAt (o : OpWord) (r : Opnd) (p t : Nat) : Opnd :=
  match r with
  | .spad off => .spad (off + (p * o.pstride + t * o.lstride) * 64)
  | r => r

/-! ### Steps: one limb of one polynomial at a time -/

/-- One step of an engine instruction: source operands with their word counts and the prime their words are read under
(0: plain words, no canonicity), destinations with word counts, and the result: from the tile and the sources' words,
the tile after and the destinations' words. `note` counts and flags what the step finds, `check` may stop the tile before
anything is written, `stop` after it; `more` are words read besides the operands', each list under its prime. `spoil` is what a
poisoned source leaves undefined (R170). -/
structure EStep (s : State) where
  reads : List (Opnd × Nat × Nat)
  writes : List (Opnd × Nat)
  compute : Tile → List (List Nat) → Tile × List (List Nat)
  tagBanks : List Nat := []
  more : List (Nat × List Nat) := []
  note : Tile → List (List Nat) → Tx s → Tx s := fun _ _ t => t
  check : Tile → List (List Nat) → Option Status := fun _ _ => none
  stop : Tile → List (List Nat) → Option Status := fun _ _ => none
  spoil : Tx s → Tx s := fun t => t

/-- Does an operand list name queue `q`? -/
def namesQueue (l : List (Opnd × Nat)) (q : Nat) : Bool := l.any fun r => r.1 = .queue q

/-- Words wanted from each inbound queue, in steps' order. -/
def queueWant (es : List (EStep s)) (q : Nat) : Nat :=
  ((es.flatMap (·.reads)).filter fun r => r.1 = .queue q).foldl (fun n r => n + r.2.1) 0

/-- Do two byte ranges overlap? -/
def overlaps (a n b m : Nat) : Bool := a < b + m && b < a + n

/-- Byte ranges of the scratchpad operands of a list. -/
def spadRanges (l : List (Opnd × Nat)) : List (Nat × Nat) :=
  l.filterMap fun r => match r.1 with | .spad o => some (o, 4 * r.2) | _ => none

/-- The destinations of a step overlap its own sources only where they coincide. -/
def EStep.coincides (e : EStep s) : Bool :=
  (spadRanges e.writes).all fun a => (spadRanges (e.reads.map fun r => (r.1, r.2.1))).all fun b => a = b || !overlaps a.1 a.2 b.1 b.2

/-- No destination of one step overlaps a source of another: a destination that coincides with a source does so limb by limb. -/
def stepsApart (es : List (EStep s)) : Bool :=
  es.zipIdx.all fun e => es.zipIdx.all fun f => e.2 = f.2 ||
    (spadRanges e.1.writes).all fun a => (spadRanges (f.1.reads.map fun r => (r.1, r.2.1))).all fun b => !overlaps a.1 a.2 b.1 b.2

/-- R82, R83, R201, R214, R240: every scratchpad operand lies within the usable scratchpad, every queue is open, no two
destinations overlap, and a destination overlaps a source only where it coincides with it, limb by limb. A queue that the execute
stream does not own (R82) is one that is not open: DEDUCED, log entry 66. -/
def Tx.stepsLegal (t : Tx s) (i : Nat) (es : List (EStep s)) : Bool :=
  let x := t.tilesAt i
  let rd := es.flatMap fun e => e.reads.map fun r => (r.1, r.2.1)
  let wr := es.flatMap (·.writes)
  let rr := spadRanges rd
  let wr' := spadRanges wr
  (rr ++ wr').all (fun r => r.1 % 64 = 0 && r.1 + r.2 ≤ t.now.spadEnd i) &&
  rd.all (fun r => match r.1 with | .queue q => (x.inq.getD q {}).opened | _ => true) &&
  wr.all (fun r => match r.1 with | .queue q => (x.outq.getD q {}).opened | _ => true) &&
  (wr'.zipIdx.all fun a => wr'.zipIdx.all fun b => a.2 = b.2 || !overlaps a.1.1 a.1.2 b.1.1 b.1.2) &&
  (es.all (·.coincides)) && stepsApart es

/-- What a source gave: its words, whether one is poisoned (with the global address of its line), the key tags its words carry
(R110). -/
structure Src where
  words : List Nat
  bad : Bool
  line : Nat
  tags : List Nat
  deriving DecidableEq, Repr

/-- The 256 elements of a tile register (R172). -/
def Tile.reg (x : Tile) (k : Nat) : List Nat := mapGet (List.replicate 256 0) x.trs k

/-- Write a tile register. -/
def Tile.setReg (x : Tile) (k : Nat) (ws : List Nat) : Tile :=
  { x with trs := mapPut (List.replicate 256 0) x.trs k ws }

/-- A line of the operand cache. -/
def Tile.ocLine (x : Tile) (k : Nat) : List Nat := mapGet (List.replicate 256 0) x.ocache k

/-- Write a line of the operand cache; a write removes its poison. -/
def Tile.setOcLine (x : Tile) (k : Nat) (ws : List Nat) : Tile :=
  { x with ocache := mapPut (List.replicate 256 0) x.ocache k ws, ocBad := x.ocBad.filter (· ≠ k) }

/-- The words of an inbound queue that its engine can use: those drawn and those that wait. -/
def DataQueue.offers (d : DataQueue) : List QWord := d.taken ++ d.words

/-- The queue after its engine has used `n` words. -/
def DataQueue.use (d : DataQueue) (n : Nat) : DataQueue :=
  { d with taken := d.taken.drop n, words := d.words.drop (n - d.taken.length) }

/-- Read one source operand; a queue gives up its words, and messages that wait for room follow. -/
def Tx.readOpnd (t : Tx s) (i : Nat) (r : Opnd) (n : Nat) : Tx s × Src :=
  match r with
  | .spad off =>
    let a := spadBase i + off
    (t, { words := t.now.readWords a n, bad := t.now.poisoned a (4 * n),
          line := t.now.globalLine (((t.now.firstPoison a (4 * n)).getD 0) * 64),
          tags := (linesOf a (4 * n)).map t.landTagAt })
  | .queue q =>
    let dq := (t.tilesAt i).inq.getD q {}
    let ws := dq.offers.take n
    ((t.modTiles i fun x => { x with inq := x.inq.set q (dq.use n) }).refill i,
     { words := ws.map (·.w), bad := ws.any (·.bad ≠ 0), line := ((ws.find? (·.bad ≠ 0)).map (·.bad - 1)).getD 0,
       tags := ws.map (·.tag) })
  | .tr k => (t, { words := (t.tilesAt i).reg k, bad := false, line := 0, tags := [] })

/-- Read all sources of a step. -/
def Tx.readAll (t : Tx s) (i : Nat) : List (Opnd × Nat × Nat) → Tx s × List Src
  | [] => (t, [])
  | r :: rs =>
    let a := t.readOpnd i r.1 r.2.1
    let b := a.1.readAll i rs
    (b.1, a.2 :: b.2)

/-- Push words onto an outbound queue; beyond its 4,096 words the engine stalls, which is counted and marks the epoch
perturbed (R202). -/
def Tx.pushOut (t : Tx s) (i q : Nat) (ws : List Nat) : Tx s :=
  let dq := (t.tilesAt i).outq.getD q {}
  let dq := { dq with words := dq.words ++ ws.map fun w => { w := w } }
  let t := (t.modTiles i fun x => { x with outq := x.outq.set q dq }).drain i
  t.when (4096 < ((t.tilesAt i).outq.getD q {}).words.length) fun t =>
    ((t.bump TILE.STRCNT.OVERRUN 1 i).perturb i).modTiles i fun x =>
      { x with outq := x.outq.set q { x.outq.getD q {} with stalled := true } }

/-- Write the destinations of a step. -/
def Tx.writeAll (t : Tx s) (i : Nat) : List ((Opnd × Nat) × List Nat) → Tx s
  | [] => t
  | ((.spad off, _), ws) :: r => (t.writeWords (spadBase i + off) ws).writeAll i r
  | ((.queue q, _), ws) :: r => (t.pushOut i q ws).writeAll i r
  | ((.tr k, _), ws) :: r => (t.modTiles i (·.setReg k ws)).writeAll i r

/-- The key tag rule of R110: a MAC that reads key-stream words sets the bank's tag, or marks it mixed. -/
def tagBank (b : Bank) (tag : Nat) : Bank :=
  if tag = 0 then b else if b.tag = 0 ∨ b.tag = tag + 1 then { b with tag := tag + 1 } else { b with tag := 1 }

/-- Apply the sources' key tags to banks of the tile. -/
def tagTile (x : Tile) (banks : List Nat) (tags : List Nat) : Tile :=
  let x := if banks.contains 0 || banks.contains 2 then { x with acc0 := tags.foldl tagBank x.acc0 } else x
  if banks.contains 1 || banks.contains 2 then { x with acc1 := tags.foldl tagBank x.acc1 } else x

/-- Run an instruction's steps in order (R52, R95): a poisoned source stops the tile with POISON and a non-canonical
one under the trap with RANGE, the limb concerned and later ones unwritten. `nc` says that this instruction has made a
non-canonical read already. -/
def Tx.runSteps (t : Tx s) (i unit : Nat) (nc : Bool) : List (EStep s) → Tx s
  | [] => t
  | e :: es =>
    let r := t.readAll i e.reads
    let isNc := ((e.reads.zip r.2).any fun p => p.1.2.2 ≠ 0 && nonCanonical p.1.2.2 p.2.words) ||
      e.more.any fun k => nonCanonical k.1 k.2
    let t := if isNc && !nc then r.1.bump TILE.RESCNT.NONCANON 1 i else r.1
    match r.2.find? (·.bad) with
    | some b => (e.spoil t).stopTile i { status := .POISON, cls := 2, src := unit, addr := b.line }
    | none =>
      if isNc && t.flagEff TILE.RESCTL.NONCANON_TRAP i then t.stopTile i { status := .RANGE, cls := 5, src := unit }
      else
        let x := t.tilesAt i
        let ws := r.2.map (·.words)
        let t := e.note x ws t
        match e.check x ws with
        | some st => t.stopTile i { status := st, cls := st.cls, src := unit }
        | none =>
          let c := e.compute x ws
          let t := (t.putTiles i (tagTile c.1 e.tagBanks (r.2.flatMap (·.tags)))).writeAll i (e.writes.zip c.2)
          match e.stop x ws with
          | some st => t.stopTile i { status := st, cls := st.cls, src := unit }
          | none => t.runSteps i unit (nc || isNc) es

/-! ### Issue -/

/-- Checks every instruction passes at issue (R196, R203 to R205): the unit's stream, EXT, LDG, WAIT and SIGNAL. -/
def issueLegal (x : Tile) (unit : Nat) (side : Side) (w : NInstr) : Bool :=
  (unit = 0 || (unit = 1 && side = .access) || (2 ≤ unit && side = .execute)) &&
  (w.ext = (unit ≠ 0)) && (unit ≥ 2 || w.ldg = 0) && (w.ext || w.opd = 0) &&
  waitLegal w.wa.toNat && waitLegal w.wb.toNat && signalLegal x w.sig.toNat

/-- Does a transfer into an inbound queue wait for room there, so that the access stream waits (R202)? -/
def Tile.moveWaits (x : Tile) : Bool :=
  x.transfers.any fun v => !v.out && v.status = .OK && v.pushed < v.lines &&
    (match v.ref with | .queue q => queueWords < (x.inq.getD q {}).words.length + 16 | _ => false)

/-- Is the stream in a position to issue: tile running, no preemption requested, not waiting at a segment end, not
ended, the cluster not waiting for a descriptor (R210), and the access stream not waiting for room in a queue (R202)? -/
def State.canIssue (s : State) (i : Nat) (side : Side) : Bool :=
  let x := s.tilesAt i
  let st := x.stream side
  s.runState i = runRunning && !x.preempting && !st.atEnd && !st.ended && !(s.clustersAt (i / 8)).wait &&
    !(side = .access && x.moveWaits)

/-- The error of a refusal at issue (R475): PC in ADDR, bits [127:64] of the instruction in DETAIL. -/
def issueErr (x : Tile) (side : Side) (unit op : Nat) (w : NInstr) (st : Status) : Err :=
  { status := st, cls := st.cls, src := unit, addr := (x.stream side).pc, detail := instrHigh unit op w }

/-- The unmet WAIT conditions, first one. -/
def unmet (x : Tile) (w : NInstr) : Option Nat :=
  if !waitHolds x w.wa.toNat then some w.wa.toNat
  else if !waitHolds x w.wb.toNat then some w.wb.toNat else none

/-- The tile's flags as an instruction of the stream sees them (R206): where the execute stream holds an instruction all of whose
conditions hold, the flags that it consumes are clear for the access stream. -/
def Tile.seenBy (x : Tile) (side : Side) : Tile :=
  if side = .access && x.exe.waits ≠ [] && x.exe.waits.all (waitHolds x) then x.exe.waits.foldl consume x else x

/-- The stream holds an instruction whose first unmet condition is `c`. -/
def StreamState.hold (v : StreamState) (w : NInstr) (c : Nat) : StreamState := { v with held := c, waits := [w.wa.toNat, w.wb.toNat] }

/-- The stream after an instruction issues: PC past its words, no held condition; a full segment waits. -/
def StreamState.advance (v : StreamState) (words : Nat) : StreamState :=
  { v with off := v.off + words, held := 0, waits := [], atEnd := v.len ≤ v.off + words }

/-- The tile after an instruction issues (R197, R204): conditions consumed, PC advanced, progress made. -/
def issueTile (x : Tile) (side : Side) (w : NInstr) : Tile :=
  let x := consume (consume x w.wa.toNat) w.wb.toNat
  { x.setStream side ((x.stream side).advance (if w.ext then 2 else 1)) with progress := true }

/-- Issue an instruction. A tile or stream that cannot issue leaves everything as it is; illegal WAIT fields stop the tile with
RANGE; unmet WAIT conditions hold it (R197); an illegal word stops the tile with RANGE as it issues (R205, R214); then `body`. -/
def Tx.issue (t : Tx s) (i unit op : Nat) (side : Side) (w : NInstr) (body : Tx s → Tx s) : Tx s :=
  let x := t.tilesAt i
  if !t.now.canIssue i side then t
  else if !(waitLegal w.wa.toNat && waitLegal w.wb.toNat) then t.stopTile i (issueErr x side unit op w .RANGE)
  else
    match unmet (x.seenBy side) w with
    | some c => t.putTiles i (x.setStream side ((x.stream side).hold w c))
    | none =>
      if !issueLegal x unit side w then t.stopTile i (issueErr x side unit op w .RANGE)
      else (body t).modTiles i Tile.settle

/-! ### Engines, pipes and queues (R73, R92, R122, R151, R197, R202) -/

/-- Is an instruction in flight still at work: steps that wait for words of an inbound queue, or words that a full outbound queue has
not taken? -/
def Tile.working (x : Tile) (e : InFlight) : Bool :=
  e.left ≠ 0 || e.outs.any fun q => queueWords < (x.outq.getD q {}).words.length

/-- Do two instructions use one pipe (R73, R122, R151, R175)? Worsted's T-pipe runs OP 0x01 to 0x03, its M-pipe the rest; a Gauze
macro holds both. -/
def samePipe (u o v p : Nat) : Bool :=
  (u = v && (u ≠ 2 || decide (o < 0x10) = decide (p < 0x10))) || (u = 5 && v = 2) || (u = 2 && v = 5)

/-- Is the pipe of an operation taken by an instruction still at work? -/
def Tile.pipeBusy (x : Tile) (unit op : Nat) : Bool := x.engines.any fun e => x.working e && samePipe e.unit e.op unit op

/-- Does an instruction still at work read an inbound queue, or write an outbound one, that these steps read or write (R197)? -/
def Tile.queueBusy (x : Tile) (es : List (EStep s)) : Bool :=
  x.engines.any fun e => x.working e &&
    (e.reads.any (fun q => queueWant es q ≠ 0) || e.outs.any fun q => namesQueue (es.flatMap (·.writes)) q)

/-- No engine instruction of the tile is still at work. -/
def Tile.enginesFree (x : Tile) : Bool := x.engines.all fun e => !x.working e

/-- A bank's register (R96). -/
def Bank.view (b : Bank) : Nat := bnat b.live <<< 17 + b.terms % 2 ^ 17

/-- What WSTACC0, WSTACC1 and DMKDACC read of a tile (R96, R150). -/
def Tile.accViews (x : Tile) : List Nat :=
  [x.acc0.view, if x.accWide then x.acc0.view else x.acc1.view,
   bnat (x.dacc.shadow.isSome && !x.dacc.untracked) <<< 18 + bnat x.dacc.live <<< 17 + x.dacc.terms % 2 ^ 17]

/-- The entry of an instruction that has done its work (R205). -/
def Tile.flying (x : Tile) (unit op : Nat) (w : NInstr) (reads : List Nat) (outs : List Nat) : InFlight :=
  { unit := unit, op := op, imm := w.imm, sig := w.sig.toNat, reads := reads, outs := outs, shows := x.accViews }

/-- Registers whose setting at issue an instruction completes under (R48, R72, R150, R195). -/
def issueRegs (i : Nat) : List Nat :=
  [TILE.RESCTL.NONCANON_TRAP.addr i 0, TILE.LDGCTL.FORCE_TRAP.addr i 0, TILE.DMKCTL.ROUND_TRAP.addr i 0, TILE.PCLCTL.NV_TRAP.addr i 0]

/-- What an instruction keeps of its tile at issue. -/
def State.issueView (s : State) (i : Nat) : IssueView :=
  let x := s.tilesAt i
  { ctds := x.ctds, wbrs := x.wbrs, pbrs := x.pbrs, wslots := x.wslots, dacc := x.dacc, iacc := x.iacc, lastLift := x.lastLift,
    gauze := x.gauze, tags := (x.acc0.tag, x.acc1.tag), ctl := (issueRegs i).map fun k => (k, s.regEff k) }

/-- A stalled engine draws the words that its next step lacks. -/
def Tile.draw (x : Tile) (want : Nat → Nat) : Tile :=
  { x with inq := x.inq.zipIdx.map fun d =>
      let k := want d.2 - d.1.taken.length
      { d.1 with taken := d.1.taken ++ d.1.words.take k, words := d.1.words.drop k } }

/-- Does an inbound queue lack words of a step? -/
def Tile.lacks (x : Tile) (want : Nat → Nat) : Bool :=
  (List.range 8).any fun q => (x.inq.getD q {}).offers.length < want q

/-- Draw words while queues give some; fuel bounds the lines. -/
def Tx.drawWords (t : Tx s) (i : Nat) (want : Nat → Nat) : Nat → Tx s
  | 0 => t
  | f + 1 =>
    let u := (t.modTiles i (·.draw want)).refill i
    if (List.range 8).any fun q =>
        let d := (u.tilesAt i).inq.getD q {}
        d.offers.length < want q && d.words ≠ [] then u.drawWords i want f
    else u

/-- Does a step read a word that is not canonical under its prime (R52)? -/
def Tx.stepNc (t : Tx s) (i : Nat) (e : EStep s) : Bool :=
  (e.reads.zip (t.readAll i e.reads).2).any fun p => p.1.2.2 ≠ 0 && nonCanonical p.1.2.2 p.2.words

/-- Update the instruction of a unit that has steps left. -/
def Tile.mendEngine (x : Tile) (unit : Nat) (f : InFlight → InFlight) : Tile :=
  { x with engines := x.engines.map fun e => if e.unit = unit && e.left ≠ 0 then f e else e }

/-- Run the steps left of a unit's instruction while its queues allow (R92, R202): it stalls, with an underrun counted, on an inbound
queue that is empty, and while an outbound queue that a step writes is full. -/
def Tx.flowSteps (t : Tx s) (i unit : Nat) : List (EStep s) → Tx s
  | [] => t
  | e :: es =>
    if e.writes.any fun w => match w.1 with
        | .queue q => queueWords < ((t.tilesAt i).outq.getD q {}).words.length
        | _ => false then t
    else
      let want := queueWant [e]
      let t := t.when ((t.tilesAt i).lacks want) fun t => t.drawWords i want (((List.range 8).map want).sum / 16 + 2)
      if (t.tilesAt i).lacks want then t.underrun i unit
      else
        let nc := ((t.tilesAt i).engines.find? fun e => e.unit = unit && e.left ≠ 0).any (·.nc)
        let bad := t.stepNc i e
        let t := t.modTiles i fun x => { x with stallQ := x.stallQ.filter (· ≠ unit) }
        let t := t.runSteps i unit nc [e]
        if t.now.runState i = runStopped then t.modTiles i fun x => { x with engines := x.engines.filter fun e => e.unit ≠ unit || e.left = 0 }
        else (t.modTiles i fun x => x.mendEngine unit fun e =>
          { e with left := e.left - 1, nc := e.nc || bad, shows := x.accViews }).flowSteps i unit es

/-- What an engine makes of an instruction before it writes anything: a refusal with its status (and, for LEDGER, the
DETAIL of R475), a wait, or the steps to run, after an update (the ledger's) made once at issue. -/
inductive Plan (s : State)
  | refuse (st : Status) (detail : Option Nat)
  | wait
  | run (atIssue : Tx s → Tx s) (steps : List (EStep s)) (mont : Bool)

/-- Issue an engine instruction: it waits for its pipe and its queues (R197); then the plan's refusals, and its steps, as far as the
words in its inbound queues allow (R16); its SIGNAL waits for the result to become visible (R205). A trap-mode ledger failure comes
before the operand checks of R82 and R83, which the spec does not order against it: DESIGN CHOICE, log entry 66. -/
def Tx.issueEngine (t : Tx s) (i unit op : Nat) (side : Side) (w : NInstr) (plan : Tx s → Plan s) : Tx s :=
  t.issue i unit op side w fun t =>
    let x := t.tilesAt i
    if x.pipeBusy unit op then t
    else
    match plan t with
    | .refuse st det =>
      let e := issueErr x side unit op w st
      t.stopTile i (match det with | some d => { e with addr := 0, detail := d } | none => e)
    | .wait => t
    | .run atIssue steps mont =>
      let reads := (List.range 8).filter fun q => queueWant steps q ≠ 0
      let outs := (List.range 8).filter (namesQueue (steps.flatMap (·.writes)))
      if x.queueBusy steps then t
      else if !t.stepsLegal i steps then t.stopTile i (issueErr x side unit op w .RANGE)
      else
        let v := t.now.issueView i
        let t := t.putTiles i (issueTile x side w)
        let t := (atIssue t).when mont fun t => t.bump TILE.RESCNT.GENERIC 1 i
        if (List.range 8).any fun q => (x.inq.getD q {}).words.length < queueWant steps q then
          (t.modTiles i fun x => { x with engines := x.engines ++ [{ x.flying unit op w reads outs with
            left := steps.length, side := side, word := w, view := v }] }).flowSteps i unit steps
        else
          let t := t.runSteps i unit false steps
          if t.now.runState i = runStopped then t
          else t.modTiles i fun x => { x with engines := x.engines ++ [x.flying unit op w reads outs] }

/-- The tile as the plan of a stalled instruction sees it: what it kept at issue, and no other instruction in flight. -/
def Tile.asIssued (x : Tile) (v : IssueView) : Tile :=
  { x with ctds := v.ctds, wbrs := v.wbrs, pbrs := v.pbrs, wslots := v.wslots, dacc := v.dacc, iacc := v.iacc, lastLift := v.lastLift,
           gauze := v.gauze, acc0 := { x.acc0 with tag := v.tags.1 }, acc1 := { x.acc1 with tag := v.tags.2 }, engines := [] }

/-- An update made under the register settings that an instruction issued with (R150). -/
def Tx.underSettings (t : Tx s) (v : IssueView) (f : Tx s → Tx s) : Tx s :=
  let old := v.ctl.map fun k => (k.1, t.now.deferredAt k.1)
  let t := f (t.forEach v.ctl fun t k => t.putDeferred k.1 (some k.2))
  t.forEach old fun t k => t.putDeferred k.1 k.2

/-- A stalled instruction goes on with the steps it has left; its ledger update is not repeated (R86). -/
def Tx.goOn (t : Tx s) (i : Nat) (e : InFlight) (plan : Tx s → Plan s) : Tx s :=
  t.underSettings e.view fun t =>
    match plan (t.modTiles i (·.asIssued e.view)) with
    | .run _ steps _ => t.flowSteps i e.unit (steps.drop (steps.length - e.left))
    | _ => t

/-! ### Descriptors at issue (R35, R45, R85) -/

/-- The key set bound to the session of the tile's record. -/
def State.tileKsid (s : State) (i : Nat) : Nat := (s.recordsAt ((s.tilesAt i).rec?.getD 0)).ksid

/-- The descriptor in a slot of the tile, when it is filled and legal (R35, R209, R260). -/
def State.srcCtd (s : State) (i slot : Nat) : Option Ctd :=
  match (s.tilesAt i).ctds.find? (·.1 = slot) with
  | some (_, d) =>
    let arr := d.layout / 64
    if ctdLegal (s.psetCtx d.pset) (s.tileKsid i) d && arr ≠ 3 && ((arr = 2) = (d.kind = 2)) then some d else none
  | none => none

/-- Fill a descriptor slot. -/
def Tile.putCtd (x : Tile) (slot : Nat) (d : Ctd) : Tile := { x with ctds := mapInsert x.ctds slot d }

/-- DETAIL of a LEDGER error (R475). -/
def ledgerDetail (code ldg dst tag : Nat) : Nat := code + ldg <<< 8 + dst <<< 16 + tag <<< 32

/-- The ledger step of a descriptor-mode instruction (R47, R48, R85): a refusal or trap, or the update to make at issue:
the destination slot filled, OVER set and counted in count mode. -/
def ledgerPlan (t : Tx s) (i ldg dst : Nat) (o : LedgerOut) (pset : Nat) (next : (Tx s → Tx s) → Plan s) : Plan s :=
  match o with
  | .refused => .refuse .RANGE none
  | .failed code d =>
    if traps (t.psetsAt pset) (t.flagEff TILE.LDGCTL.FORCE_TRAP i) then
      .refuse .LEDGER (some (ledgerDetail code ldg dst d.tag))
    else next fun t => (t.modTiles i (·.putCtd dst { d with ovr := true })).when (i % 8 = 0)
      fun t => t.bump TILE.LDGCNT.OVER 1 i
  | .passed d => next fun t => t.modTiles i (·.putCtd dst d)

end Sys2Proof.Machine
end

