-- ==== Sys2Proof/Machine/Scalar.lean ====
section
/-!
DEFINITION. The scalar unit (R213): flags, counters, data queues (R201, R214), tile channels (R215) and the ends of a
segment and of a stream's part of the record.
-/

namespace Sys2Proof.Machine

variable {s : State}

/-- Issue a scalar instruction: `legal` on the tile as it stands, then its effect, then its SIGNAL in the same cycle
(R205, R206). -/
def Tx.issueScalar (t : Tx s) (i op : Nat) (side : Side) (w : NInstr) (legal : Tile → Bool) (eff : Tile → Tile) : Tx s :=
  t.issue i 0 op side w fun t =>
    let x := t.tilesAt i
    if legal x then (t.putTiles i (eff (issueTile x side w))).signal i w.sig.toNat
    else t.stopTile i (issueErr x side 0 op w .RANGE)

/-- Is inbound queue `q` still read by an instruction in flight, or outbound queue `q` by a transfer or a stream program
(R214)? -/
def Tile.stillRead (x : Tile) (out : Bool) (q : Nat) : Bool :=
  if out then
    (x.transfers.any fun v => v.out && v.ref = .queue q && v.next < v.lines) ||
    (x.prog.any fun p => p.entries.any fun e => e.toq && e.queue = q && (e.kind = 2 || e.kind = 3 || e.kind = 6) && !e.ended)
  else x.engines.any fun e => e.reads.contains q

/-- Replace a data queue. -/
def Tile.setQueue (x : Tile) (out : Bool) (q : Nat) (v : DataQueue) : Tile :=
  if out then { x with outq := x.outq.set q v } else { x with inq := x.inq.set q v }

/-- A data queue. -/
def Tile.queue (x : Tile) (out : Bool) (q : Nat) : DataQueue := if out then x.outq.getD q {} else x.inq.getD q {}

/-- The binding that CHCFG's OPA holds (R215). -/
def chanOf (a : Nat) : Channel :=
  { bound := true, dmask := bits a 46 39, dq := bits a 38 36, dctr := bits a 35 32, msglen := bits a 31 16,
    sq := bits a 15 13, toks := [] }

/-- Is outbound queue `q` drained by the access unit (R201)? -/
def Tile.drainedByAccess (x : Tile) (q : Nat) : Bool := x.stillRead true q

/-- NOP; or a word whose UNIT and OP name no operation, refused with RANGE where it would issue (R211, R214). -/
def execNop (i : Fin 64) (d : Side) (w : CodedInstr) (s : State) : Host.Outcome State Fault Refusal :=
  let t := begin s
  if w.code = 0 then done (t.issueScalar i 0x00 d w.word (fun _ => w.word.a = 0) id)
  else
    let unit := w.code.toNat / 256
    let op := w.code.toNat % 256
    done (t.issue i unit op d w.word fun t => t.stopTile i (issueErr (t.tilesAt i) d unit op w.word .RANGE))

/-- EPW: the rest of the segment is not issued (R213). -/
def execEpw (i : Fin 64) (d : Side) (w : NInstr) (s : State) : Host.Outcome State Fault Refusal :=
  done ((begin s).issueScalar i 0x01 d w (fun _ => w.a = 0) fun x => x.setStream d { x.stream d with atEnd := true })

/-- FLAGCLR: the clear applies before the instruction's own SIGNAL (R206). -/
def execFlagclr (i : Fin 64) (d : Side) (w : NInstr) (s : State) : Host.Outcome State Fault Refusal :=
  done ((begin s).issueScalar i 0x02 d w (fun _ => bits w.a 50 6 = 0) fun x =>
    { x with flags := clearFlag x.flags (bits w.a 5 0) })

/-- CTRSET: the value is written, then increments are added (R206). -/
def execCtrset (i : Fin 64) (d : Side) (w : NInstr) (s : State) : Host.Outcome State Fault Refusal :=
  done ((begin s).issueScalar i 0x03 d w (fun _ => bits w.a 50 20 = 0) fun x =>
    { x with ctrs := x.ctrs.set (bits w.a 19 16) (bits w.a 15 0) })

/-- QOPEN (R201, R214, R217). -/
def execQopen (i : Fin 64) (d : Side) (w : NInstr) (s : State) : Host.Outcome State Fault Refusal :=
  let out := bit w.a 50
  let q := bits w.a 49 47
  done ((begin s).issueScalar i 0x04 d w (fun x => bits w.a 45 0 = 0 && !(x.queue out q).opened) fun x =>
    x.setQueue out q { opened := true, rotate := bit w.a 46 })

/-- QCLOSE: the queue's words are discarded (R213). -/
def execQclose (i : Fin 64) (d : Side) (w : NInstr) (s : State) : Host.Outcome State Fault Refusal :=
  let out := bit w.a 50
  let q := bits w.a 49 47
  done ((begin s).issueScalar i 0x05 d w
    (fun x => bits w.a 46 0 = 0 && (x.queue out q).opened && !x.stillRead out q) fun x => x.setQueue out q {})

/-- CHCFG (R215). -/
def execChcfg (i : Fin 64) (d : Side) (w : NInstr) (s : State) : Host.Outcome State Fault Refusal :=
  let c := bits w.a 50 47
  let v := chanOf w.a
  done ((begin s).issueScalar i 0x06 d w
    (fun x => bits w.a 12 0 = 0 && v.dmask ≠ 0 && v.msglen ≠ 0 && !(x.chans.getD c {}).bound &&
      !(x.chans.any fun o => o.bound && o.sq = v.sq) && !x.drainedByAccess v.sq)
    fun x => { x with chans := x.chans.set c v })

/-- END: ends the stream's part of the record (R200, R213). -/
def execEndStream (i : Fin 64) (d : Side) (w : NInstr) (s : State) : Host.Outcome State Fault Refusal :=
  done ((begin s).issueScalar i 0x07 d w (fun _ => w.a = 0) fun x => x.setStream d { x.stream d with ended := true })

end Sys2Proof.Machine
end

