-- ==== Sys2Proof/Machine/Access.lean ====
section
/-!
DEFINITION. The access unit's transfers (ch. 09): MOVE and MOVEO through the tiers and scratchpads (R283), the host window
(R376, R378) and peer windows (R337, R352), OCLD and OCST (R173), and the SIGNAL at the last line (R205, R332). A transfer
does at once what needs no answer; what waits for a peer, for the host or for words of a queue is kept in
`Tile.transfers`.
-/

namespace Sys2Proof.Machine

variable {s : State}

/-- UNIT code of the access unit (R196). -/
def unitAccess : Nat := 1

/-- The function of the queue of the tile's record (R376). -/
def State.tileFn (s : State) (i : Nat) : Nat := (s.recordsAt ((s.tilesAt i).rec?.getD 0)).fn

/-! ### Transfers -/

/-- Remove a transfer. -/
def Tile.dropTransfer (x : Tile) (id : Nat) : Tile := { x with transfers := x.transfers.filter (·.id ≠ id) }

/-- Has every line of the transfer reached its place (R332)? -/
def Transfer.complete (v : Transfer) : Bool :=
  v.next = v.lines && v.waiting = 0 && v.host = [] &&
  (match v.ref with | .queue _ => v.out || v.pushed = v.lines | _ => true)

/-- A transfer fails: the tile stops with the status (R32, R214). -/
def Tx.failTransfer (t : Tx s) (i id : Nat) (st : Status) (addr : Nat) : Tx s :=
  match (t.tilesAt i).transfer id with
  | none => t
  | some _ => (t.modTiles i (·.dropTransfer id)).stopTile i { status := st, cls := st.cls, src := unitAccess, addr := addr / 64 * 64 }

/-- A line of a MOVE arrives: its bytes, or none where it is poisoned. A poisoned line poisons the scratchpad row (R342); into a data
queue go its words marked, and the instruction that reads one reports POISON (R95, R149, R194). -/
def Tx.landLine (t : Tx s) (i id pos : Nat) (d : Option (List Byte)) : Tx s :=
  match (t.tilesAt i).transfer id with
  | none => t
  | some v =>
    match v.ref, d with
    | .spad off, some bs => t.write (spadBase i + off + 64 * pos) bs
    | .spad off, none => t.poisonRange (spadBase i + off + 64 * pos) 64
    | .queue _, some bs =>
      t.modTiles i fun x => (x.setTransfer { v with got := v.got ++ [(pos, (bytesWords bs).map fun w => { w := w })] }).flush
    | .queue _, none =>
      t.modTiles i fun x => (x.setTransfer
        { v with got := v.got ++ [(pos, List.replicate 16 { w := 0, bad := 1 + v.gaddr + 64 * pos })] }).flush
    | .tr _, _ => t

/-- What a MOVEO reads for its next `k` lines: nothing yet, a poisoned row, or the bytes; a queue gives up its words. -/
def Tx.takeLines (t : Tx s) (i : Nat) (v : Transfer) (k : Nat) : Tx s × Option (Bool × List Byte) :=
  match v.ref with
  | .spad off =>
    let a := spadBase i + off + 64 * v.next
    (t, some (t.now.poisoned a (64 * k), t.now.read a (64 * k)))
  | .queue q =>
    let dq := (t.tilesAt i).outq.getD q {}
    if dq.words.length < 16 * k || (t.tilesAt i).behind v then (t, none)
    else
      (t.modTiles i fun x => { x with outq := x.outq.set q { dq with words := dq.words.drop (16 * k) } },
       some (false, wordsBytes ((dq.words.take (16 * k)).map (·.w))))
  | .tr _ => (t, none)

/-- Mark a line of a transfer refused: nothing moves, and the first status is the transfer's (R283). -/
def Tx.refuseLine (t : Tx s) (i : Nat) (v : Transfer) (st : Status) : Tx s :=
  t.modTiles i (·.setTransfer { v with next := v.next + 1, status := if v.status = .OK then st else v.status })

/-- Do lines that the transfer has read still wait for room in its queue (R202)? -/
def Transfer.queueFull (v : Transfer) : Bool := !v.out && v.got ≠ [] && (match v.ref with | .queue _ => true | _ => false)

/-- One line of a transfer moves within this module's memory. -/
def Tx.moveLine (t : Tx s) (i : Nat) (v : Transfer) (a : Nat) : Tx s :=
  match t.now.access (.tile i) a with
  | .OK =>
    if v.out then
      match t.takeLines i v 1 with
      | (t, some (bad, bs)) =>
        let t := t.modTiles i (·.setTransfer { v with next := v.next + 1 })
        if bad then t.poisonRange a 64 else t.write a bs
      | (t, none) => t
    else
      let t := t.modTiles i (·.setTransfer { v with next := v.next + 1 })
      t.landLine i v.id v.next (if t.now.poisoned a 64 then none else some (t.now.read a 64))
  | st => (t.logAccess a st v.out).refuseLine i v st

/-- The request for a transfer's next line, of source class TILE, as its memory controller sees it (R284). -/
def Transfer.lineReq (v : Transfer) (i : Nat) : LineReq :=
  { cls := 0, who := .tile i, a := (v.gaddr + 64 * v.next) % 2 ^ 44, op := if v.out then .write [] else .read 64, xfer := some v.id }

/-- One line of a transfer within this module's memory: a line of the tiers passes its controller's regulator, or waits there (R284,
R286). -/
def Tx.localLine (t : Tx s) (i : Nat) (v : Transfer) (a : Nat) : Tx s :=
  if v.queueFull || (v.out && (t.takeLines i v 1).2.isNone) then t
  else if isSpad a || t.now.access (.tile i) a ≠ .OK then t.moveLine i v a
  else
    let m := t.now.controllerOf a
    let q := t.now.memctlAt m
    let r := v.lineReq i
    if q.waiting.contains r then t
    else
      match t.now.grants m q r false with
      | some tok => ((t.putMemctl m { q with tokens := tok }).countLine m v.out).moveLine i v a
      | none => t.lineWaits m r

/-- One line of a transfer through the host window: refused by its aperture, posted, or asked of the host. -/
def Tx.hostLine (t : Tx s) (i : Nat) (v : Transfer) (a : Nat) : Tx s :=
  let fn := t.now.tileFn i
  if !apertureAllows (t.now.aperture a) fn v.out then t.refuseLine i v .DENIED
  else if v.out then
    match t.takeLines i v 1 with
    | (t, some (false, bs)) => (t.modTiles i (·.setTransfer { v with next := v.next + 1 })).postHost fn a bs
    | (t, some (true, _)) => t.failTransfer i v.id .POISON (v.gaddr + 64 * v.next)
    | (t, none) => t
  else (t.modTiles i (·.setTransfer { v with next := v.next + 1, host := v.host ++ [v.next] })).emit
    (.hostRead fn (t.now.hostAddr a) 64)

/-- The next packet of a transfer through a peer window (R337, R352), while the tile has room for it (R353). -/
def Tx.peerLines (t : Tx s) (i : Nat) (v : Transfer) (dev a : Nat) : Tx s :=
  if !t.now.peerRoom i then t
  else
    let k := packetLines a (v.lines - v.next)
    let o := Origin.transfer i v.id
    let r := (t.tilesAt i).rec?
    let g := v.gaddr + 64 * v.next
    if v.out then
      let k := match v.ref with
        | .queue q => min k (((t.tilesAt i).outq.getD q {}).words.length / 16)
        | _ => k
      if k = 0 then t
      else
        match t.takeLines i v k with
        | (t, some (false, bs)) =>
          (t.modTiles i (·.setTransfer { v with next := v.next + k, waiting := v.waiting + 1 })).request
            { type := ptWR, len := k, dst := dev, addr := a, payload := bs } o r g v.next
        | (t, some (true, _)) => t.failTransfer i v.id .POISON g
        | (t, none) => t
    else
      (t.modTiles i (·.setTransfer { v with next := v.next + k, waiting := v.waiting + 1 })).request
        { type := ptRD, dst := dev, addr := a, aux := k - 1 } o r g v.next

/-- Move a transfer on as far as it goes by itself, while the tile runs: at a preemption request it stops after its last line in flight
(R224). Fuel bounds its lines. -/
def Tx.pump (t : Tx s) (i id : Nat) : Nat → Tx s
  | 0 => t
  | f + 1 =>
    if t.now.runState i ≠ runRunning then t else
    match (t.tilesAt i).transfer id with
    | none => t
    | some v =>
      if v.lines ≤ v.next then
        if v.status ≠ .OK && v.waiting = 0 && v.host = [] then t.failTransfer i id v.status v.gaddr else t
      else
        let g := v.gaddr + 64 * v.next
        let dev := g / 2 ^ 44 % 2 ^ 16
        let a := g % 2 ^ 44
        let u := if dev ≠ t.now.devId then t.peerLines i v dev a
          else if isHostWin a then t.hostLine i v a else t.localLine i v a
        if ((u.tilesAt i).transfer id).any fun w => w.next = v.next then u else u.pump i id f

/-- Move every transfer of the tile on. -/
def Tx.pumpAll (t : Tx s) (i : Nat) : Tx s :=
  t.forEach (t.tilesAt i).transfers fun t v => t.pump i v.id (v.lines + 1)

/-! ### Issue -/

/-- What an access-unit instruction makes of its operands: a refusal, that of a line it may not read, a wait, or its effect. -/
inductive AccessPlan (s : State)
  | refuse (st : Status)
  | refuseAt (st : Status) (a : Nat)
  | wait
  | run (f : Tx s → Tx s)

/-- Issue an access-unit instruction. -/
def Tx.issueAccess (t : Tx s) (i op : Nat) (side : Side) (w : NInstr) (plan : Tx s → AccessPlan s) : Tx s :=
  t.issue i unitAccess op side w fun t =>
    let x := t.tilesAt i
    match plan t with
    | .refuse st => t.stopTile i (issueErr x side unitAccess op w st)
    | .refuseAt st a => (t.logAccess a st false).stopTile i (issueErr x side unitAccess op w st)
    | .wait => t
    | .run f => f (t.putTiles i (issueTile x side w))

/-- Add a transfer to the tile. -/
def Tile.addTransfer (x : Tile) (v : Transfer) : Tile :=
  { x with transfers := x.transfers ++ [{ v with id := x.xferNext }], xferNext := x.xferNext + 1 }

/-- MOVE and MOVEO (R212). -/
def movePlan (i : Nat) (out : Bool) (w : NInstr) (t : Tx s) : AccessPlan s :=
  let o := w.opd.toNat
  let x := t.tilesAt i
  let g := bits o 127 68
  let n := bits o 41 18
  let go (r : Opnd) : AccessPlan s := .run fun t =>
    (t.modTiles i (·.addTransfer { sig := w.sig.toNat, out := out, gaddr := g, lines := n, ref := r })).pump i x.xferNext
      (n + 1)
  if w.a ≠ 0 || bits o 17 0 ≠ 0 || n = 0 || g % 64 ≠ 0 then .refuse .RANGE
  else
    match refOpnd (bits o 67 42) with
    | some (.spad off) => if off + 64 * n ≤ t.now.spadEnd i then go (.spad off) else .refuse .RANGE
    | some (.queue q) =>
      if !(x.queue out q).opened || (out && x.chans.any fun c => c.bound && c.sq = q) then .refuse .RANGE
      else go (.queue q)
    | _ => .refuse .RANGE

/-- MOVE: memory to tile (R212). -/
def execMove (i : Fin 64) (d : Side) (w : NInstr) (s : State) : Host.Outcome State Fault Refusal :=
  done ((begin s).issueAccess i 0x01 d w (movePlan i false w))

/-- MOVEO: tile to memory (R212). -/
def execMoveo (i : Fin 64) (d : Side) (w : NInstr) (s : State) : Host.Outcome State Fault Refusal :=
  done ((begin s).issueAccess i 0x02 d w (movePlan i true w))

/-! ### Operand cache lines (R173) -/

/-- OCLD and OCST: REF, first line, lines (R212). -/
def oclPlan (i : Nat) (w : NInstr) (line : Tx s → Nat → Nat → Tx s) (t : Tx s) : AccessPlan s :=
  let o := w.opd.toNat
  let k := bits o 101 92
  let n := bits o 91 81
  match refOpnd (bits o 127 102) with
  | some (.spad off) =>
    if w.a ≠ 0 || bits o 80 0 ≠ 0 || n = 0 || 1024 < n || 1024 < k + n || t.now.spadEnd i < off + 1024 * n then
      .refuse .RANGE
    else .run fun t =>
      (t.forEach (List.range n) fun t j => line t (k + j) (spadBase i + off + 1024 * j)).modTiles i
        (·.addTransfer { sig := w.sig.toNat })
  | _ => .refuse .RANGE

/-- OCLD: scratchpad to operand cache; a poisoned row poisons the line (R342). A line that a PST writes in the same cycle keeps what the
PST wrote (R174). -/
def execOcld (i : Fin 64) (d : Side) (w : CacheCopy) (s : State) : Host.Outcome State Fault Refusal :=
  done ((begin s).issueAccess i 0x06 d w.word (oclPlan i w.word fun t k a =>
    if w.lost.any (·.toNat = k) then t.bump TILE.PCLCNT.COLLIDE 1 i else
    let bad := t.now.poisoned a 1024
    let t := t.modTiles i (·.setOcLine k (t.now.readWords a 256))
    t.when bad fun t => t.modTiles i fun x => { x with ocBad := insertSorted x.ocBad k }))

/-- OCST: operand cache to scratchpad; a poisoned line poisons its rows (R342). -/
def execOcst (i : Fin 64) (d : Side) (w : NInstr) (s : State) : Host.Outcome State Fault Refusal :=
  done ((begin s).issueAccess i 0x07 d w (oclPlan i w fun t k a =>
    let t' := t.writeWords a ((t.tilesAt i).ocLine k)
    t'.when ((t.tilesAt i).ocBad.contains k) fun t => t.poisonRange a 1024))

/-! ### Completion -/

/-- The host's answer to the lines a transfer asked of it (R378): the data, poison over every line it would have filled,
or a failure. -/
def Tx.hostAnswer (t : Tx s) (i : Nat) (v : Transfer) (ans : HostAnswer) : Tx s :=
  let v' := { v with host := [] }
  let t' := t.modTiles i (·.setTransfer v')
  match ans with
  | .data bs =>
    if bs.length ≠ 64 * v.host.length then t'.failTransfer i v.id .PROTO v.gaddr
    else t'.forEach v.host.zipIdx fun t p => t.landLine i v.id p.1 (some ((bs.drop (64 * p.2)).take 64))
  | .ep => (t'.forEach v.host fun t p => t.landLine i v.id p none).failTransfer i v.id .POISON v.gaddr
  | a => t'.failTransfer i v.id a.status v.gaddr

/-- May a transfer signal: complete, so that its queue has taken its words (R202, R205), at a tile that runs or is on its way to its
resumption points (R224)? -/
def Tx.signals (t : Tx s) (i : Nat) (v : Transfer) : Bool := v.complete && v.status = .OK && t.now.inEpoch i

/-- The `k`-th outstanding transfer of the tile moves on, with the host's answer where it waits for one, and signals when
its last line is written (R205, R332). -/
def Tx.transferSignal (t : Tx s) (i k : Nat) (ans : HostAnswer) : Tx s :=
  match (t.tilesAt i).transfers[k]? with
  | none => t
  | some v =>
    let t := if v.host = [] then t else t.hostAnswer i v ans
    let t := (t.refill i).pump i v.id (v.lines + 1)
    match (t.tilesAt i).transfer v.id with
    | none => t
    | some v =>
      if t.signals i v then
        (t.modTiles i fun x => { x.dropTransfer v.id with progress := true }).signal i v.sig
      else t

@[inherit_doc Tx.transferSignal] def execTransferSignal (i : Fin 64) (k : Nat) (ans : HostAnswer) (s : State) :
    Host.Outcome State Fault Refusal :=
  done ((begin s).transferSignal i k ans)

end Sys2Proof.Machine
end

