-- ==== Sys2Proof/Machine/Chacha.lean ====
section
/-!
DEFINITION. The ChaCha20 block function of RFC 8439 section 2.3, as Muslin (R105, R106), the noise generator (R318) and
sealed import (R434) use it, and the Muslin expansion rule.
-/

namespace Sys2Proof.Machine

/-- Rotate a 32-bit word left. -/
def rotl32 (x : BitVec 32) (n : Nat) : BitVec 32 := x.rotateLeft n

/-- The sixteen words of a ChaCha state. -/
structure ChaState where
  w0 : BitVec 32
  w1 : BitVec 32
  w2 : BitVec 32
  w3 : BitVec 32
  w4 : BitVec 32
  w5 : BitVec 32
  w6 : BitVec 32
  w7 : BitVec 32
  w8 : BitVec 32
  w9 : BitVec 32
  wa : BitVec 32
  wb : BitVec 32
  wc : BitVec 32
  wd : BitVec 32
  we : BitVec 32
  wf : BitVec 32
  deriving DecidableEq, Repr

/-- A quarter round on four words. -/
def quarter (a b c d : BitVec 32) : BitVec 32 × BitVec 32 × BitVec 32 × BitVec 32 :=
  let a := a + b
  let d := rotl32 (d ^^^ a) 16
  let c := c + d
  let b := rotl32 (b ^^^ c) 12
  let a := a + b
  let d := rotl32 (d ^^^ a) 8
  let c := c + d
  let b := rotl32 (b ^^^ c) 7
  (a, b, c, d)

/-- A column round and a diagonal round. -/
def doubleRound (s : ChaState) : ChaState :=
  let (w0, w4, w8, wc) := quarter s.w0 s.w4 s.w8 s.wc
  let (w1, w5, w9, wd) := quarter s.w1 s.w5 s.w9 s.wd
  let (w2, w6, wa, we) := quarter s.w2 s.w6 s.wa s.we
  let (w3, w7, wb, wf) := quarter s.w3 s.w7 s.wb s.wf
  let (w0, w5, wa, wf) := quarter w0 w5 wa wf
  let (w1, w6, wb, wc) := quarter w1 w6 wb wc
  let (w2, w7, w8, wd) := quarter w2 w7 w8 wd
  let (w3, w4, w9, we) := quarter w3 w4 w9 we
  ⟨w0, w1, w2, w3, w4, w5, w6, w7, w8, w9, wa, wb, wc, wd, we, wf⟩

/-- `n` double rounds. -/
def doubleRounds : Nat → ChaState → ChaState
  | 0, s => s
  | n + 1, s => doubleRounds n (doubleRound s)

/-- The words of a state in order. -/
def ChaState.words (s : ChaState) : List (BitVec 32) :=
  [s.w0, s.w1, s.w2, s.w3, s.w4, s.w5, s.w6, s.w7, s.w8, s.w9, s.wa, s.wb, s.wc, s.wd, s.we, s.wf]

/-- Word `k` of a little-endian byte list. -/
def leWord (bs : List Byte) (k : Nat) : BitVec 32 := BitVec.ofNat 32 (leNat ((bs.drop (4 * k)).take 4))

/-- The ChaCha20 block (RFC 8439, 2.3): 32-byte key, 32-bit counter, 12-byte nonce to 64 bytes. -/
def chachaBlock (key : List Byte) (ctr : Nat) (nonce : List Byte) : List Byte :=
  let k := leWord key
  let n := leWord nonce
  let s : ChaState := ⟨0x61707865, 0x3320646e, 0x79622d32, 0x6b206574, k 0, k 1, k 2, k 3, k 4, k 5, k 6, k 7,
    BitVec.ofNat 32 ctr, n 0, n 1, n 2⟩
  ((s.words.zip (doubleRounds 10 s).words).flatMap fun p => natLe 4 (p.1 + p.2).toNat)

/-- The Muslin nonce (R105). -/
def muslinNonce (kid d w k : Nat) : List Byte := natLe 4 kid ++ natLe 1 d ++ natLe 1 w ++ natLe 2 k ++ natLe 4 1

/-- An a-half limb (R106): N/8 blocks of eight 64-bit words reduced modulo q. -/
def muslinLimb (seed : List Byte) (kid d w k q n : Nat) : List Nat :=
  let nonce := muslinNonce kid d w k
  (List.range (n / 8)).flatMap fun blk => (chunks 8 8 (chachaBlock seed blk nonce)).map fun v => leNat v % q

end Sys2Proof.Machine
end

