-- ==== Sys2Proof/Machine/Worsted.lean ====
section
/-!
DEFINITION. Worsted, the polynomial engine of a tile (ch. 04): transforms (R76, R77), automorphisms (R78, R79), the
instruction table (R81), its ledger pairings (R85, R110), the accumulator banks (R74, R87, R88), rescale and modulus
switching (R89, R109).
-/

namespace Sys2Proof.Machine

variable {s : State}

/-! ### Transforms and automorphisms -/

/-- Reverse the `n` low bits of `i` (ch. 04, Transforms). -/
def brv : Nat → Nat → Nat
  | 0, _ => 0
  | n + 1, i => (i % 2) * 2 ^ n + brv n (i / 2)

/-- ψ of a limb at ring degree 2^`logn`: ROOT^(2^17/N) mod q. -/
def psi (l : Limb) (logn : Nat) : Nat := powMod l.root (2 ^ (17 - logn)) l.q

/-- NTT of R76. -/
def ntt (l : Limb) (logn : Nat) (a : List Nat) : List Nat :=
  let g := psi l logn
  (List.range (2 ^ logn)).map fun i =>
    let x := powMod g (2 * brv logn i + 1) l.q
    a.foldr (fun c v => (c + x * v) % l.q) 0

/-- INTT of R77. -/
def intt (l : Limb) (logn : Nat) (a : List Nat) : List Nat :=
  let g := invPrime (psi l logn) l.q
  let ninv := invPrime (2 ^ logn % l.q) l.q
  (List.range (2 ^ logn)).map fun j =>
    ninv * (a.zipIdx.map fun c => c.1 * powMod g ((2 * brv logn c.2 + 1) * j) l.q).sum % l.q

/-- AUT on a coefficient-form limb (R78): index k of the result comes from j = k·g⁻¹ mod 2N. -/
def autCoeff (q logn g : Nat) (a : List Nat) : List Nat :=
  let n := 2 ^ logn
  let h := invMod g (2 * n)
  (List.range n).map fun k =>
    let j := k * h % (2 * n)
    if j < n then a.getD j 0 % q else modNeg q (a.getD (j - n) 0)

/-- AUT on an evaluation-form limb (R79). -/
def autEval (q logn g : Nat) (a : List Nat) : List Nat :=
  (List.range (2 ^ logn)).map fun i =>
    a.getD (brv logn (g * (2 * brv logn i + 1) % 2 ^ (logn + 1) / 2)) 0 % q

/-! ### What an instruction names -/

/-- The parameter set, level, operand word, references and named limbs of an engine instruction. -/
structure Eng where
  c : PsetCtx
  level : Nat
  o : OpWord
  r0 : Opnd
  r1 : Opnd
  r2 : Opnd
  limbs : List (Nat × Limb)

/-- Resolve an engine instruction's references and limbs (R84, R207, R214); `ok` says that its OPA is legal. LIMB0 and local limb t
count among the tile's limbs of the basis that the instruction names, its special limbs alone where that is the special basis, which
R84 and R207 leave open: DESIGN CHOICE, log entry 66. -/
def State.engAt (s : State) (i : Nat) (w : NInstr) (ok : Bool) (pset level : Nat) (b : Basis) : Option Eng :=
  let o := opWord w
  let c := s.psetCtx pset
  if ok ∧ o.resv = 0 ∧ c.ps.live ∧ level < c.ps.numQ then
    match refOpnd o.ref0, refOpnd o.ref1, refOpnd o.ref2 with
    | some a, some b', some d =>
      (namedLimbs (tileLimbs c level b (i % 8)) o.limb0 o.nlimb).map fun ls => ⟨c, level, o, a, b', d, ls⟩
    | _, _, _ => none
  else none

/-- Are the IMM bits outside `used` zero (R208)? -/
def immOk (w : NInstr) (used : Nat) : Bool := w.imm &&& (2 ^ 27 - 1 - used) = 0

/-- Raw mode: the basis comes from OPA (R208). -/
def rawBasis (w : NInstr) : Basis := if w.basis = 1 then .special else .chain

/-- A raw-mode instruction whose IMM uses the bits `used` (R84, R208). -/
def State.rawEng (s : State) (i : Nat) (w : NInstr) (used : Nat) (b : Basis) : Option Eng :=
  s.engAt i w (w.ldg = 0 && bits w.a 35 27 = 0 && immOk w used) w.pset w.level b

/-- Ring degree. -/
def Eng.n (e : Eng) : Nat := e.c.ps.n

/-- A source of polynomial `p`, local limb `t`, read under prime `q`. -/
def Eng.rd (e : Eng) (r : Opnd) (p t q : Nat) : Opnd × Nat × Nat := (opndAt e.o r p t, e.n, q)

/-- A destination of polynomial `p`, local limb `t`. -/
def Eng.wr (e : Eng) (r : Opnd) (p t : Nat) : Opnd × Nat := (opndAt e.o r p t, e.n)

/-- Does any named limb lie on the generic path (R72)? -/
def Eng.mont (e : Eng) : Bool := e.limbs.any (·.2.mont)

/-- Is a reference a queue? -/
def Opnd.isQueue : Opnd → Bool
  | .queue _ => true
  | _ => false

/-- The scratchpad offset of a reference; 0 for a queue. -/
def Opnd.spadOff : Opnd → Nat
  | .spad o => o
  | _ => 0

/-- Steps that map source REF1 to destination REF0, for the given polynomials of each limb: all polynomials of a limb before the
next limb, an order that the spec leaves open (R95): DESIGN CHOICE, log entry 66. -/
def Eng.unary (e : Eng) (polys : List Nat) (f : Limb → List Nat → List Nat) : List (EStep s) :=
  e.limbs.flatMap fun tl => polys.map fun p =>
    { reads := [e.rd e.r1 p tl.1 tl.2.q], writes := [e.wr e.r0 p tl.1]
      compute := fun x ws => (x, [f tl.2 (ws.getD 0 [])]) }

/-- Steps that combine REF1 and REF2 into REF0. -/
def Eng.binary (e : Eng) (f : Limb → List Nat → List Nat → List Nat) : List (EStep s) :=
  e.limbs.map fun tl =>
    { reads := [e.rd e.r1 0 tl.1 tl.2.q, e.rd e.r2 0 tl.1 tl.2.q], writes := [e.wr e.r0 0 tl.1]
      compute := fun x ws => (x, [f tl.2 (ws.getD 0 []) (ws.getD 1 [])]) }

/-- A refusal with RANGE. -/
def Plan.range : Plan s := .refuse .RANGE none

/-- Run steps with nothing to do at issue. -/
def Eng.plain (e : Eng) (steps : List (EStep s)) : Plan s := .run id steps e.mont

/-! ### Accumulator banks (R74, R87, R88, R110) -/

/-- The bank a 2-bit code names at ring degree `n` (R74): 0 ACC0, 1 ACC1, 2 ACC01. -/
def bankOf (n code : Nat) : Option Nat :=
  if n = 2 ^ 17 then (if code = 2 then some 2 else none) else if code < 2 then some code else none

/-- Entries of one bank (R74). -/
def bankSize : Nat := 65536

/-- `n` entries of a list, zeros beyond its end. -/
def padTo (n : Nat) (l : List Nat) : List Nat := l.take n ++ List.replicate (n - l.length) 0

/-- A bank of the tile; ACC01 is ACC0's entries with ACC1's above them (R74). -/
def Tile.bank (x : Tile) (b : Nat) : Bank :=
  if b = 0 then x.acc0 else if b = 1 then x.acc1
  else { x.acc0 with entries := padTo bankSize x.acc0.entries ++ x.acc1.entries }

/-- Replace a bank of the tile. -/
def Tile.setBank (x : Tile) (b : Nat) (v : Bank) : Tile :=
  if b = 0 then { x with acc0 := v } else if b = 1 then { x with acc1 := v }
  else { x with acc0 := { v with entries := v.entries.take bankSize }, acc1 := { v with entries := v.entries.drop bankSize } }

/-- Entry-wise sum; the longer list's tail stays. -/
def addEntries : List Nat → List Nat → List Nat
  | [], ps => ps
  | es, [] => es
  | e :: es, p :: ps => (e + p) :: addEntries es ps

/-- Add one product to each entry (R87). -/
def Tile.accumulate (x : Tile) (b q : Nat) (a y : List Nat) : Tile :=
  let k := x.bank b
  x.setBank b { k with
    entries := addEntries k.entries ((a.zip y).map fun p => (p.1 % q) * (p.2 % q))
    terms := k.terms + 1
    live := true }

/-- The automatic fold of a full bank before another product (R87). -/
def Tx.autoFold (t : Tx s) (i q b : Nat) : Tx s :=
  let k := (t.tilesAt i).bank b
  if 65536 ≤ k.terms then
    (t.modTiles i fun x => x.setBank b { k with entries := k.entries.map (· % q), terms := 1 }).bump
      TILE.WSTCNT.FOLD 1 i
  else t

/-- Remember whether the banks were last used as ACC01 (WSTACC0 and WSTACC1 show it). -/
def Tx.noteWide (t : Tx s) (i n : Nat) : Tx s := t.modTiles i fun x => { x with accWide := n = 2 ^ 17 }

/-- Is a BCONV in flight using the bank, or a half of it (R74, R88)? -/
def Tile.bconvUses (x : Tile) (b : Nat) : Bool :=
  x.engines.any fun e => e.unit = 2 && e.op = 0x17 && (bits e.imm 1 0 = b || bits e.imm 1 0 = 2 || b = 2)

/-! ### The instructions (R81) -/

/-- UNIT code of Worsted (R203). -/
def unitWorsted : Nat := 2

/-- NTT and INTT: raw mode, or with LDG 1 over all polynomials and all the tile's limbs (R76, R77, R85). -/
def transformPlan (i : Nat) (w : NInstr) (fwd : Bool) (t : Tx s) : Plan s :=
  let f (e : Eng) (l : Limb) (a : List Nat) := if fwd then ntt l e.c.ps.logn a else intt l e.c.ps.logn a
  if w.ldg = 0 then
    match t.now.rawEng i w 0 (rawBasis w) with
    | some e => if e.r0.isQueue || e.r1.isQueue then .range else e.plain (e.unary [0] (f e))
    | none => .range
  else if w.ldg = 1 then
    match t.now.srcCtd i w.src1 with
    | some a =>
      match t.now.engAt i w (immOk w 0) a.pset a.level .chain with
      | some e =>
        if e.r0.isQueue || e.r1.isQueue || a.ntt = fwd || e.o.limb0 ≠ 0 ||
            e.limbs.length ≠ (tileLimbs e.c a.level .chain (i % 8)).length then .range
        else ledgerPlan t i 1 w.dst (ledger e.c (.toNtt fwd) [a] {}) a.pset fun u =>
          .run u (e.unary (List.range a.comp) (f e)) e.mont
      | none => .range
    | none => .range
  else .range

/-- AUT (R78, R79): raw mode only. -/
def autPlan (i : Nat) (w : NInstr) (t : Tx s) : Plan s :=
  match t.now.rawEng i w 0x7FFFF (rawBasis w) with
  | some e =>
    let g := bits w.imm 17 0
    if e.r0.isQueue || e.r1.isQueue || g % 2 = 0 || 2 * e.n ≤ g then .range
    else e.plain (e.unary [0] fun l a =>
      if bit w.imm 18 then autEval l.q e.c.ps.logn g a else autCoeff l.q e.c.ps.logn g a)
  | none => .range

/-- MUL: a·b mod q. -/
def mulPlan (i : Nat) (w : NInstr) (t : Tx s) : Plan s :=
  match t.now.rawEng i w 0 (rawBasis w) with
  | some e => e.plain (e.binary fun l a b => (a.zip b).map fun p => modMul l.q p.1 p.2)
  | none => .range

/-- MULC: a·w mod q; raw mode with a word or a signed constant, or LDG 3 with a signed constant (R85, R208). -/
def mulcPlan (i : Nat) (w : NInstr) (t : Tx s) : Plan s :=
  let k := bits w.a 31 0
  let f (sgn : Bool) (l : Limb) (a : List Nat) :=
    a.map (modMul l.q (if sgn then fromInt (signed k 32) l.q else k))
  if w.ldg = 0 then
    match t.now.engAt i w (bits w.a 35 33 = 0) w.pset w.level (rawBasis w) with
    | some e => e.plain (e.unary [0] (f (bit w.a 32)))
    | none => .range
  else if w.ldg = 3 then
    match t.now.srcCtd i w.src1 with
    | some a =>
      match t.now.engAt i w (bits w.a 34 32 = 0) a.pset a.level .chain with
      | some e => ledgerPlan t i 3 w.dst (ledger e.c (.mulConst (signed k 32)) [a] {}) a.pset fun u =>
          .run u (e.unary [0] (f true)) e.mont
      | none => .range
    | none => .range
  else .range

/-- MAC: bank += a·b, unreduced (R87). -/
def macPlan (i : Nat) (w : NInstr) (t : Tx s) : Plan s :=
  match t.now.rawEng i w 3 (rawBasis w) with
  | some e =>
    match bankOf e.n (bits w.imm 1 0), e.limbs with
    | some b, [tl] =>
      if (t.tilesAt i).bconvUses b then .refuse .STATE none
      else .run (fun t => (t.noteWide i e.n).autoFold i tl.2.q b)
        [{ reads := [e.rd e.r1 0 tl.1 tl.2.q, e.rd e.r2 0 tl.1 tl.2.q], writes := [], tagBanks := [b]
           compute := fun x ws => (x.accumulate b tl.2.q (ws.getD 0 []) (ws.getD 1 []), []) }] e.mont
    | _, _ => .range
  | none => .range

/-- MAC2: ACC0 += a·b0 and ACC1 += a·b1, with a in REF1, b0 in REF2, b1 in REF0 (R81). -/
def mac2Plan (i : Nat) (w : NInstr) (t : Tx s) : Plan s :=
  match t.now.rawEng i w 0 (rawBasis w) with
  | some e =>
    match e.limbs with
    | [tl] =>
      if e.n = 2 ^ 17 then .range
      else if (t.tilesAt i).bconvUses 0 || (t.tilesAt i).bconvUses 1 then .refuse .STATE none
      else .run (fun t => ((t.noteWide i e.n).autoFold i tl.2.q 0).autoFold i tl.2.q 1)
        [{ reads := [e.rd e.r1 0 tl.1 tl.2.q, e.rd e.r2 0 tl.1 tl.2.q, e.rd e.r0 0 tl.1 tl.2.q], writes := []
           tagBanks := [0, 1]
           compute := fun x ws => ((x.accumulate 0 tl.2.q (ws.getD 0 []) (ws.getD 1 [])).accumulate 1 tl.2.q
             (ws.getD 0 []) (ws.getD 2 []), []) }] e.mont
    | _ => .range
  | none => .range

/-- The step of an ACCRD: bank mod q to REF0; CLR also zeroes the bank (R81, R88, R110). -/
def accrdStep (e : Eng) (tl : Nat × Limb) (b : Nat) (clr : Bool) : EStep s where
  reads := []
  writes := [e.wr e.r0 0 tl.1]
  compute := fun x _ =>
    let k := x.bank b
    (x.setBank b (if clr then {} else { k with live := false }), [padTo e.n (k.entries.map (· % tl.2.q))])

/-- ACCRD: raw mode, or with LDG 5 the ledger update of a key switch (R85, R110). -/
def accrdPlan (i : Nat) (w : NInstr) (t : Tx s) : Plan s :=
  let clr := bit w.imm 2
  if w.ldg = 0 then
    match t.now.rawEng i w 7 (rawBasis w) with
    | some e =>
      match bankOf e.n (bits w.imm 1 0), e.limbs with
      | some b, [tl] => .run (·.noteWide i e.n) [accrdStep e tl b clr] e.mont
      | _, _ => .range
    | none => .range
  else if w.ldg = 5 then
    match t.now.srcCtd i w.src1 with
    | some a =>
      match t.now.engAt i w (immOk w 0x7FFFF87) a.pset a.level .extended with
      | some e =>
        match bankOf e.n (bits w.imm 1 0), e.limbs with
        | some b, [tl] =>
          let kid := bits w.imm 26 7
          if !a.ntt || kid / 2 ^ 18 ≠ 0 || a.comp ≠ (if kid = 0 then 3 else 2) ||
              ((t.tilesAt i).bank b).tag ≠ 2 + (t.now.tileKsid i) * 2 ^ 20 + kid then .range
          else ledgerPlan t i 5 w.dst (ledger e.c .keySwitch [a] {}) a.pset fun u =>
            .run (fun t => u (t.noteWide i e.n)) [accrdStep e tl b clr] e.mont
        | _, _ => .range
      | none => .range
    | none => .range
  else .range

/-- ACCCLR: zeroes the bank and its term count; NLIMB 1, LIMB0 0 and zero references (R81). -/
def accclrPlan (i : Nat) (w : NInstr) (t : Tx s) : Plan s :=
  match t.now.rawEng i w 3 (rawBasis w) with
  | some e =>
    match bankOf e.n (bits w.imm 1 0), e.limbs with
    | some b, [_] =>
      if e.o.limb0 ≠ 0 || e.o.ref0 ≠ 0 || e.o.ref1 ≠ 0 || e.o.ref2 ≠ 0 then .range
      else .run (·.noteWide i e.n) [{ reads := [], writes := [], compute := fun x _ => (x.setBank b {}, []) }] e.mont
    | _, _ => .range
  | none => .range

/-- The steps of TENS: d0 = x0·y0, d1 = x0·y1 + x1·y0 with one reduction, d2 = x1·y1. -/
def tensSteps (e : Eng) : List (EStep s) :=
  e.limbs.map fun tl =>
    let q := tl.2.q
    { reads := [e.rd e.r1 0 tl.1 q, e.rd e.r1 1 tl.1 q, e.rd e.r2 0 tl.1 q, e.rd e.r2 1 tl.1 q]
      writes := [e.wr e.r0 0 tl.1, e.wr e.r0 1 tl.1, e.wr e.r0 2 tl.1]
      compute := fun x ws =>
        let z := ((ws.getD 0 []).zip (ws.getD 1 [])).zip ((ws.getD 2 []).zip (ws.getD 3 []))
        (x, [z.map fun v => v.1.1 * v.2.1 % q, z.map fun v => (v.1.1 * v.2.2 + v.1.2 * v.2.1) % q,
             z.map fun v => v.1.2 * v.2.2 % q]) }

/-- TENS: raw mode, or LDG 2 on two NTT-form, two-component sources (R85). -/
def tensPlan (i : Nat) (w : NInstr) (t : Tx s) : Plan s :=
  if w.ldg = 0 then
    match t.now.rawEng i w 0 (rawBasis w) with
    | some e => e.plain (tensSteps e)
    | none => .range
  else if w.ldg = 2 then
    match t.now.srcCtd i w.src1, t.now.srcCtd i w.src2 with
    | some a, some b =>
      match t.now.engAt i w (immOk w 0) a.pset a.level .chain with
      | some e =>
        if a.ntt && b.ntt && a.comp = 2 && b.comp = 2 then
          ledgerPlan t i 2 w.dst (ledger e.c .tensor [a, b] {}) a.pset fun u => .run u (tensSteps e) e.mont
        else .range
      | none => .range
    | _, _ => .range
  else .range

/-- Extended indices of a BCONV source range (R81, R97): digit d at the level, the whole chain, or the special basis;
none where reserved or empty. -/
def bconvRange (c : PsetCtx) (l code : Nat) : Option (List Nat) :=
  let alpha := ceilDiv c.ps.numQ c.ps.dnum
  if code < 8 then
    if code < ceilDiv (l + 1) alpha then
      some ((List.range (min ((code + 1) * alpha) (l + 1) - code * alpha)).map (code * alpha + ·))
    else none
  else if code = 8 then some (List.range (l + 1))
  else if code = 9 then some ((List.range c.ps.numP).map (l + 1 + ·))
  else none

/-- R67 without its last reduction: the sums a BCONV leaves in its bank (R68, R88). -/
def bconvSums (basis : List Nat) (b : Nat) (limbs : List (List Nat)) (n : Nat) : List Nat :=
  let a := prod basis
  (((basis.map fun q => (q, invPrime (a / q % q) q, a / q % b)).zip limbs).map fun kl =>
    kl.2.map fun x => (x % kl.1.1) * kl.1.2.1 % kl.1.1 * kl.1.2.2).foldl addEntries (List.replicate n 0)

/-- BCONV into a bank (R67, R81, R88). -/
def bconvPlan (i : Nat) (w : NInstr) (t : Tx s) : Plan s :=
  match t.now.rawEng i w 0x3F (rawBasis w) with
  | some e =>
    match bankOf e.n (bits w.imm 1 0), e.limbs, bconvRange e.c e.level (bits w.imm 5 2) with
    | some b, [tl], some js =>
      if js.contains tl.2.j || e.o.ref0 ≠ 0 || e.o.ref2 ≠ 0 then .range
      else
        let ls := js.map (extLimb e.c e.level)
        .run (·.noteWide i e.n)
          [{ reads := ls.zipIdx.map fun lt => e.rd e.r1 0 lt.2 lt.1.q, writes := []
             compute := fun x ws => (x.setBank b
               { entries := bconvSums (ls.map (·.q)) tl.2.q ws e.n, terms := 0, live := true, tag := 0 }, []) }]
          (e.mont || ls.any (·.mont))
    | _, _, _ => .range
  | none => .range

/-- LIFT: the signed correction of limb ℓ as residues of each target limb (R69, R70, R81, R89). REF1 gives limb ℓ once
for every target limb. -/
def liftPlan (i : Nat) (w : NInstr) (t : Tx s) : Plan s :=
  match t.now.rawEng i w 0x10 .below with
  | some e =>
    let bgv := bit w.imm 4
    let src := extLimb e.c e.level e.level
    let tp := e.c.ps.bgvT
    if w.basis = 1 || (bgv && (tp = 0 || tp % src.q = 0)) then .range
    else .run (fun t => t.modTiles i fun x => { x with lastLift := some (e.level, bgv) })
      (e.limbs.map fun tl =>
        { reads := [e.rd e.r1 0 0 src.q], writes := [e.wr e.r0 0 tl.1]
          compute := fun x ws => (x, [(ws.getD 0 []).map fun r =>
            fromInt (if bgv then liftBgv src.q tp r else liftCkks src.q r) tl.2.q]) })
      (e.mont || src.mont)
  | none => .range

/-- The steps of RESC: (x − c)·f mod q_j, f the inverse of q_ℓ or of P (R69, R109). -/
def rescSteps (e : Eng) (div : Bool) : List (EStep s) :=
  e.binary fun l a b =>
    let d := if div then prod e.c.p else (extLimb e.c e.level e.level).q
    (a.zip b).map fun p => rescale1 l.q d p.1 p.2

/-- RESC: raw mode with DIV 0 or 1, or LDG 4 as a rescale or modulus switch (R85, R89, R109). -/
def rescPlan (i : Nat) (w : NInstr) (t : Tx s) : Plan s :=
  let div := bit w.imm 3
  if w.ldg = 0 then
    match t.now.rawEng i w 8 (if div then .chain else .below) with
    | some e => if w.basis = 1 then .range else e.plain (rescSteps e div)
    | none => .range
  else if w.ldg = 4 then
    match t.now.srcCtd i w.src1 with
    | some a =>
      match t.now.engAt i w (immOk w 0) a.pset a.level .below with
      | some e =>
        if (t.tilesAt i).lastLift ≠ some (a.level, decide (a.kind = 1)) then .range
        else ledgerPlan t i 4 w.dst (ledger e.c (if a.kind = 0 then .rescale else .modSwitch) [a] {}) a.pset
          fun u => .run u (rescSteps e false) e.mont
      | none => .range
    | none => .range
  else .range

/-- What Worsted makes of an instruction, by OP (R81, R211). -/
def worstedPlan (i op : Nat) (w : NInstr) : Tx s → Plan s :=
  match op with
  | 0x01 => transformPlan i w true
  | 0x02 => transformPlan i w false
  | 0x03 => autPlan i w
  | 0x10 => mulPlan i w
  | 0x11 => mulcPlan i w
  | 0x12 => macPlan i w
  | 0x13 => mac2Plan i w
  | 0x14 => accrdPlan i w
  | 0x15 => accclrPlan i w
  | 0x16 => tensPlan i w
  | 0x17 => bconvPlan i w
  | 0x18 => liftPlan i w
  | 0x19 => rescPlan i w
  | _ => fun _ => .range

/-- NTT (R76). -/
def execNtt (i : Fin 64) (d : Side) (w : NInstr) (s : State) : Host.Outcome State Fault Refusal :=
  done ((begin s).issueEngine i unitWorsted 0x01 d w (worstedPlan i 0x01 w))

/-- INTT (R77). -/
def execIntt (i : Fin 64) (d : Side) (w : NInstr) (s : State) : Host.Outcome State Fault Refusal :=
  done ((begin s).issueEngine i unitWorsted 0x02 d w (worstedPlan i 0x02 w))

/-- AUT (R78, R79). -/
def execAut (i : Fin 64) (d : Side) (w : NInstr) (s : State) : Host.Outcome State Fault Refusal :=
  done ((begin s).issueEngine i unitWorsted 0x03 d w (worstedPlan i 0x03 w))

/-- MUL (R81). -/
def execMul (i : Fin 64) (d : Side) (w : NInstr) (s : State) : Host.Outcome State Fault Refusal :=
  done ((begin s).issueEngine i unitWorsted 0x10 d w (worstedPlan i 0x10 w))

/-- MULC (R81, R85). -/
def execMulc (i : Fin 64) (d : Side) (w : NInstr) (s : State) : Host.Outcome State Fault Refusal :=
  done ((begin s).issueEngine i unitWorsted 0x11 d w (worstedPlan i 0x11 w))

/-- MAC (R81, R87). -/
def execMac (i : Fin 64) (d : Side) (w : NInstr) (s : State) : Host.Outcome State Fault Refusal :=
  done ((begin s).issueEngine i unitWorsted 0x12 d w (worstedPlan i 0x12 w))

/-- MAC2 (R81, R87). -/
def execMac2 (i : Fin 64) (d : Side) (w : NInstr) (s : State) : Host.Outcome State Fault Refusal :=
  done ((begin s).issueEngine i unitWorsted 0x13 d w (worstedPlan i 0x13 w))

/-- ACCRD (R81, R88, R110). -/
def execAccrd (i : Fin 64) (d : Side) (w : NInstr) (s : State) : Host.Outcome State Fault Refusal :=
  done ((begin s).issueEngine i unitWorsted 0x14 d w (worstedPlan i 0x14 w))

/-- ACCCLR (R81). -/
def execAccclr (i : Fin 64) (d : Side) (w : NInstr) (s : State) : Host.Outcome State Fault Refusal :=
  done ((begin s).issueEngine i unitWorsted 0x15 d w (worstedPlan i 0x15 w))

/-- TENS (R81, R85). -/
def execTens (i : Fin 64) (d : Side) (w : NInstr) (s : State) : Host.Outcome State Fault Refusal :=
  done ((begin s).issueEngine i unitWorsted 0x16 d w (worstedPlan i 0x16 w))

/-- BCONV (R67, R81). -/
def execBconv (i : Fin 64) (d : Side) (w : NInstr) (s : State) : Host.Outcome State Fault Refusal :=
  done ((begin s).issueEngine i unitWorsted 0x17 d w (worstedPlan i 0x17 w))

/-- LIFT (R69, R70, R89). -/
def execLift (i : Fin 64) (d : Side) (w : NInstr) (s : State) : Host.Outcome State Fault Refusal :=
  done ((begin s).issueEngine i unitWorsted 0x18 d w (worstedPlan i 0x18 w))

/-- RESC (R69, R70, R109). -/
def execResc (i : Fin 64) (d : Side) (w : NInstr) (s : State) : Host.Outcome State Fault Refusal :=
  done ((begin s).issueEngine i unitWorsted 0x19 d w (worstedPlan i 0x19 w))

end Sys2Proof.Machine
end

