-- ==== Sys2Proof/Machine/KeySets.lean ====
section
/-!
DEFINITION. Key sets as the engines use them (ch. 05): key limb indices (R98), directory lookup (R101, R102), the stored
b-halves (R103, R117, R158) and the regenerated a-halves (R106).
-/

namespace Sys2Proof.Machine

variable {s : State}

/-- Read a directory entry (R102); none where a reserved bit is set. -/
def dirEntryOf (x : Nat) : Option DirEntry :=
  if bits x 39 33 = 0 ∧ bits x 31 20 = 0 then some ⟨bits x 19 0, bits x 83 40, bits x 127 84, bit x 32⟩ else none

/-- Class and index of a KID (R101). -/
def kidClass (kid : Nat) : Nat := kid / 2 ^ 18
@[inherit_doc kidClass] def kidIndex (kid : Nat) : Nat := kid % 2 ^ 18

/-- Is a KID legal for ring degree `n` (R101, R158)? -/
def kidLegal (n kid : Nat) : Bool :=
  let g := kidIndex kid
  match kidClass kid with
  | 0 => g = 0 || (g % 2 = 1 && 3 ≤ g && g < 2 * n)
  | 1 => g < 2
  | _ => g = 0

/-- The entry of a key in a key set's directory. -/
def KeySet.find (k : KeySet) (kid : Nat) : Option DirEntry := k.dir.find? (·.kid = kid)

/-- Stored bytes of a key (R103, R158). -/
def keyBytes (ps : Pset) (kid : Nat) : Nat :=
  let br := 2 ^ ps.gauze.brLogn
  match kidClass kid with
  | 1 => if kidIndex kid = 0 then ps.gauze.ksDigits * 4 * ps.n else ps.gauze.ksDigits * 4 * br
  | 2 => ps.lweN * 2 * (2 * ps.gauze.glev) * 4 * br
  | _ => ps.dnum * (ps.numQ + ps.numP) * 4 * ps.n

/-- Digits active at LEVEL `l` (R98, R112). -/
def digitsAt (ps : Pset) (l : Nat) : Nat := ceilDiv (l + 1) (ceilDiv ps.numQ ps.dnum)

/-- Key limb index of extended index `j` at LEVEL `l` (R98). -/
def keyLimb (ps : Pset) (l j : Nat) : Nat := if j ≤ l then j else ps.numQ + (j - l - 1)

/-- Prime of a key limb index (R98). -/
def keyPrime (c : PsetCtx) (k : Nat) : Nat := if k < c.ps.numQ then c.q.getD k 1 else c.p.getD (k - c.ps.numQ) 1

/-- Offset of the b-half limb of key limb `k`, digit `d` (R103). -/
def bOffset (ps : Pset) (k d : Nat) : Nat := (k * ps.dnum + d) * 4 * ps.n

/-- One limb position of a key on a tile: its prime, its key limb index (R98) and its row, of the Muslin nonce (R105, R158). -/
structure KeyRow where
  q : Nat
  k : Nat := 0
  w : Nat := 0
  deriving DecidableEq, Repr

/-- Ring degree of a key's polynomials (R158). -/
def keyRing (ps : Pset) (kid : Nat) : Nat :=
  if kidClass kid = 2 || (kidClass kid = 1 && kidIndex kid ≠ 0) then 2 ^ ps.gauze.brLogn else ps.n

/-- Offset of the b-half of row `r` and digit `d` (R103, R158): for class 2 the digit is σ and the index t. -/
def keyOffset (ps : Pset) (kid : Nat) (r : KeyRow) (d : Nat) : Nat :=
  match kidClass kid with
  | 1 => d * (4 * keyRing ps kid)
  | 2 => ((2 * kidIndex kid + d) * (2 * ps.gauze.glev) + r.w) * (4 * keyRing ps kid)
  | _ => bOffset ps r.k d

/-- The a-half that Muslin makes of row `r` and digit `d` (R106, R158). -/
def keyA (seed : List Byte) (ps : Pset) (kid : Nat) (r : KeyRow) (d : Nat) : List Nat :=
  muslinLimb seed kid d r.w r.k r.q (keyRing ps kid)

/-- The copy a cluster reads (R117): the replica when it lies on the cluster's own half and the base does not. -/
def State.keyCopy (s : State) (c : Nat) (e : DirEntry) : Nat :=
  if e.alt ≠ 0 ∧ s.halfOf e.alt = c / 4 ∧ s.halfOf e.base ≠ c / 4 then e.alt else e.base

/-- Is the key set bound to the record's session and ready (R112, R170)? -/
def KeySet.bound (k : KeySet) : Bool := k.live && k.state = 2

end Sys2Proof.Machine
end

