-- ==== Sys2Proof/Machine/Guard.lean ====
section
/-!
DEFINITION. What stands before every register write (ch. 18, 19, 21, 22): the module answering at all (R457, R464, R484,
R517), the page within reach of the function (R372, R497), its island powered (R500), and its world (R422, R423).
-/

namespace Sys2Proof.Machine

variable {s : State}

/-- Power state of a cluster (PWR.STATE.CLUSTER): 0 ACTIVE, 1 IDLE, 2 DOZE, 3 powered down by EMERG. -/
def State.clusterPower (s : State) (cl : Nat) : Nat := bits (s.fld PWR.STATE.CLUSTER) (2 * cl + 1) (2 * cl)

/-- Is the module in SLUMBER (R454)? -/
def State.slumber (s : State) : Bool := s.fld PWR.STATE.MODULE = 3

/-- Has the trip of R464 acted since POR? -/
def State.tripped (s : State) : Bool := s.flag GLM.STAT.TRIP

/-- Is the module in the fatal state (R484)? -/
def State.fatal (s : State) : Bool := s.flag ERRSYS.STATE.FATAL

/-- Has the module declared itself ready (R514)? Until then the first-light window is open (R517). -/
def State.ready (s : State) : Bool := s.flag RESET.BOOT.READY

/-- Is the page's island unpowered, or its cluster in DOZE (R500)? -/
def State.pageOff (s : State) (p : Page) (n : Nat) : Bool :=
  match p with
  | .TILE => 2 ≤ s.clusterPower (n / 8)
  | .CLUSTER | .MUSLIN | .SCACHE => 2 ≤ s.clusterPower n
  | _ => false

/-- May function `f` reach a page: the PF all of BAR0, a VF its own function block (R372, R497)? -/
def functionReaches (f : Nat) (p : Page) (n : Nat) : Bool :=
  f = 0 || (n = f && (p = .FN || p = .MBOX || p = .MSIX || p = .PBA))

/-- An event for the next Gloaming scan (R468). -/
def Tx.glmEvent (t : Tx s) (e : Nat) : Tx s :=
  t.putGlm { t.now.glm with events := if t.now.glm.events.contains e then t.now.glm.events else t.now.glm.events ++ [e] }

/-- What a function's BAR access meets before any page: out of reach, the fatal state, SLUMBER, the first-light window. -/
inductive HostGate
  | pass
  | reach
  | fatal
  | asleep
  | window
  deriving DecidableEq, Repr

/-- The gate of a register access to a page. -/
def State.gate (s : State) (o : RegFrom) (p : Page) (n : Nat) : HostGate :=
  match o with
  | .core _ => .pass
  | .fn f =>
    if !functionReaches f p n then .reach
    else if s.fatal then .fatal
    else if s.slumber then .asleep
    else if !s.ready then .window
    else .pass

/-- A write to a page's register. Nothing happens after a trip (R464) or in the fatal state (R484); a write in SLUMBER wakes
the module (R457); a write in the first-light window or to a page without power is NOT_READY (R500, R517), except that a
dozing tile page's kept fields follow their own rule (`kept`, R500); a normal-world write to a page of the secure world is
DENIED (R423). -/
def Tx.guarded (t : Tx s) (o : RegFrom) (p : Page) (n : Nat) (f : Tx s → Tx s) (kept : Bool := false) : Tx s :=
  if t.now.tripped && p ≠ .GLM then t
  else
    match t.now.gate o p n with
    | .reach => t.logStatus .CHIP 0 .RANGE
    | .fatal => t
    | .asleep => t.glmEvent 0
    | .window => t.logStatus .CHIP 0 .NOT_READY
    | .pass =>
      if t.now.pageOff p n && !(kept && t.now.clusterPower (n / 8) = 2) then t.logStatus .CHIP 0 .NOT_READY
      else if o.world = .normal ∧ !p.isWindow ∧ t.flag (HDR.OWNER.WORLD p) n then
        (t.logStatus p n .DENIED).bump SEC.DENYCNT.WRITE
      else f t

/-- A write that is performed in the first-light window too: RESET.CAUSE and RESET.SWRST (R517). -/
def Tx.guardedOpen (t : Tx s) (o : RegFrom) (p : Page) (n : Nat) (f : Tx s → Tx s) : Tx s :=
  if !t.now.tripped && t.now.gate o p n = .window then f t else t.guarded o p n f

end Sys2Proof.Machine
end

