-- ==== Sys2Proof/Machine/HostBase.lean ====
section
/-!
DEFINITION. What the host and the firmware cores get back from a register read (R375, R484, R495, R500, R517), and the
readings of registers whose reads change state.
-/

namespace Sys2Proof.Machine

variable {s : State}

/-- PCIe completion statuses: Successful Completion, Unsupported Request, Request Retry Status, Completer Abort; and
Successful Completion with the poisoned (EP) attribute. -/
def pcieSC : Nat := 0
@[inherit_doc pcieSC] def pcieUR : Nat := 1
@[inherit_doc pcieSC] def pcieRRS : Nat := 2
@[inherit_doc pcieSC] def pcieCA : Nat := 4
@[inherit_doc pcieSC] def pcieEP : Nat := 8

/-- How a device status is carried on PCIe for a read or AtomicOp (table "Device statuses on PCIe"). -/
def Status.pcie : Status → Nat
  | .OK => pcieSC
  | .POISON => pcieEP
  | .RANGE | .WINDOW => pcieUR
  | _ => pcieCA

/-- Answer a register read. -/
def Tx.answer (t : Tx s) (o : RegFrom) (st : Status) (bs : List Byte) : Tx s :=
  match o with
  | .fn f => t.emit (.reply (.bar f) st.pcie (if st = .OK then bs else []))
  | .core k => t.emit (.reply (.core k) st.code (if st = .OK then bs else []))

/-- May a page be read in the first-light window (R517), in the fatal state (R484)? -/
def windowReadable (p : Page) : Bool := p = .CHIP || p = .RESET || p = .STRAP || p = .ERRSYS || p = .LIFE
@[inherit_doc windowReadable] def fatalReadable (p : Page) : Bool := p = .CHIP || p = .ERRSYS

/-- A read of `n` bytes at offset `off` of a page: what stands before it as before a write (`Tx.guarded`), then the reply
`w` and the read's own effect. A page without power reads its reset values (R500). -/
def Tx.readGuarded (t : Tx s) (o : RegFrom) (p : Page) (i off n : Nat) (w : Nat) (f : Tx s → Tx s) : Tx s :=
  let g := t.now.gate o p i
  if t.now.tripped && p ≠ .GLM then t
  else if g = .reach then t.answer o .RANGE []
  else if (g = .fatal && !fatalReadable p) || (g = .window && !windowReadable p) then t.answer o .NOT_READY []
  else if g = .asleep then (t.glmEvent 0).answer o .NOT_READY []
  else if t.now.pageOff p i then t.answer o .OK (natLe n (resetWord (p.base i + off)).toNat)
  else f (t.answer o .OK (natLe n w))

end Sys2Proof.Machine
end

