-- ==== Sys2Proof/Machine/KeyCache.lean ====
section
/-!
DEFINITION. The key cache of a cluster (R118 to R121): what it holds, and the fetch of a b-half limb.
-/

namespace Sys2Proof.Machine

variable {s : State}

/-- Bytes that the key cache holds, of one set or of all. -/
def Cluster.keyBytesHeld (c : Cluster) (ksid : Option Nat) : Nat :=
  ((c.keyCache.filter fun l => ksid.all (· = l.ksid)).map (·.bytes)).sum

/-- Occupancy of the key cache in units of 256 KiB (KCSTAT.USED). -/
def Cluster.keyUnits (c : Cluster) : Nat := ceilDiv (c.keyBytesHeld none) 0x40000

/-- The limbs of a key set leave every cluster's key cache (R118). -/
def Tx.dropKeys (t : Tx s) (ksid : Nat) : Tx s :=
  t.forEach (List.range 8) fun t cl => t.modClusters cl fun c => { c with keyCache := c.keyCache.filter (·.ksid ≠ ksid) }

/-- Has a held limb the tag (R118)? -/
def KcLimb.is (l : KcLimb) (ksid gen kid k d : Nat) : Bool := l.ksid = ksid && l.gen = gen && l.kid = kid && l.k = k && l.d = d

/-- A key as a cluster fetches it: its set and number, its KID, its directory entry, its parameter set, and whether this fetch counts:
a limb that goes to all eight tiles is fetched and counted once (R107). -/
structure KeyRef where
  ks : KeySet
  ksid : Nat
  kid : Nat
  e : DirEntry
  ps : Pset
  counts : Bool := true
  deriving DecidableEq, Repr

/-- The local address of row `r`, digit `d` of a key for cluster `cl`. -/
def KeyRef.at_ (k : KeyRef) (s : State) (cl : Nat) (r : KeyRow) (d : Nat) : Nat := s.keyCopy cl k.e + keyOffset k.ps k.kid r d

/-- Fetch a b-half limb for the cluster of tile `i` (R117 to R119): a hit gives the words held, without an access to memory; a miss
reads memory, and allocates where the directory pins the key, the set's quota and the free space allow; class 2 limbs never enter the
cache (R166). A refused line gives its status; a poisoned one POISON, and the limb is then not held (R120). -/
def Tx.fetchKeyLimb (t : Tx s) (i : Nat) (key : KeyRef) (r : KeyRow) (d : Nat) : Tx s × (Status ⊕ List Nat) :=
  let cl := i / 8
  let n := 4 * keyRing key.ps key.kid
  let a := key.at_ t.now cl r d
  let c := t.clustersAt cl
  match c.keyCache.find? (·.is key.ksid key.ks.gen key.kid r.k d) with
  | some l =>
    let t := t.when key.counts fun t => t.bump MUSLIN.KCHIT.HIT 1 cl
    if l.bad then (t.modClusters cl fun c => { c with keyCache := c.keyCache.filter (· ≠ l) }, .inl .POISON)
    else (t, .inr l.words)
  | none =>
    let t := t.when key.counts fun t => t.bump MUSLIN.KCHIT.MISS 1 cl
    let st := t.now.rangeStatus (.tile i) a n
    if st ≠ .OK then (t.logRead (.tile i) a n, .inl st)
    else if t.now.poisoned a n then (t, .inl .POISON)
    else
      let ws := t.now.readWords a (keyRing key.ps key.kid)
      let fits := key.e.pin && kidClass key.kid ≠ 2 && c.keyBytesHeld (some key.ksid) + n ≤ key.ks.kcQuota * 0x40000 &&
        c.keyBytesHeld none + n ≤ c.kcSize * 2 ^ 20
      (t.when fits fun t => t.modClusters cl fun c =>
        { c with keyCache := c.keyCache ++
            [{ ksid := key.ksid, gen := key.ks.gen, kid := key.kid, k := r.k, d := d, bytes := n, words := ws }] },
       .inr ws)

/-- Fetch several limbs of a key in order: their words, up to one that fails, with its address and status. -/
def Tx.fetchKeyLimbs (t : Tx s) (i : Nat) (key : KeyRef) : List (KeyRow × Nat) → Tx s × List (List Nat) × Option (Nat × Status)
  | [] => (t, [], none)
  | p :: ps =>
    let a := t.fetchKeyLimb i key p.1 p.2
    match a.2 with
    | .inl st => (a.1, [], some (key.at_ t.now (i / 8) p.1 p.2, st))
    | .inr ws =>
      let b := a.1.fetchKeyLimbs i key ps
      (b.1, ws :: b.2.1, b.2.2)

/-- Muslin generates the a-halves of `n` limbs of a key (R105, R121). -/
def Tx.countBlocks (t : Tx s) (i : Nat) (key : KeyRef) (n : Nat) : Tx s :=
  t.when key.counts fun t => t.bump MUSLIN.BLOCKS.BLOCKS (n * (keyRing key.ps key.kid / 8)) (i / 8)

/-! ### The order of a cluster's key streams (R112, R115) -/

/-- Does a tile of the cluster, working for the same record, still await limbs of a key stream before number `h`, or has it not yet
issued one of those (R115)? -/
def State.earlierKey (s : State) (i h : Nat) : Bool :=
  (clusterTiles (i / 8)).any fun j =>
    (s.tilesAt j).rec? = (s.tilesAt i).rec? && s.keyWaits j &&
      ((s.tilesAt j).kCount < h || (s.tilesAt j).kstream.any (·.head < h))

/-- The header that the relay chain carries (R112); a BLINDROT's stream (R166) is none of a KSTREAM. -/
def KStream.header (k : KStream) : List Nat := [k.ksid, k.kid, k.level, k.dlo, k.dhi] ++ if k.rot then [1] else []

/-- May the tile not yet open its next key stream: an earlier one runs on the cluster (R115), or a noise step does, which comes
first (R320)? -/
def State.keyHeld (s : State) (i : Nat) : Bool :=
  let n := (s.tilesAt i).kCount
  s.earlierKey i n || ((s.clustersAt (i / 8)).noise ≠ [] && (s.clustersAt (i / 8)).kheads[n]? = none)

/-- Does the stream's header disagree with the one that the cluster's first tile gave (R112)? -/
def State.keyDiffers (s : State) (i : Nat) (k : KStream) : Bool :=
  ((s.clustersAt (i / 8)).kheads[(s.tilesAt i).kCount]?).any (· ≠ k.header)

/-- Open a key stream on the tile; the first tile of the cluster gives the header. -/
def Tx.openKey (t : Tx s) (i : Nat) (k : KStream) : Tx s :=
  let n := (t.tilesAt i).kCount
  let t := t.when ((t.clustersAt (i / 8)).kheads.length ≤ n) fun t =>
    t.modClusters (i / 8) fun c => { c with kheads := c.kheads ++ [k.header] }
  t.modTiles i fun x => { x with kstream := some { k with head := n }, kCount := n + 1 }

end Sys2Proof.Machine
end

