-- ==== Sys2Proof/Machine/Gauze.lean ====
section
/-!
DEFINITION. Gauze (ch. 07): tables (R154 to R156), gadget decomposition (R157), bundles (R160) and the five macros (R161
to R165). A macro does its work when it issues (R151), but for a BLINDROT, which takes one coordinate at a time as its key stream brings
the elements (R166, R169), and an LWE_KS on a tile that waits for the scatter (R168).
-/

namespace Sys2Proof.Machine

variable {s : State}

/-- UNIT code of Gauze (R203). -/
def unitGauze : Nat := 5

/-! ### Polynomials modulo q0 -/

/-- X^k · a in the negacyclic ring of degree `n` (k taken modulo 2n). -/
def polyRot (q n k : Nat) (a : List Nat) : List Nat :=
  let r := k % n
  let b := (a.drop (n - r)).map (modNeg q) ++ a.take (n - r)
  if k / n % 2 = 1 then b.map (modNeg q) else b

/-- Element-wise sum and difference modulo q. -/
def polyAdd (q : Nat) (a b : List Nat) : List Nat := (a.zip b).map fun p => modAdd q p.1 p.2
@[inherit_doc polyAdd] def polySub (q : Nat) (a b : List Nat) : List Nat := (a.zip b).map fun p => modSub q p.1 p.2

/-- Σ of coefficient-form polynomials times evaluation-form ones, in coefficient form. -/
def polyDot (l : Limb) (logn : Nat) (ds ks : List (List Nat)) : List Nat :=
  intt l logn (((ds.zip ks).map fun p =>
    ((ntt l logn p.1).zip p.2).map fun v => modMul l.q v.1 v.2).foldl (polyAdd l.q) (List.replicate (2 ^ logn) 0))

/-- The digits of a residue (R157). -/
def decomp (g b : Nat) (x : Nat) : List Int :=
  let sh := 32 - g * b
  let rec go : Nat → Int → List Int
    | 0, _ => []
    | 1, y => [y]
    | n + 1, y =>
      let d := y % (2 ^ b : Nat)
      let y' := floorI y (2 ^ b)
      if (2 ^ (b - 1) : Nat) ≤ d then (d - (2 ^ b : Nat)) :: go n (y' + 1) else d :: go n y'
  go g (if sh = 0 then (x : Int) else (((x + 2 ^ (sh - 1)) >>> sh : Nat) : Int))

/-- The digit polynomials of a polynomial modulo q (R157); a word is read modulo q (R52). -/
def decompPoly (q g b : Nat) (a : List Nat) : List (List Nat) :=
  let ds := a.map fun x => decomp g b (x % q)
  (List.range g).map fun i => ds.map fun d => fromInt (d.getD i 0) q

/-! ### Lookup tables (R154 to R156) -/

/-- A lookup table. -/
structure Lut where
  w : Nat
  p : Nat
  outsLog : Nat
  nega : Bool
  entries : List Int
  deriving DecidableEq, Repr

/-- log2 H. -/
def Lut.hLog (u : Lut) : Nat := if u.nega then u.w - 1 else u.w

/-- Read a table, or refuse it (R156). -/
def lutOf (bs : List Byte) : Option Lut :=
  let b (i : Nat) : Nat := (bs.getD i 0).toNat
  let u : Lut := { w := b 0, p := b 1, outsLog := b 2, nega := bit (b 3) 0
                   entries := (List.range 16).map fun i => signed (leNat ((bs.drop (16 + 2 * i)).take 2)) 16 }
  let used := 2 ^ u.outsLog * 2 ^ u.hLog
  let zero (lo n : Nat) : Bool := ((bs.drop lo).take n).all (· = 0)
  if 1 ≤ u.w && u.w ≤ 5 && 1 ≤ u.p && u.p ≤ 8 && u.outsLog ≤ 2 && b 3 < 2 && zero 4 4 && zero 12 4 && zero 48 16 &&
      (if u.nega then u.w = 5 && u.outsLog = 0 else u.w + u.outsLog ≤ 4) &&
      ((u.entries.take used).all fun e => e.natAbs ≤ 2 ^ u.p - 1) && (u.entries.drop used).all (· = 0)
  then some u else none

/-- Sub-sector Vs at blind-rotation degree `n`. -/
def Lut.sub (u : Lut) (n : Nat) : Nat := n / 2 ^ u.hLog / 2 ^ u.outsLog

/-- The test polynomial (R155). -/
def testPoly (u : Lut) (q n : Nat) : List Nat :=
  let h := 2 ^ u.hLog
  let vs := u.sub n
  let dout : Int := ((q + 2 ^ u.p) / 2 ^ (u.p + 1) : Nat)
  (List.range n).map fun j =>
    let i := (j + vs / 2) / vs
    let x := i / 2 ^ u.outsLog
    let o := i % 2 ^ u.outsLog
    if x < h then fromInt (u.entries.getD (o * h + x) 0 * dout) q
    else fromInt (-(u.entries.getD (o * h + (x - h)) 0) * dout) q

/-! ### Samples and bundles (R160, R162, R163) -/

/-- Stride in bytes of a sample of dimension `n`: n mask words and the body, rounded up to a line. -/
def sampleStride (n : Nat) : Nat := 64 * ceilDiv (4 * (n + 1)) 64

/-- Extract the sample at position `j` with stride `m` and dimension `n`: masks then body (R162 step 2). -/
def extractSample (q ring m n j : Nat) (c0 c1 : List Nat) : List Nat :=
  ((List.range n).map fun t =>
    if t * m ≤ j then c1.getD (j - t * m) 0 % q else modNeg q (c1.getD (j + ring - t * m) 0)) ++ [c0.getD j 0 % q]

/-- Switch a word to 2^`lq` (R162 step 3). -/
def switchWord (q lq x : Nat) : Nat := (2 * x * 2 ^ lq + q) / (2 * q) % 2 ^ lq

/-- Switch a word to modulus 2N in multiples of 2^D (R163), with sh = s + D. -/
def modswWord (lq sh dd n x : Nat) : Nat :=
  let x := x % 2 ^ lq
  (if sh = 0 then x else (x + 2 ^ (sh - 1)) >>> sh) * 2 ^ dd % (2 * n)

/-- The key switch of R162 step 1: digits of c1 against b-halves and a-halves. -/
def lweSwitch (l : Limb) (logn g b : Nat) (bs as : List (List Nat)) (c0 c1 : List Nat) : List Nat × List Nat :=
  let ds := decompPoly l.q g b c1
  (polyAdd l.q c0 (polyDot l logn ds bs), polyDot l logn ds as)

/-! ### Keys -/

/-- Is any line of a stored key poisoned? -/
def State.keyPoisoned (s : State) (c : Nat) (e : DirEntry) (n : Nat) : Bool := s.poisoned (s.keyCopy c e) n

/-- The key set of the tile's record, bound (R170). -/
def State.recKeys (s : State) (i : Nat) : Option KeySet :=
  let k := s.ksetsAt (s.tileKsid i)
  if k.bound && (s.tilesAt i).rec?.isSome then some k else none

/-! ### The macros -/

/-- B of R160 from IMM [4:0]; none outside 16 to 256. -/
def bundleOf (w : NInstr) : Option Nat :=
  let b := 8 * (bits w.imm 4 0 + 1)
  if 16 ≤ b then some b else none

/-- The scratchpad offset of a bundle reference that fits the tile: k samples of dimension `n` (R160). The reference gives the place, and the
descriptor's ADDR is not compared with it: DEDUCED, log entry 76. -/
def State.bundleFits (s : State) (i off k n : Nat) : Bool :=
  (List.range 8).all fun p => off + k * sampleStride n ≤ s.spadEnd (8 * (i / 8) + p)

/-- The scratchpad range of a source polynomial lies within the tile (R214). -/
def State.limbFits (s : State) (i off n : Nat) : Bool := off + 4 * n ≤ s.spadEnd i

/-- EXTRACT (R161). LDG of a macro is any nonzero value, which the spec does not name (R152); a source with COMP 3 is refused, of which it
says nothing; and REF1's two polynomials must lie within the scratchpad of every tile: DESIGN CHOICE, log entry 66. -/
def extractPlan (i : Nat) (w : NInstr) (t : Tx s) : Plan s :=
  let o := opWord w
  match t.now.srcCtd i w.src1, bundleOf w, refOpnd o.ref0, refOpnd o.ref1, refOpnd o.ref2 with
  | some a, some b, some _, some (.spad off), some r2 =>
    let c := t.now.psetCtx a.pset
    let ps := (t.readOpnd i r2 b).2
    if w.ldg = 0 || !immOk w 0x1F || o.resv ≠ 0 || a.kind ≠ 0 || a.level ≠ 0 || a.ntt || a.comp ≠ 2 || c.ps.logn = 17 ||
        !bit c.ps.kinds 2 || !t.now.limbFits i off c.ps.n || !t.now.limbFits i (off + o.pstride * 64) c.ps.n ||
        (!ps.bad && ps.words.any (c.ps.n ≤ ·)) then .range
    else ledgerPlan t i w.ldg.toNat w.dst (ledger c .extract [a] {}) a.pset fun u =>
      .run u [{
        reads := [(r2, b, 0)], writes := []
        compute := fun x ws =>
          ({ x with gauze := some ⟨ws.getD 0 [], w.dst, off, off + o.pstride * 64⟩ }, []) }] (c.mont.getD 0 false)
  | _, _, _, _, _ => .range

/-- The words that a macro makes non-canonical reads of, besides its operands' (R52): those of a key, under their prime. -/
def keyReads (q : Nat) (ws : List (List Nat)) : List (Nat × List Nat) := ws.map fun w => (q, w)

/-- LWE_KS (R162): the tile at cluster position 0 switches the source and scatters the samples; on every other tile the
macro ends the pending bundle, and waits for the scatter. -/
def lweKsPlan (i : Nat) (w : NInstr) (t : Tx s) : Plan s :=
  let o := opWord w
  match t.now.srcCtd i w.src1, bundleOf w, refOpnd o.ref0, refOpnd o.ref1, refOpnd o.ref2 with
  | some a, some b, some (.spad dst), some _, some _ =>
    let c := t.now.psetCtx a.pset
    let ps := c.ps
    let g := ps.gauze
    match (t.tilesAt i).gauze with
    | some pb =>
      if w.ldg = 0 || !immOk w 0x1F || o.resv ≠ 0 || a.kind ≠ 2 || a.lwemod ≠ 0 || pb.positions.length ≠ b ||
          !t.now.bundleFits i dst (b / 8) ps.lweN then .range
      else
        match t.now.recKeys i with
        | none => .refuse .STATE none
        | some ks =>
          match ks.find (2 ^ 18) with
          | none => .range
          | some e =>
            let l := extLimb c 0 0
            let n := ps.n
            let key : KeyRef := { ks := ks, ksid := t.now.tileKsid i, kid := 2 ^ 18, e := e, ps := ps }
            let rows := (List.range g.ksDigits).map fun d => (({ q := l.q } : KeyRow), d)
            let got := (t.fetchKeyLimbs i key rows).2
            let work (t : Tx s) (ws : List (List Nat)) : Tx s :=
              let as := rows.map fun r => keyA ks.seed ps (2 ^ 18) r.1 r.2
              let y := lweSwitch l ps.logn g.ksDigits g.ksBaseLog got.1 as (ws.getD 0 []) (ws.getD 1 [])
              t.forEach pb.positions.zipIdx fun t jb =>
                t.writeWords (spadBase (8 * (i / 8) + jb.2 % 8) + dst + jb.2 / 8 * sampleStride ps.lweN)
                  ((extractSample l.q n (n / ps.lweN) ps.lweN jb.1 y.1 y.2).map (switchWord l.q ps.lweLogq))
            let head := i % 8 = 0
            ledgerPlan t i w.ldg.toNat w.dst (ledger c .lweKs [a] {}) a.pset fun u =>
              .run u [{
                reads := if head then [(.spad pb.off0, n, l.q), (.spad pb.off1, n, l.q)] else []
                writes := []
                more := if head then keyReads l.q got.1 else []
                check := fun _ _ => if head then got.2.map (·.2) else none
                note := fun _ ws t =>
                  if head then
                    let t := (t.fetchKeyLimbs i key rows).1.countBlocks i key got.1.length
                    if got.2.isNone then work t ws else t
                  else t
                compute := fun x _ => ({ x with gauze := none }, []) }] l.mont
    | none => .range
  | _, _, _, _, _ => .range

/-- MODSW (R163). -/
def modswPlan (i : Nat) (w : NInstr) (t : Tx s) : Plan s :=
  let o := opWord w
  match t.now.srcCtd i w.src1, bundleOf w, refOpnd o.ref0, refOpnd o.ref1, refOpnd o.ref2 with
  | some a, some b, some (.spad dst), some (.spad src), some _ =>
    let c := t.now.psetCtx a.pset
    let ps := c.ps
    let dd := ps.logn - ps.gauze.brLogn
    if w.ldg = 0 || !immOk w 0x1F || o.resv ≠ 0 || a.kind ≠ 2 || a.lwemod ≠ 1 || ps.lweLogq < ps.logn + 1 then .range
    else
      let sh := ps.lweLogq - (ps.logn + 1) + dd
      ledgerPlan t i w.ldg.toNat w.dst (ledger c .lweModsw [a] {}) a.pset fun u =>
        .run u ((List.range (b / 8)).map fun k =>
          { reads := [(.spad (src + k * sampleStride ps.lweN), ps.lweN + 1, 0)]
            writes := [(.spad (dst + k * sampleStride ps.lweN), ps.lweN + 1)]
            compute := fun x ws => (x, [(ws.getD 0 []).map (modswWord ps.lweLogq sh dd ps.n)]) }) false
  | _, _, _, _, _ => .range

/-- ext(K, acc) of R164: both halves, with the key's rows. -/
def extProduct (l : Limb) (g : GauzeParams) (row : Nat → List Nat × List Nat) (acc : List Nat × List Nat) :
    List Nat × List Nat :=
  let ds := decompPoly l.q g.glev g.bgLog acc.1 ++ decompPoly l.q g.glev g.bgLog acc.2
  let ks := (List.range (2 * g.glev)).map row
  (polyDot l g.brLogn ds (ks.map (·.1)), polyDot l g.brLogn ds (ks.map (·.2)))

/-- One coordinate of the blind rotation, with its element's rows: acc + (X^−a − 1)·ext(BSK[t][0], acc) +
(X^a − 1)·ext(BSK[t][1], acc). -/
def rotateStep (l : Limb) (g : GauzeParams) (key : Nat → Nat → List Nat × List Nat) (acc : List Nat × List Nat) (a : Nat) :
    List Nat × List Nat :=
  let n := 2 ^ g.brLogn
  let a := a % (2 * n)
  let m (k : Nat) (p : List Nat) := polySub l.q (polyRot l.q n k p) p
  let e0 := extProduct l g (key 0) acc
  let e1 := extProduct l g (key 1) acc
  (polyAdd l.q (polyAdd l.q acc.1 (m (2 * n - a) e0.1)) (m a e1.1),
   polyAdd l.q (polyAdd l.q acc.2 (m (2 * n - a) e0.2)) (m a e1.2))

/-- The accumulator that a blind rotation of a sample (n masks and the body) begins with (R164). -/
def rotationStart (l : Limb) (ps : Pset) (u : Lut) (sample : List Nat) : List Nat × List Nat :=
  let n := 2 ^ ps.gauze.brLogn
  let beta := sample.getD ps.lweN 0 >>> (ps.logn - ps.gauze.brLogn)
  (polyRot l.q n (2 * n - beta % (2 * n)) (testPoly u l.q n), List.replicate n 0)

/-- The end of a blind rotation: the key switch with the class 1 key of index 1, then the words of each output (R164). -/
def finishRotation (l : Limb) (ps : Pset) (g : GzRun) (bs as : List (List Nat)) (acc : List Nat × List Nat) : List (List Nat) :=
  let n := 2 ^ ps.gauze.brLogn
  let y := lweSwitch l ps.gauze.brLogn ps.gauze.ksDigits ps.gauze.ksBaseLog bs as acc.1 acc.2
  (List.range g.outs).map fun o =>
    (extractSample l.q n (n / ps.lweN) ps.lweN (o * g.vs) y.1 y.2).map (switchWord l.q ps.lweLogq)

/-- A BLINDROT's destination samples are left undefined (R170). -/
def Tx.spoilSamples (t : Tx s) (i : Nat) (ps : Pset) (g : GzRun) : Tx s :=
  t.forEach ((List.range g.outs).flatMap fun v => (List.range g.samples.length).map fun k =>
      g.dst + v * g.step + k * sampleStride ps.lweN) fun t off =>
    t.spoilBytes (spadBase i + off) (4 * (ps.lweN + 1))

/-- The ledger of a BLINDROT (R44, R46, R154): HEADROOM for its table's kind and the reduced DECRYPT on the input, every
check on the destination. -/
def blindrotLedger (c : PsetCtx) (u : Lut) (a : Ctd) : LedgerOut :=
  if sourcesRefused c (.blindrot u.p) [a] then .refused
  else
    let r := ledgerRow c (.blindrot u.p) a {}
    let codes := (failingChecks c a { nega := u.nega, outsLog := u.outsLog }).filter (fun k => k = 1 || k = 4) ++
      failingChecks c r.1 { saturated := r.2 }
    match codes with
    | [] => .passed r.1
    | k :: ks => .failed (ks.foldl min k) r.1

/-- The destination of output `o` of a BLINDROT: ADDR advanced (R164). -/
def Tile.putOutputs (x : Tile) (dst outs step : Nat) (d : Ctd) : Tile :=
  (List.range outs).foldl (fun x o => x.putCtd (dst + o) { d with addr := d.addr + o * step }) x

/-- What a BLINDROT works on: its samples and what it begins with, from the scratchpad (R155, R160, R164). -/
def State.rotation (s : State) (i : Nat) (w : NInstr) : GzRun :=
  let o := opWord w
  match s.srcCtd i w.src1, bundleOf w, refOpnd o.ref0, refOpnd o.ref1, refOpnd o.ref2 with
  | some a, some b, some (.spad dst), some (.spad src), some (.spad lo) =>
    let c := s.psetCtx a.pset
    let u := (lutOf (s.read (spadBase i + lo) 64)).getD { w := 1, p := 1, outsLog := 0, nega := false, entries := [] }
    let samples := (List.range (b / 8)).map fun k => s.readWords (spadBase i + src + k * sampleStride c.ps.lweN) (c.ps.lweN + 1)
    { pset := a.pset, dst := dst, step := o.pstride * 64, outs := 2 ^ u.outsLog, vs := u.sub (2 ^ c.ps.gauze.brLogn),
      samples := samples, accs := samples.map (rotationStart (extLimb c 0 0) c.ps u) }
  | _, _, _, _, _ => {}

/-- The key stream that a BLINDROT opens: the class 2 key, element by element (R166). -/
def rotationStream (ksid : Nat) : KStream := { ksid := ksid, kid := 2 * 2 ^ 18, dhi := 1, rot := true }

/-- BLINDROT at issue (R154, R155, R156, R164): the samples and the table are read; it waits for an earlier key stream of the cluster
(R115, R166). Stopped by POISON, it leaves its destination samples undefined (R170). -/
def blindrotPlan (i : Nat) (w : NInstr) (t : Tx s) : Plan s :=
  let o := opWord w
  match t.now.srcCtd i w.src1, bundleOf w, refOpnd o.ref0, refOpnd o.ref1, refOpnd o.ref2 with
  | some a, some b, some (.spad dst), some (.spad src), some (.spad lo) =>
    let c := t.now.psetCtx a.pset
    let ps := c.ps
    let bytes := t.now.read (spadBase i + lo) 64
    let bad := t.now.poisoned (spadBase i + lo) 64
    match (if bad then some { w := 1, p := 1, outsLog := 0, nega := false, entries := [] } else lutOf bytes) with
    | none => .range
    | some u =>
      let outs := 2 ^ u.outsLog
      let want : Int := ((ps.logn : Int) - u.hLog) * 65536
      if w.ldg = 0 || !immOk w 0x1F || o.resv ≠ 0 || a.kind ≠ 2 || a.lwemod ≠ 2 || t.now.spadEnd i < lo + 64 ||
          (!bad && 256 < ((a.scale : Int) - want).natAbs) || 255 < w.dst + outs - 1 ||
          (w.dst ≤ w.src1 && w.src1 < w.dst + outs) then .range
      else if t.now.keyHeld i then .wait
      else
        match t.now.recKeys i with
        | none => .refuse .STATE none
        | some ks =>
          if (ks.find (2 * 2 ^ 18)).isNone || (ks.find (2 ^ 18 + 1)).isNone || t.now.keyDiffers i (rotationStream (t.now.tileKsid i))
          then .range
          else
            let l := extLimb c 0 0
            let g := t.now.rotation i w
            let steps : List (EStep s) := (List.range (b / 8)).map fun k =>
              { reads := [(.spad (src + k * sampleStride ps.lweN), ps.lweN + 1, 0), (.spad lo, 16, 0)]
                writes := (List.range outs).map fun v =>
                  (.spad (dst + v * o.pstride * 64 + k * sampleStride ps.lweN), ps.lweN + 1)
                spoil := fun t => t.spoilSamples i ps g
                compute := fun x _ => (x, []) }
            match blindrotLedger c u a with
            | .refused => .range
            | .failed code d =>
              if traps ps (t.flagEff TILE.LDGCTL.FORCE_TRAP i) then
                .refuse .LEDGER (some (ledgerDetail code w.ldg.toNat w.dst d.tag))
              else .run (fun t => (t.modTiles i (·.putOutputs w.dst outs (o.pstride * 64) { d with ovr := true })).when
                (i % 8 = 0) fun t => t.bump TILE.LDGCNT.OVER 1 i) steps l.mont
            | .passed d => .run (fun t => t.modTiles i (·.putOutputs w.dst outs (o.pstride * 64) d)) steps l.mont
  | _, _, _, _, _ => .range

/-- Keys a REPACK needs (R159): KIDs, with those of class 0 that its vendor sequence names. log2 B of a B that is no power of two is
rounded up: DEDUCED, log entry 66. -/
def repackKids (ps : Pset) (b : Nat) (further : List Nat) : List Nat :=
  [0, 3 * 2 ^ 18] ++ ((List.range (ps.logn - clog2 b)).map fun j => 2 * ps.n / 2 ^ (j + 1) + 1) ++ further

/-- The samples of a bundle in order, from the cluster's tiles. -/
def State.bundleWords (s : State) (cl off b n : Nat) : List Nat :=
  (List.range b).flatMap fun k => s.readWords (spadBase (8 * cl + k % 8) + off + k / 8 * sampleStride n) (n + 1)

/-- The first poisoned sample of a bundle, by its local address (R170). -/
def State.bundlePoison (s : State) (cl off b n : Nat) : Option Nat :=
  ((List.range b).map fun k => spadBase (8 * cl + k % 8) + off + k / 8 * sampleStride n).find? fun a => s.poisoned a (4 * (n + 1))

/-- Have the tiles of the record in the cluster issued the macros before number `h`, and ended them (R160)? -/
def State.macrosDone (s : State) (i h : Nat) : Bool :=
  (clusterTiles (i / 8)).all fun j =>
    (s.tilesAt j).rec? ≠ (s.tilesAt i).rec? || !s.keyWaits j ||
      (h ≤ (s.tilesAt j).gzCount && (s.tilesAt j).engines.all fun e => e.unit ≠ unitGauze || e.left = 0)

/-- REPACK (R165): it reads the samples on all eight tiles once their macros before it have ended, which the spec does not say in so many
words (DEDUCED, log entry 66). The words are a free function of all that the sequence works on (log entry 2). -/
def repackPlan (i : Nat) (w : NInstr) (t : Tx s) : Plan s :=
  let o := opWord w
  match t.now.srcCtd i w.src1, bundleOf w, refOpnd o.ref0, refOpnd o.ref1, refOpnd o.ref2 with
  | some a, some b, some (.spad dst), some (.spad src), some _ =>
    let c := t.now.psetCtx a.pset
    let ps := c.ps
    let g := ps.gauze
    let st := bits w.imm 10 5
    let seqs := t.now.fw.vendor.repacks
    if w.ldg = 0 || !immOk w 0x7FF || o.resv ≠ 0 || a.kind ≠ 2 || a.lwemod ≠ 1 || g.repackSeq = 0 ||
        !(seqs.any (·.1 = g.repackSeq)) || st = 0 || 60 < st || !t.now.bundleFits i src (b / 8) ps.lweN then .range
    else if !t.now.macrosDone i (t.tilesAt i).gzCount then .wait
    else
      match t.now.recKeys i with
      | none => .refuse .STATE none
      | some ks =>
        let kids := repackKids ps b (mapGet [] seqs g.repackSeq)
        if kids.any fun k => (ks.find k).isNone then .range
        else
          let words := t.now.bundleWords (i / 8) src b ps.lweN
          let keys := kids.map fun k => (ks.find k).elim [] fun e => t.now.readWords (t.now.keyCopy (i / 8) e) (keyBytes ps k / 4)
          let ls := (tileLimbs c g.repackLevel .chain (i % 8)).zipIdx
          let bad := (t.now.bundlePoison (i / 8) src b ps.lweN).isSome ||
            kids.any fun k => (ks.find k).any fun e => t.now.keyPoisoned (i / 8) e (keyBytes ps k)
          ledgerPlan t i w.ldg.toNat w.dst (ledger c (.repack (st * 65536 : Nat) b g.repackLevel) [a] {}) a.pset fun u =>
            .run u [{
              reads := (List.range (b / 8)).map fun k => (.spad (src + k * sampleStride ps.lweN), ps.lweN + 1, 0)
              writes := ls.flatMap fun lt => [0, 1].map fun p =>
                (.spad (dst + (p * o.pstride + lt.2 * o.lstride) * 64), ps.n)
              check := fun _ _ => if bad then some .POISON else none
              compute := fun x _ => (x, ls.flatMap fun lt => [0, 1].map fun p =>
                padTo ps.n ((Config.repack [g.repackSeq, st, ps.logn, b, ps.lweN, ps.lweLogq, lt.1.q, p] ks.seed keys words).map
                  (· % lt.1.q))) }] (ls.any (·.1.mont))
  | _, _, _, _, _ => .range

/-- The header by which the tiles of a cluster agree on a macro (R160): its OP, LDG and operands. -/
def gauzeKey (op : Nat) (w : NInstr) : List Nat := [op, w.ldg.toNat, w.a, w.opd.toNat]

/-- May the tile issue the macro: only the LWE_KS that names its destination after an EXTRACT (R161)? -/
def Tile.holdsOther (x : Tile) (op : Nat) (w : NInstr) : Bool := x.gauze.any fun g => op ≠ 2 || w.src1 ≠ g.dst

/-- Is the macro the next one of the cluster's order (R160)? -/
def State.nextMacro (s : State) (i op : Nat) (w : NInstr) : Bool :=
  let heads := (s.clustersAt (i / 8)).gzHeads
  (s.tilesAt i).gzCount = heads.length || heads[(s.tilesAt i).gzCount]? = some (gauzeKey op w)

/-- Count a macro of the tile; the first of the cluster to issue it fixes it for the others. -/
def Tx.countMacro (t : Tx s) (i op : Nat) (w : NInstr) : Tx s :=
  let k := (t.tilesAt i).gzCount
  (t.modTiles i fun x => { x with gzCount := k + 1 }).when (k = (t.clustersAt (i / 8)).gzHeads.length) fun t =>
    t.modClusters (i / 8) fun c => { c with gzHeads := c.gzHeads ++ [gauzeKey op w] }

/-- A macro's plan: the cluster's tiles issue the same macros in the same order (R160), counted at issue. -/
def gauzePlan (i op : Nat) (w : NInstr) (plan : Tx s → Plan s) (t : Tx s) : Plan s :=
  if (t.tilesAt i).holdsOther op w || !t.now.nextMacro i op w then .range
  else
    match plan t with
    | .run f steps mont => .run (fun t => f (t.countMacro i op w)) steps mont
    | p => p

/-- Issue a macro; one that an EXTRACT's pending bundle refuses also discards the bundle (R161). -/
def Tx.issueGauze (t : Tx s) (i op : Nat) (side : Side) (w : NInstr) (plan : Tx s → Plan s) : Tx s :=
  let u := t.issueEngine i unitGauze op side w (gauzePlan i op w plan)
  if (t.tilesAt i).holdsOther op w && t.now.runState i = runRunning && u.now.runState i = runStopped then
    u.modTiles i fun x => { x with gauze := none }
  else u

/-- What a macro leaves to do once it has issued: of a BLINDROT all its coordinates, its key stream opened; of an LWE_KS on a tile
that waits for the scatter the scatter; and the LWE_KS that scatters ends the wait of the others (R162, R166, R168). -/
def Tx.afterMacro (t : Tx s) (i op : Nat) (w : NInstr) (u : Tx s) : Tx s :=
  let head := 8 * (i / 8)
  let last (f : InFlight → InFlight) (u : Tx s) : Tx s := u.modTiles i fun x =>
    { x with engines := x.engines.mapIdx fun k e => if k + 1 = x.engines.length then f e else e }
  if (u.tilesAt i).engines.length = (t.tilesAt i).engines.length then u
  else if op = 4 then
    let g := t.now.rotation i w
    (last (fun e => { e with left := (t.now.psetsAt g.pset).lweN, gz := some g, view := t.now.issueView i }) u).openKey i
      (rotationStream (t.now.tileKsid i))
  else if op = 2 then
    if i = head then
      u.forEach (clusterTiles (i / 8)) fun u j =>
        if (u.tilesAt j).rec? = (u.tilesAt i).rec? then u.modTiles j fun x =>
          { x with engines := x.engines.map fun e => if e.unit = unitGauze && e.op = 2 then { e with left := 0 } else e }
        else u
    else if (t.tilesAt head).gzCount ≤ (t.tilesAt i).gzCount && t.now.keyWaits head && (t.tilesAt head).rec? = (t.tilesAt i).rec?
    then last (fun e => { e with left := 1 }) u
    else u
  else u

/-- What Gauze makes of a macro, by OP (R211). -/
def gauzeOpPlan (i op : Nat) (w : NInstr) : Tx s → Plan s :=
  match op with
  | 0x01 => extractPlan i w
  | 0x02 => lweKsPlan i w
  | 0x03 => modswPlan i w
  | 0x04 => blindrotPlan i w
  | 0x05 => repackPlan i w
  | _ => fun _ => .range

/-- EXTRACT (R161). -/
def execExtract (i : Fin 64) (d : Side) (w : NInstr) (s : State) : Host.Outcome State Fault Refusal :=
  done ((begin s).issueGauze i 0x01 d w (gauzeOpPlan i 0x01 w))

/-- LWE_KS (R162). -/
def execLweKs (i : Fin 64) (d : Side) (w : NInstr) (s : State) : Host.Outcome State Fault Refusal :=
  done ((begin s).afterMacro i 0x02 w ((begin s).issueGauze i 0x02 d w (gauzeOpPlan i 0x02 w)))

/-- MODSW (R163). -/
def execModsw (i : Fin 64) (d : Side) (w : NInstr) (s : State) : Host.Outcome State Fault Refusal :=
  done ((begin s).issueGauze i 0x03 d w (gauzeOpPlan i 0x03 w))

/-- BLINDROT (R154, R164, R166). -/
def execBlindrot (i : Fin 64) (d : Side) (w : NInstr) (s : State) : Host.Outcome State Fault Refusal :=
  done ((begin s).afterMacro i 0x04 w ((begin s).issueGauze i 0x04 d w (gauzeOpPlan i 0x04 w)))

/-- REPACK (R165). -/
def execRepack (i : Fin 64) (d : Side) (w : NInstr) (s : State) : Host.Outcome State Fault Refusal :=
  done ((begin s).issueGauze i 0x05 d w (gauzeOpPlan i 0x05 w))

end Sys2Proof.Machine
end

