-- ==== Sys2Proof/Machine/Softfloat.lean ====
section
/-!
DEFINITION. Binary floating point as Percale and Damask use it (R143, R182 to R189): values are exact dyadic numbers,
every operation computes exactly and rounds once.
-/

namespace Sys2Proof.Machine

/-- A binary format (R172, R184): significand bits, largest exponent, width. -/
structure Fmt where
  p : Nat
  emax : Nat
  width : Nat
  deriving DecidableEq, Repr

def fmt16 : Fmt := ⟨11, 15, 16⟩
def fmtBf : Fmt := ⟨8, 127, 16⟩
def fmt32 : Fmt := ⟨24, 127, 32⟩
def fmt64 : Fmt := ⟨53, 1023, 64⟩

/-- Rounding attributes (TILE.PCLCTL.RM). -/
inductive Rm
  | even | zero | up | down
  deriving DecidableEq, Repr

/-- RM codes. -/
def rmOf (c : Nat) : Rm := if c = 0 then .even else if c = 1 then .zero else if c = 2 then .up else .down

/-- A floating-point value: NaN (signalling?), infinity (negative?), or (−1)^neg · m · 2^e. -/
inductive FVal
  | nan (signalling : Bool)
  | inf (neg : Bool)
  | fin (neg : Bool) (m : Nat) (e : Int)
  deriving DecidableEq, Repr

/-- Flags as TILE.PCLFLAGS has them. -/
def fNX : Nat := 1
@[inherit_doc fNX] def fUF : Nat := 2
@[inherit_doc fNX] def fOF : Nat := 4
@[inherit_doc fNX] def fNV : Nat := 8
@[inherit_doc fNX] def fISAT : Nat := 16

/-- The default NaN of a format (R183). -/
def Fmt.defaultNan (f : Fmt) : Nat := (2 ^ (f.width - f.p + 1) - 1) <<< (f.p - 2)

/-- All-ones exponent field. -/
def Fmt.expOnes (f : Fmt) : Nat := 2 ^ (f.width - f.p) - 1

/-- The encoding of an infinity. -/
def Fmt.infBits (f : Fmt) (neg : Bool) : Nat := bnat neg <<< (f.width - 1) + f.expOnes <<< (f.p - 1)

/-- Smallest exponent of a normal number. -/
def Fmt.emin (f : Fmt) : Int := 1 - (f.emax : Int)

/-- Read an encoding. -/
def Fmt.decode (f : Fmt) (x : Nat) : FVal :=
  let neg := bit x (f.width - 1)
  let e := bits x (f.width - 2) (f.p - 1)
  let m := x % 2 ^ (f.p - 1)
  if e = f.expOnes then (if m = 0 then .inf neg else .nan (!bit x (f.p - 2)))
  else if e = 0 then .fin neg m (f.emin - (f.p - 1 : Nat))
  else .fin neg (2 ^ (f.p - 1) + m) ((e : Int) - f.emax - (f.p - 1 : Nat))

/-- Does the discarded part round the kept significand up? `rem` of `2^d`, `odd` of the kept part. -/
def roundsUp (rm : Rm) (neg odd : Bool) (rem d : Nat) : Bool :=
  match rm with
  | .even => decide (2 ^ d < 2 * rem) || (2 * rem = 2 ^ d && odd)
  | .zero => false
  | .up => !neg && rem ≠ 0
  | .down => neg && rem ≠ 0

/-- m·2^e as a multiple of 2^ulp, rounded: the multiple and whether it is inexact. -/
def roundTo (rm : Rm) (neg : Bool) (m : Nat) (e ulp : Int) : Nat × Bool :=
  if ulp ≤ e then (m <<< (e - ulp).toNat, false)
  else
    let d := (ulp - e).toNat
    let k := m >>> d
    let r := m % 2 ^ d
    (if roundsUp rm neg (k % 2 = 1) r d then k + 1 else k, r ≠ 0)

/-- Round an exact value to a format: encoding and flags (R182, R184). Tininess is detected after rounding. -/
def Fmt.round (f : Fmt) (rm : Rm) (neg : Bool) (m : Nat) (e : Int) : Nat × Nat :=
  let sgn := bnat neg <<< (f.width - 1)
  if m = 0 then (sgn, 0)
  else
    let top := e + m.log2
    let ulp := max (top + 1 - f.p) (f.emin + 1 - f.p)
    let k := roundTo rm neg m e ulp
    if (f.emax : Int) < ulp + k.1.log2 then
      let big := match rm with | .even => true | .zero => false | .up => !neg | .down => neg
      ((if big then f.infBits neg else f.infBits neg - 1), fOF ||| fNX)
    else
      let free := roundTo rm neg m e (top + 1 - f.p)
      let tiny := decide (top + 1 - f.p + free.1.log2 < f.emin)
      let flags := if k.2 then (if tiny then fUF ||| fNX else fNX) else 0
      (sgn + ((ulp + (f.p - 1 : Nat) + f.emax).toNat <<< (f.p - 1) + k.1) - 2 ^ (f.p - 1), flags)

/-- Encode a result value. -/
def Fmt.encode (f : Fmt) (rm : Rm) : FVal → Nat × Nat
  | .nan _ => (f.defaultNan, 0)
  | .inf n => (f.infBits n, 0)
  | .fin n m e => f.round rm n m e

/-- NV for a signalling operand (R183). -/
def sigFlag : FVal → Nat
  | .nan true => fNV
  | _ => 0

/-- Is it a NaN? -/
def FVal.isNan : FVal → Bool
  | .nan _ => true
  | _ => false

/-- The signed integer m·2^(e−base) of a finite value. -/
def scaleInt (neg : Bool) (m : Nat) (e base : Int) : Int :=
  let v : Int := (m <<< (e - base).toNat : Nat)
  if neg then -v else v

/-- The exact sum of two finite values; the sign of an exact zero follows IEEE 754-2019. -/
def addFin (rm : Rm) (n1 : Bool) (m1 : Nat) (e1 : Int) (n2 : Bool) (m2 : Nat) (e2 : Int) : FVal :=
  let b := min e1 e2
  let v := scaleInt n1 m1 e1 b + scaleInt n2 m2 e2 b
  if v = 0 then .fin (if m1 = 0 ∧ m2 = 0 ∧ n1 = n2 then n1 else rm = .down) 0 0
  else .fin (v < 0) v.natAbs b

/-- Addition before rounding: value and flags. -/
def fAdd (rm : Rm) (a b : FVal) : FVal × Nat :=
  match a, b with
  | .nan _, _ | _, .nan _ => (.nan false, sigFlag a ||| sigFlag b)
  | .inf x, .inf y => if x = y then (.inf x, 0) else (.nan false, fNV)
  | .inf x, _ => (.inf x, 0)
  | _, .inf y => (.inf y, 0)
  | .fin n1 m1 e1, .fin n2 m2 e2 => (addFin rm n1 m1 e1 n2 m2 e2, 0)

/-- Sign change, as subtraction uses it; NaNs stay. -/
def FVal.neg : FVal → FVal
  | .nan x => .nan x
  | .inf n => .inf (!n)
  | .fin n m e => .fin (!n) m e

/-- Multiplication before rounding. -/
def fMul (a b : FVal) : FVal × Nat :=
  match a, b with
  | .nan _, _ | _, .nan _ => (.nan false, sigFlag a ||| sigFlag b)
  | .inf x, .inf y => (.inf (x != y), 0)
  | .inf x, .fin y m _ => if m = 0 then (.nan false, fNV) else (.inf (x != y), 0)
  | .fin x m _, .inf y => if m = 0 then (.nan false, fNV) else (.inf (x != y), 0)
  | .fin n1 m1 e1, .fin n2 m2 e2 => (.fin (n1 != n2) (m1 * m2) (e1 + e2), 0)

/-- fusedMultiplyAdd before rounding: a·b + c; 0 × ∞ sets NV even beside a quiet NaN (R186). -/
def fFma (rm : Rm) (a b c : FVal) : FVal × Nat :=
  let p := if a.isNan || b.isNan then (FVal.nan false, sigFlag a ||| sigFlag b) else fMul a b
  match p.1 with
  | .nan _ => (.nan false, p.2 ||| sigFlag c)
  | v => fAdd rm v c

/-- Order of two values that are no NaN: less, and equal. −0 equals +0. -/
def fLt (a b : FVal) : Bool :=
  match a, b with
  | .nan _, _ | _, .nan _ => false
  | .inf x, .inf y => x && !y
  | .inf x, .fin .. => x
  | .fin .., .inf y => !y
  | .fin n1 m1 e1, .fin n2 m2 e2 =>
    let k := min e1 e2
    decide (scaleInt n1 m1 e1 k < scaleInt n2 m2 e2 k)

/-- Equality as the comparisons see it. -/
def fEq (a b : FVal) : Bool := !a.isNan && !b.isNan && !fLt a b && !fLt b a

/-- Sign bit. -/
def FVal.sign : FVal → Bool
  | .nan _ => false
  | .inf n => n
  | .fin n _ _ => n

/-- minimumNumber (`mx` false) and maximumNumber on encodings: result and flags (R182, R183). -/
def Fmt.minMax (f : Fmt) (mx : Bool) (x y : Nat) : Nat × Nat :=
  let a := f.decode x
  let b := f.decode y
  let fl := sigFlag a ||| sigFlag b
  if a.isNan then (if b.isNan then f.defaultNan else y, fl)
  else if b.isNan then (x, fl)
  else
    let less := fLt a b || (fEq a b && a.sign && !b.sign)
    (if less != mx then x else y, fl)

/-- Conversion between formats. -/
def Fmt.convert (f g : Fmt) (rm : Rm) (x : Nat) : Nat × Nat :=
  let v := f.decode x
  let r := g.encode rm v
  (r.1, r.2 ||| sigFlag v)

/-- A dyadic value rounded to an integer under RM: the integer and whether it is inexact. -/
def toIntRm (rm : Rm) (neg : Bool) (m : Nat) (e : Int) : Int × Bool :=
  let k := roundTo rm neg m e 0
  (if neg then -(k.1 : Int) else k.1, k.2)

/-- Conversion to INT32 (R185): 32-bit result and flags. -/
def Fmt.toInt32 (f : Fmt) (rm : Rm) (x : Nat) : Nat × Nat :=
  match f.decode x with
  | .nan _ => (0, fNV)
  | .inf n => (if n then 0x80000000 else 0x7FFFFFFF, fNV)
  | .fin n m e =>
    let v := toIntRm rm n m e
    if v.1 < -0x80000000 then (0x80000000, fNV)
    else if 0x7FFFFFFF < v.1 then (0x7FFFFFFF, fNV)
    else (encodeSigned v.1 32, if v.2 then fNX else 0)

/-- Conversion of a signed integer. -/
def Fmt.ofInt (f : Fmt) (rm : Rm) (v : Int) : Nat × Nat := f.round rm (v < 0) v.natAbs 0

/-- ⌊x·2^k + 1/2⌋ of a finite value, with whether x·2^k is no integer. -/
def scaleHalfUp (neg : Bool) (m : Nat) (e k : Int) : Int × Bool :=
  let e := e + k
  if 0 ≤ e then (scaleInt neg m e 0, false)
  else
    let d := (-e).toNat
    let v : Int := if neg then -(m : Int) else m
    (floorI (v + (2 ^ (d - 1) : Nat)) (2 ^ d), m % 2 ^ d ≠ 0)

/-- FENC of one element (R187): the integer v and flags. -/
def Fmt.fenc (f : Fmt) (k : Int) (x : Nat) : Int × Nat :=
  match f.decode x with
  | .fin n m e =>
    let v := scaleHalfUp n m e k
    if 2 ^ 63 ≤ v.1.natAbs then (0, fNV) else (v.1, if v.2 then fNX else 0)
  | _ => (0, fNV)

/-- FDEC of one integer (R188, R189): v·2^−k rounded once; zero gives +0. -/
def Fmt.fdec (f : Fmt) (rm : Rm) (k : Int) (v : Int) : Nat × Nat := f.round rm (v < 0) v.natAbs (-k)

end Sys2Proof.Machine
end

