-- ==== Sys2Proof/Machine/SharedCache.lean ====
section
/-!
DEFINITION. The shared cache (ch. 10): the stream cache (R251, R252), and reductions (R253 to R258); and how a tile's
streams gather lines from this module, a peer window or the host window.
-/

namespace Sys2Proof.Machine

variable {s : State}

/-! ### Stream cache (R251, R252) -/

/-- Size of the stream cache in MiB (R251). -/
def Cluster.streamMiB (c : Cluster) : Nat := 16 - c.kcSize - min c.red (16 - c.kcSize)

/-- The reduction area in MiB (R251). -/
def Cluster.redEff (c : Cluster) : Nat := min c.red (16 - c.kcSize)

/-- The domain that tags a line: that of the sealed region it lies in (R252). -/
def State.lineDom (s : State) (a : Nat) : Option Nat := (s.regionOf a).map (·.dom)

/-- What reading one line gives. -/
inductive LineGot
  | ok (bs : List Byte)
  | poison
  | refused (st : Status)
  deriving DecidableEq, Repr

/-- Read the line at local address `a` for a requester, from memory. -/
def State.lineOf (s : State) (who : Who) (a : Nat) : LineGot :=
  match s.access who a with
  | .OK => if s.poisoned a 64 then .poison else .ok (s.read a 64)
  | st => .refused st

/-- The world of a tile (R422). -/
def State.tileSecure (s : State) (i : Nat) : Bool := s.flag (HDR.OWNER.WORLD .TILE) i

/-- The line that the stream cache of tile `i`'s cluster holds for it: same global address, world and sealed state (R252); a sealed line
serves its domain alone. -/
def State.scHeld (s : State) (i line : Nat) (d : Option Nat) : Option ScLine :=
  (s.clustersAt (i / 8)).streamCache.find? fun l =>
    l.line = line && l.secure = s.tileSecure i && l.dom = d && (d = none || s.domainOf (.tile i) = d)

/-- A hit: counted, and the line is now the most recently used. -/
def Tx.scHit (t : Tx s) (i : Nat) (l : ScLine) : Tx s :=
  (t.modClusters (i / 8) fun c => { c with streamCache := l :: c.streamCache.filter (· ≠ l) }).bump SCACHE.SCHIT.HIT 1 (i / 8)

/-- A miss's line enters the cache, in place of the least recently used one. -/
def Tx.scInsert (t : Tx s) (i line : Nat) (d : Option Nat) (bs : List Byte) : Tx s :=
  t.modClusters (i / 8) fun c =>
    { c with streamCache := (⟨line, t.now.tileSecure i, d, bs⟩ :: c.streamCache).take (c.streamMiB * 16384) }

/-- Read a line of this module through the stream cache of tile `i`'s cluster: a hit returns the held bytes; a miss reads memory and
holds what it read (R252). -/
def Tx.cachedLine (t : Tx s) (i : Nat) (a : Nat) : Tx s × LineGot :=
  let line := (t.now.devId <<< 44 + a) / 64
  let d := t.now.lineDom a
  match t.now.scHeld i line d with
  | some l => (t.scHit i l, .ok l.data)
  | none =>
    let t := t.bump SCACHE.SCHIT.MISS 1 (i / 8)
    match t.now.lineOf (.tile i) a with
    | .ok bs => (t.scInsert i line d bs, .ok bs)
    | r => (t, r)

/-- Empty a cluster's stream cache. -/
def Tx.emptyStreamCache (t : Tx s) (cl : Nat) : Tx s := t.modClusters cl fun c => { c with streamCache := [] }

/-! ### Gathering lines for a tile's streams -/

/-- What gathering gives: not here yet, a failure with its address, or the bytes. -/
inductive Gather
  | wait
  | fail (st : Status) (addr : Nat)
  | data (bs : List Byte)
  deriving DecidableEq, Repr

/-- Read `n` lines of this module from local address `a`, through the stream cache or not. -/
def Tx.gatherLocal (t : Tx s) (i : Nat) (cache : Bool) (a : Nat) : Nat → Tx s × Gather
  | 0 => (t, .data [])
  | n + 1 =>
    let r := if cache then t.cachedLine i a else (t, t.now.lineOf (.tile i) a)
    match r.2 with
    | .ok bs =>
      match r.1.gatherLocal i cache (a + 64) n with
      | (t, .data rest) => (t, .data (bs ++ rest))
      | r => r
    | .poison => (r.1, .fail .POISON a)
    | .refused st => (r.1.logAccess a st false, .fail st a)

/-- A line of a peer or of the host window as the stream cache holds it, where the read is cacheable. -/
def State.farHeld (s : State) (i : Nat) (cache : Bool) (line : Nat) : Option ScLine := if cache then s.scHeld i line none else none

/-- Ask peers for the lines of a range that the tile neither holds nor awaits and the stream cache does not hold, a packet at a time. -/
def Tx.askPeer (t : Tx s) (i g : Nat) (cache : Bool) : Nat → Nat → Tx s
  | 0, _ => t
  | _, 0 => t
  | f + 1, n =>
    let x := t.tilesAt i
    if x.asked.contains (g / 64) || x.fetched.any (·.1 = g / 64) || (t.now.farHeld i cache (g / 64)).isSome then
      t.askPeer i (g + 64) cache f (n - 1)
    else if !t.now.peerRoom i then t
    else
      let k := packetLines (g % 2 ^ 44) n
      ((t.modTiles i fun x => { x with asked := x.asked ++ (List.range k).map (g / 64 + ·) }).request
        { type := ptRD, dst := g / 2 ^ 44 % 2 ^ 16, addr := g % 2 ^ 44, aux := k - 1 } (.fetch i) x.rec? g 0).askPeer i
        (g + 64 * k) cache f (n - k)

/-- The lines among `ks` that the stream cache holds, with their bytes. -/
def State.farLines (s : State) (i : Nat) (cache : Bool) (ks : List Nat) : List (Nat × List Byte) :=
  ks.filterMap fun k => (s.farHeld i cache k).map fun l => (k, l.data)

/-- Lines that are all among `got` are taken: hits and misses of the stream cache counted, a miss's line held from now on (R252). -/
def Tx.takeCached (t : Tx s) (i : Nat) (cache : Bool) (got : List (Nat × List Byte)) : List Nat → Tx s × List Byte
  | [] => (t, [])
  | k :: ks =>
    let bs := ((got.find? (·.1 = k)).map (·.2)).getD []
    let r := match t.now.farHeld i cache k with
      | some l => (t.scHit i l, bs)
      | none => (t.when cache fun t => (t.bump SCACHE.SCHIT.MISS 1 (i / 8)).scInsert i k none bs, bs)
    let u := r.1.takeCached i cache got ks
    (u.1, r.2 ++ u.2)

/-- Lines of a peer: the bytes once all are at hand, and they are taken; until then the missing ones are asked for. -/
def Tx.gatherPeer (t : Tx s) (i : Nat) (cache : Bool) (g n : Nat) : Tx s × Gather :=
  let x := t.tilesAt i
  let ks := (List.range n).map (g / 64 + ·)
  if ks.all fun k => x.fetched.any (·.1 = k) || (t.now.farHeld i cache k).isSome then
    let r := (t.modTiles i fun x => { x with fetched := x.fetched.filter fun l => !ks.contains l.1 }).takeCached i cache
      (t.now.farLines i cache ks ++ x.fetched) ks
    (r.1, .data r.2)
  else (t.askPeer i g cache n n, .wait)

/-- Lines of the host window, with the host's answer to them (R376, R378): nothing is asked of the host where the stream cache holds
every line; else all are asked for, and a held line gives what is held (R252). -/
def Tx.gatherHost (t : Tx s) (i : Nat) (cache : Bool) (a n : Nat) (ans : HostAnswer) : Tx s × Gather :=
  let fn := t.now.tileFn i
  let ks := (List.range n).map ((t.now.devId <<< 44 + a) / 64 + ·)
  match (List.range n).find? fun k => !apertureAllows (t.now.aperture (a + 64 * k)) fn false with
  | some k => (t, .fail .DENIED (a + 64 * k))
  | none =>
    if ks.all fun k => (t.now.farHeld i cache k).isSome then
      let r := t.takeCached i cache (t.now.farLines i cache ks) ks
      (r.1, .data r.2)
    else
      let t := t.emit (.hostRead fn (t.now.hostAddr a) (64 * n))
      match ans with
      | .data bs =>
        if 64 * n ≤ bs.length then
          let r := t.takeCached i cache (t.now.farLines i cache ks ++ ks.zipIdx.map fun k => (k.1, (bs.drop (64 * k.2)).take 64)) ks
          (r.1, .data r.2)
        else (t, .fail .PROTO a)
      | r => (t, .fail r.status a)

/-- Gather `n` lines at global address `g`. -/
def Tx.gather (t : Tx s) (i : Nat) (cache : Bool) (g n : Nat) (ans : HostAnswer) : Tx s × Gather :=
  let a := g % 2 ^ 44
  if g / 2 ^ 44 % 2 ^ 16 ≠ t.now.devId then t.gatherPeer i cache g n
  else if isHostWin a then t.gatherHost i cache a n ans
  else t.gatherLocal i cache a n

/-! ### Reductions (R253 to R258) -/

/-- Identity of an operation (R254). -/
def redIdentity (op : Nat) : Nat :=
  match op with
  | 2 => 0x80000000 | 3 => 0x7FFFFFFF | 5 => 0xFFFFFFFF | _ => 0

/-- Combine an element with a contribution's (R254). -/
def redCombine (op q a b : Nat) : Nat :=
  match op with
  | 0 => (a + b % q) % q
  | 1 => (a + b) % 2 ^ 32
  | 2 => if signed a 32 < signed b 32 then b else a
  | 3 => if signed b 32 < signed a 32 then b else a
  | 4 => max a b
  | 5 => min a b
  | _ => a ^^^ b

/-- The fields of a reduction descriptor (R253). -/
def redOf (d : Nat) : Reduction :=
  { isOpen := true, op := bits d 119 116, slot := bits d 115 109, sealEpoch := bits d 107 92, expect := bits d 91 82,
    len := bits d 81 64, base := bits d 48 32, tag := bits d 31 0 }

/-- Lines that a buffer occupies. -/
def Reduction.lines (r : Reduction) : Nat := if r.op = 7 then (r.expect + 1) * r.len else r.len

/-- A cluster's reduction by RID. -/
def Cluster.reduction (c : Cluster) (rid : Nat) : Reduction := mapGet {} c.reds rid

/-- Write a reduction. -/
def Tx.putRed (t : Tx s) (cl rid : Nat) (r : Reduction) : Tx s :=
  t.modClusters cl fun c => { c with reds := mapPut {} c.reds rid r }

/-- Open reductions of a cluster. -/
def Cluster.openReds (c : Cluster) : Nat := (c.reds.filter (·.2.isOpen)).length

/-- May the descriptor open on cluster `cl` (R253)? -/
def State.redLegal (s : State) (cl d : Nat) : Bool :=
  let c := s.clustersAt cl
  let r := redOf d
  r.op ≤ 8 && (if r.op = 0 then s.primeValid r.slot else r.slot = 0) && (r.op ≠ 7 || r.expect ≤ 63) && 1 ≤ r.len &&
  r.len ≤ 131072 && !bit d 108 && bits d 63 49 = 0 && !(c.reduction (bits d 127 120)).isOpen &&
  r.base + r.lines ≤ c.redEff * 16384 &&
  c.reds.all fun o => !o.2.isOpen || !overlaps r.base r.lines o.2.base o.2.lines

/-- Open a reduction for a record: every line filled with the identity (R253). -/
def Tx.openRed (t : Tx s) (cl d : Nat) (rec? : Option Nat) : Tx s :=
  let r := redOf d
  t.putRed cl (bits d 127 120) { r with
    words := if r.op = 7 then [] else List.replicate (16 * r.len) (redIdentity r.op), rec? := rec? }

/-- Contributions fully arrived. -/
def Reduction.arrived (r : Reduction) : Nat := (r.got.filter (·.2.length = r.len)).length

/-- Lines arrived of a contribution. -/
def Reduction.gotLines (r : Reduction) (cidx : Nat) : List Nat := mapGet [] r.got cidx

/-- Is a contribution line refused (R256)? -/
def Reduction.refuses (r : Reduction) (cidx line : Nat) : Bool :=
  !r.isOpen || r.isSealed || r.op = 8 || 1023 < cidx || r.len ≤ line || (r.gotLines cidx).contains line ||
  (!(r.got.any (·.1 = cidx)) && r.expect + 1 ≤ r.got.length)

/-- Write words into a list from position `p`. -/
def patch (l : List Nat) (p : Nat) (ws : List Nat) : List Nat := l.take p ++ ws ++ l.drop (p + ws.length)

/-- One line of a contribution arrives (R254, R255): its 16 elements, or none where it is poisoned (R256). -/
def Reduction.add (r : Reduction) (q cidx line : Nat) (ws : Option (List Nat)) : Reduction :=
  let r := { r with got := mapInsert r.got cidx (insertSorted (r.gotLines cidx) line) }
  match ws with
  | none => { r with bad := insertSorted r.bad line }
  | some ws =>
    if r.op = 7 then
      let p := mapGet (List.replicate (16 * r.len) 0) r.parts cidx
      { r with parts := mapInsert r.parts cidx (patch p (16 * line) ws) }
    else
      let old := (r.words.drop (16 * line)).take 16
      { r with words := patch r.words (16 * line) ((old.zip ws).map fun p => redCombine r.op q p.1 p.2) }

/-- Contribute one line; RANGE where R256 refuses it. -/
def Tx.contribute (t : Tx s) (cl rid cidx line : Nat) (ws : Option (List Nat)) : Tx s × Status :=
  let r := (t.clustersAt cl).reduction rid
  if r.refuses cidx line then (t, .RANGE)
  else (t.putRed cl rid (r.add (t.now.primeQ r.slot) cidx line ws), .OK)

/-- binary32 addition as R255 states it. -/
def redFadd (a b : Nat) : Nat := (fmt32.encode .even (fAdd .even (fmt32.decode a) (fmt32.decode b)).1).1

/-- Add contributions element by element, in ascending CIDX. -/
def redSum : List (Nat × List Nat) → List Nat
  | [] => []
  | p :: ps => ps.foldl (fun acc c => (acc.zip c.2).map fun v => redFadd v.1 v.2) p.2

/-- The sealed reduction (R255): FADD32 is summed now. -/
def Reduction.close (r : Reduction) : Reduction :=
  { r with isSealed := true, words := if r.op = 7 then redSum r.parts else r.words }

/-- Is graph epoch `e` at or after SEAL_EPOCH, both modulo 2^16? -/
def sealDue (e se : Nat) : Bool := (e + 0x10000 - se % 0x10000) % 0x10000 < 0x8000

/-- Seal the reduction at a boundary if it is due and complete (R256); a late seal is counted. -/
def Tx.trySeal (t : Tx s) (cl rid e : Nat) : Tx s :=
  let r := (t.clustersAt cl).reduction rid
  if r.isOpen && !r.isSealed && r.op ≠ 8 && sealDue e r.sealEpoch && r.expect + 1 ≤ r.arrived then
    ((t.putRed cl rid r.close).bump SCACHE.REDCNT.SEALED 1 cl).when (e % 0x10000 ≠ r.sealEpoch)
      fun t => t.bump SCACHE.REDCNT.LATE 1 cl
  else t

/-- What a read of a line of a reduction gives: none while it waits for the seal (R256). -/
def Reduction.readLine (r : Reduction) (line : Nat) : Option LineGot :=
  if !r.isOpen || r.len ≤ line then some (.refused .RANGE)
  else if !r.isSealed && r.op ≠ 8 then none
  else if r.bad.contains line then some .poison
  else some (.ok (wordsBytes ((r.words.drop (16 * line)).take 16)))

/-! ### Flushes and sizes -/

/-- What a boundary of the cluster applies to its shared cache (R121, R251, R252): INV, then FLUSH and the sizes where no
key stream is active (and, for RED, no reduction open); SCSTAT shows the state (R259). -/
def Tx.cacheBoundary (t : Tx s) (cl : Nat) : Tx s :=
  let t := t.modClusters cl fun c => if c.scInv then { c with scInv := false, streamCache := [] } else c
  let t := if t.now.keyActive cl then t else t.modClusters cl fun c =>
    let old := c.streamMiB
    let c := if c.kcFlush then { c with kcFlush := false, keyCache := [] } else c
    let c := match c.kcSizeReq with
      | some z => { c with kcSizeReq := none, kcSize := z, keyCache := [] }
      | none => c
    let c := match c.redReq with
      | some z => if c.openReds = 0 then { c with redReq := none, red := z } else c
      | none => c
    if c.streamMiB = old then c else { c with streamCache := [] }
  let c := t.clustersAt cl
  (((t.setFld SCACHE.SCSTAT.OPEN c.openReds cl).setFld SCACHE.SCSTAT.STREAM c.streamMiB cl).setFld
    SCACHE.SCSTAT.REDEFF c.redEff cl).setFld SCACHE.SCSTAT.KC c.kcSize cl

/-- Write KCCTL: FLUSH empties the key cache at the next boundary with no key stream active (R118). -/
def Tx.kcFlush (t : Tx s) (cl : Nat) : Tx s := t.modClusters cl fun c => { c with kcFlush := true }

/-- Write KCCTL.SIZE: 13 to 15 are taken as 12; the size applies at a boundary (R121). -/
def Tx.kcSize (t : Tx s) (cl v : Nat) : Tx s :=
  (t.setFld MUSLIN.KCCTL.SIZE (min v 12) cl).modClusters cl fun c => { c with kcSizeReq := some (min v 12) }

/-- Write SCCTL.INV: the stream cache empties at the next boundary (R252). -/
def Tx.scInv (t : Tx s) (cl : Nat) : Tx s := t.modClusters cl fun c => { c with scInv := true }

/-- Write SCCTL.RED: 9 to 15 are taken as 8; the area applies at a boundary (R251). -/
def Tx.scRed (t : Tx s) (cl v : Nat) : Tx s :=
  (t.setFld SCACHE.SCCTL.RED (min v 8) cl).modClusters cl fun c => { c with redReq := some (min v 8) }

/-- KC_FLUSH (R118). -/
def execKcFlush (o : RegFrom) (cl : Fin 8) (s : State) : Host.Outcome State Fault Refusal :=
  done ((begin s).guarded o .MUSLIN cl fun t => t.kcFlush cl)

/-- KC_SIZE_WRITE (R121). -/
def execKcSizeWrite (o : RegFrom) (cl : Fin 8) (v : BitVec 4) (s : State) : Host.Outcome State Fault Refusal :=
  done ((begin s).guarded o .MUSLIN cl fun t => t.kcSize cl v.toNat)

/-- SC_INV (R252). -/
def execScInv (o : RegFrom) (cl : Fin 8) (s : State) : Host.Outcome State Fault Refusal :=
  done ((begin s).guarded o .SCACHE cl fun t => t.scInv cl)

/-- SC_RED_WRITE (R251). -/
def execScRedWrite (o : RegFrom) (cl : Fin 8) (v : BitVec 4) (s : State) : Host.Outcome State Fault Refusal :=
  done ((begin s).guarded o .SCACHE cl fun t => t.scRed cl v.toNat)

end Sys2Proof.Machine
end

