-- ==== Sys2Proof/Machine/KeyStream.lean ====
section
/-!
DEFINITION. Key streams (ch. 05): KSTREAM's checks (R112, R120), the order of a cluster's streams (R115), the pairs a tile
receives (R113), the relay chain (R27, R114), the copy read (R117), and the coordinates of a BLINDROT (R166).
-/

namespace Sys2Proof.Machine

variable {s : State}

/-- KSTREAM's operands (R112, R212). -/
def kstreamOf (w : NInstr) : KStream :=
  let o := w.opd.toNat
  { ksid := bits o 127 112, kid := bits o 111 92, level := bits o 91 84, dlo := bits o 83 81, dhi := bits o 80 78,
    bq := bits o 77 75, aq := bits o 74 72, dest := bit o 71, land := bits o 70 46, sig := w.sig.toNat }

/-- The limb positions of a stream that a tile receives, ascending (R17, R98, R107): the tile's limbs of the extended basis; of the
class 1 key with index 0 the one limb, on the tile of limb 0; of the class 1 key with index 1 the one limb, and of a class 2 key its
rows, on every tile. -/
def streamRows (c : PsetCtx) (k : KStream) (pos : Nat) : List KeyRow :=
  match kidClass k.kid with
  | 1 => if kidIndex k.kid ≠ 0 || pos = 0 then [{ q := c.q.getD 0 1 }] else []
  | 2 => (List.range (2 * c.ps.gauze.glev)).map fun r => { q := c.q.getD 0 1, w := r }
  | _ => (tileLimbs c k.level .extended pos).map fun l => { q := l.q, k := keyLimb c.ps k.level l.j }

/-- Does every tile receive every limb of the stream (R107)? -/
def KStream.toAll (k : KStream) : Bool := kidClass k.kid = 2 || (kidClass k.kid = 1 && kidIndex k.kid ≠ 0)

/-- Digits of the stream. -/
def KStream.digits (k : KStream) : Nat := k.dhi + 1 - k.dlo

/-- Do the halves of a limb come apart, all digits of b and then all of a (R113)? -/
def KStream.split (k : KStream) (c : PsetCtx) : Bool := c.ps.logn = 17 && !k.dest

/-- Deliveries of one limb position: pairs, or halves where they come apart. -/
def KStream.perRow (k : KStream) (c : PsetCtx) : Nat := k.digits * (if k.split c then 2 else 1)

/-- Deliveries of the stream to one tile; of a BLINDROT's stream the coordinates (R166). -/
def KStream.total (k : KStream) (c : PsetCtx) (pos : Nat) : Nat :=
  if k.rot then c.ps.lweN else (streamRows c k pos).length * k.perRow c

/-- The digits that a key has, so that DHI must lie below them: those active at LEVEL (R112); of class 1 also no more than KS_DIGITS,
and of class 2, whose digit is σ, two, bounds that R112 does not state: DESIGN CHOICE, log entry 67. -/
def KStream.digitBound (k : KStream) (ps : Pset) : Nat :=
  match kidClass k.kid with
  | 1 => min (digitsAt ps k.level) ps.gauze.ksDigits
  | 2 => min (digitsAt ps k.level) 2
  | _ => digitsAt ps k.level

/-- KSTREAM (R112, R120): reserved bits, operands, the key set, then the key; a second stream waits for the first. The
directory entry's line is read, and its poison stops the tile. -/
def kstreamPlan (i : Nat) (w : NInstr) (t : Tx s) : AccessPlan s :=
  let x := t.tilesAt i
  let k := kstreamOf w
  let set := t.now.ksetsAt k.ksid
  let ctx := t.now.psetCtx set.pset
  let open? (q : Nat) : Bool := (x.inq.getD q {}).opened
  let last := k.land + (streamRows ctx k (i % 8)).length * k.digits * 2 * (4 * keyRing ctx.ps k.kid)
  if w.a ≠ 0 || bits w.opd.toNat 45 0 ≠ 0 || k.bq = k.aq || k.dhi < k.dlo || k.land % 64 ≠ 0 then .refuse .RANGE
  else if t.now.keyHeld i then .wait
  else if k.ksid ≠ t.now.tileKsid i || !set.bound then .refuse .STATE
  else
    match set.dir.zipIdx.find? (·.1.kid = k.kid) with
    | none => .refuse .RANGE
    | some e =>
      let line := set.dirAddr + 16 * e.2
      if ctx.ps.numQ ≤ k.level || k.digitBound ctx.ps ≤ k.dhi ||
          (!k.dest && !(open? k.bq && open? k.aq)) || (k.dest && t.now.spadEnd i < last) ||
          t.now.keyDiffers i k then .refuse .RANGE
      else .run fun t =>
        let t := t.openKey i k
        match t.cachedLine i (line / 64 * 64) with
        | (t, .ok _) => t
        | (t, .poison) => t.stopTile i { status := .POISON, cls := 2, src := unitAccess, addr := t.now.globalLine line }
        | (t, .refused st) => (t.logAccess line st false).stopTile i { status := st, cls := st.cls, src := unitAccess, addr := t.now.globalLine line }

/-- KSTREAM: opens a key stream on the tile. -/
def execKstream (i : Fin 64) (d : Side) (w : NInstr) (s : State) : Host.Outcome State Fault Refusal :=
  done ((begin s).issueAccess i 0x04 d w (kstreamPlan i w))

/-! ### The relay chain (R27, R114) -/

/-- Bytes of a tile's relay buffer (R114). -/
def relayBytes : Nat := 0x40000

/-- Where a tile's delivery `u` stands in the order in which the chain carries the stream's limbs: by extended index, then digit. -/
def KStream.seq (k : KStream) (c : PsetCtx) (pos u : Nat) : Nat :=
  if k.toAll || kidClass k.kid = 1 then u else (pos + 8 * (u / k.perRow c)) * k.perRow c + u % k.perRow c

/-- Bytes of b-half that one delivery moves. -/
def KStream.unitBytes (k : KStream) (c : PsetCtx) : Nat :=
  4 * keyRing c.ps k.kid * (if k.rot then 4 * c.ps.gauze.glev else 1)

/-- Deliveries of stream `k` that tile `j` has had. -/
def State.keyGot (s : State) (j : Nat) (k : KStream) (c : PsetCtx) : Nat :=
  let x := s.tilesAt j
  if x.kCount ≤ k.head then 0
  else
    match x.kstream with
    | some v => if v.head = k.head then v.next else k.total c (j % 8)
    | none => k.total c (j % 8)

/-- Deliveries that a tile of the stream's record still awaits and that the chain carries before number `n`. -/
def State.relayOwed (s : State) (j : Nat) (r : Option Nat) (k : KStream) (c : PsetCtx) (n : Nat) : Nat :=
  if (s.tilesAt j).rec? ≠ r || !s.keyWaits j then 0
  else ((List.range (k.total c (j % 8))).filter fun u => s.keyGot j k c ≤ u && k.seq c (j % 8) u < n).length

/-- Does the in-order relay hold back delivery `u` of tile `i` (R114): a limb before it (or, of one that every tile keeps, itself) that a
tile nearer the head still awaits, or more of them for tiles behind it than the relay buffers on the way hold? A BLINDROT's landing area
holds the next coordinate's element (R166). -/
def State.relayStalls (s : State) (i : Nat) (k : KStream) (c : PsetCtx) (u : Nat) : Bool :=
  let r := (s.tilesAt i).rec?
  let n := k.seq c (i % 8) u
  let ahead := if k.toAll && !k.rot then n + 1 else n
  ((List.range (i % 8)).any fun p => s.relayOwed (8 * (i / 8) + p) r k c ahead ≠ 0) ||
  (List.range 8).any fun p => i % 8 < p &&
    (p - i % 8) * relayBytes <
      (((List.range (p + 1)).filter (i % 8 < ·)).map fun p => s.relayOwed (8 * (i / 8) + p) r k c n).sum * k.unitBytes c

/-- Is tile `i` the first of its cluster to have delivery `u`, so that its fetch counts for all eight (R107)? -/
def State.firstToGet (s : State) (i : Nat) (k : KStream) (c : PsetCtx) (u : Nat) : Bool :=
  !k.toAll || (clusterTiles (i / 8)).all fun j =>
    j = i || (s.tilesAt j).rec? ≠ (s.tilesAt i).rec? || s.keyGot j k c ≤ u

/-! ### Delivery -/

/-- A half lands in the scratchpad: its rows carry the key's tag until they are written again (R110). -/
def Tx.landKey (t : Tx s) (i off tag : Nat) (ws : List Nat) : Tx s :=
  let a := spadBase i + off
  (t.writeWords a ws).forEach (linesOf a (4 * ws.length)) fun t k => t.putLandTag k tag

/-- The words of a half with the key tag they carry (R110). -/
def tagged (tag : Nat) (ws : List Nat) : List QWord := ws.map fun v => { w := v, tag := tag }

/-- The next delivery of a tile's key stream: where its place is in the stream's order, its halves, their effect, and the
stream's SIGNAL at the end, or once a pair landed with DEST = 1 (R113). With DEST = 0 the halves come to the tile, whose queues take
them as they have room; the next delivery follows once they have. On a tile that R17 gives no limb of the key, where the spec says
nothing of the SIGNAL, the stream ends with it for DEST = 0 and without it for DEST = 1: DESIGN CHOICE, log entry 67. -/
def Tx.deliverKey (t : Tx s) (i : Nat) (k : KStream) : Tx s :=
  let set := t.now.ksetsAt k.ksid
  let c := t.now.psetCtx set.pset
  let n := keyRing c.ps k.kid
  let nd := k.digits
  let u := k.next
  let half : Option Nat := if k.split c then some (u / nd % 2) else none
  let d := k.dlo + u % nd
  if !set.bound then t.stopTile i { status := .STATE, cls := 5, src := unitAccess }
  else if k.bufB ≠ [] || k.bufA ≠ [] then t.refill i
  else
    match (streamRows c k (i % 8))[u / k.perRow c]?, set.find k.kid with
    | some r, some e =>
      if t.now.relayStalls i k c u then t
      else
        let tag := 1 + k.ksid * 2 ^ 20 + k.kid
        let at_ := k.land + ((u / nd * nd + (d - k.dlo)) * 2) * (4 * n)
        let key : KeyRef := { ks := set, ksid := k.ksid, kid := k.kid, e := e, ps := c.ps, counts := t.now.firstToGet i k c u }
        let (t, b) := if half = some 1 then (t, .inr []) else t.fetchKeyLimb i key r d
        match b with
        | .inl st => (t.endKey i).stopTile i { status := st, cls := st.cls, src := unitAccess,
                                               addr := t.now.globalLine (key.at_ t.now (i / 8) r d) }
        | .inr bw =>
          let aw := if half = some 0 then [] else keyA set.seed c.ps k.kid r d
          let t := if half = some 0 then t else t.countBlocks i key 1
          let fin := k.total c (i % 8) ≤ u + 1
          if k.dest then
            let t := ((t.landKey i at_ tag bw).landKey i (at_ + 4 * n) tag aw).signal i k.sig
            if fin then t.endKey i else t.modTiles i fun x => { x with kstream := some { k with next := u + 1 }, progress := true }
          else
            (t.modTiles i fun x => { x with
              kstream := some { k with next := u + 1, bufB := tagged tag bw, bufA := tagged tag aw, fin := fin }
              progress := true }).refill i
    | _, _ => (t.endKey i).when (!k.dest) fun t => t.signal i k.sig

/-! ### The coordinates of a BLINDROT (R164, R166, R169) -/

/-- A BLINDROT stops: its destination samples are undefined (R170) and its key stream ends. -/
def Tx.failRotation (t : Tx s) (i : Nat) (ps : Pset) (g : GzRun) (st : Status) (a : Nat) : Tx s :=
  ((t.spoilSamples i ps g).modTiles i fun x => { x with engines := x.engines.filter (·.gz.isNone) }).endKey i |>.stopTile i
    { status := st, cls := st.cls, src := unitGauze, addr := t.now.globalLine a }

/-- Words of a key that a macro reads: a non-canonical one is counted once in an instruction, and stops it under the trap (R52). -/
def Tx.noteKeys (t : Tx s) (i : Nat) (v : IssueView) (nc : Bool) (q : Nat) (ws : List (List Nat)) : Tx s × Bool × Bool :=
  let bad := ws.any (nonCanonical q)
  (t.when (bad && !nc) fun t => t.bump TILE.RESCNT.NONCANON 1 i, nc || bad,
   bad && bit (mapGet 0#32 v.ctl (TILE.RESCTL.NONCANON_TRAP.addr i 0)).toNat TILE.RESCTL.NONCANON_TRAP.lo)

/-- The last coordinate is done: the accumulators are switched with the class 1 key of index 1 and the outputs written (R164). -/
def Tx.closeRotation (t : Tx s) (i : Nat) (c : PsetCtx) (k : KStream) (e1 : DirEntry) (g : GzRun) (nc : Bool) (v : IssueView) : Tx s :=
  let ps := c.ps
  let l := extLimb c 0 0
  let set := t.now.ksetsAt k.ksid
  let key : KeyRef := { ks := set, ksid := k.ksid, kid := 2 ^ 18 + 1, e := e1, ps := ps, counts := t.now.firstToGet i k c (ps.lweN - 1) }
  let rows := (List.range ps.gauze.ksDigits).map fun d => (({ q := l.q } : KeyRow), d)
  let f := t.fetchKeyLimbs i key rows
  let t := f.1.countBlocks i key f.2.1.length
  let (t, _, trap) := t.noteKeys i v nc l.q f.2.1
  match f.2.2 with
  | some bad => t.failRotation i ps g bad.2 bad.1
  | none =>
    if trap then t.failRotation i ps g .RANGE 0
    else
      let as := rows.map fun r => keyA set.seed ps key.kid r.1 r.2
      let t := t.forEach g.accs.zipIdx fun t a =>
        t.forEach (finishRotation l ps g f.2.1 as a.1).zipIdx fun t o =>
          t.writeWords (spadBase i + g.dst + o.2 * g.step + a.2 * sampleStride ps.lweN) o.1
      (t.bump TILE.GZCNT.LOOKUPS (g.accs.length * g.outs) i).endKey i

/-- The next coordinate of a tile's BLINDROT: its elements come, and all of the tile's samples take it (R164, R169). -/
def Tx.coordinate (t : Tx s) (i : Nat) (k : KStream) : Tx s :=
  let set := t.now.ksetsAt k.ksid
  match (t.tilesAt i).engines.find? fun e => e.gz.isSome && e.left ≠ 0, set.find (2 * 2 ^ 18), set.find (2 ^ 18 + 1) with
  | some e, some e2, some e1 =>
    let g := e.gz.getD {}
    let c := t.now.psetCtx g.pset
    let l := extLimb c 0 0
    let key : KeyRef :=
      { ks := set, ksid := k.ksid, kid := 2 * 2 ^ 18 + k.next, e := e2, ps := c.ps, counts := t.now.firstToGet i k c k.next }
    let rows := (List.range 2).flatMap fun σ =>
      (List.range (2 * c.ps.gauze.glev)).map fun r => (({ q := l.q, w := r } : KeyRow), σ)
    let f := t.fetchKeyLimbs i key rows
    let t := f.1.countBlocks i key f.2.1.length
    let (t, nc, trap) := t.noteKeys i e.view e.nc l.q f.2.1
    match f.2.2 with
    | some bad => t.failRotation i c.ps g bad.2 bad.1
    | none =>
      if trap then t.failRotation i c.ps g .RANGE 0
      else
        let as := rows.map fun r => keyA set.seed c.ps key.kid r.1 r.2
        let row (sg r : Nat) : List Nat × List Nat :=
          (f.2.1.getD (sg * (2 * c.ps.gauze.glev) + r) [], as.getD (sg * (2 * c.ps.gauze.glev) + r) [])
        let accs := (g.samples.zip g.accs).map fun a =>
          rotateStep l c.ps.gauze row a.2 (a.1.getD k.next 0 >>> (c.ps.logn - c.ps.gauze.brLogn))
        let g := { g with accs := accs }
        let t := t.modTiles i fun x => { x with
          kstream := some { k with next := k.next + 1 }, progress := true
          engines := x.engines.map fun v => if v.gz.isSome then { v with left := v.left - 1, nc := nc, gz := some g } else v }
        if e.left = 1 then t.closeRotation i c k e1 g nc e.view else t
  | _, _, _ => t.endKey i

/-- KEY_LIMB_DELIVER (R113): the tile's key stream delivers its next limb pair; that of a BLINDROT the elements of its next
coordinate, and the macro works on them (R166). -/
def execKeyLimbDeliver (i : Fin 64) (s : State) : Host.Outcome State Fault Refusal :=
  let t := begin s
  match (t.tilesAt i).kstream with
  | some k =>
    if t.now.runState i ≠ runRunning then done t
    else if k.rot then
      (if s.relayStalls i k (s.psetCtx (s.ksetsAt k.ksid).pset) k.next then done t else done (t.coordinate i k))
    else done (t.deliverKey i k)
  | none => done t

end Sys2Proof.Machine
end

