-- ==== Sys2Proof/Machine/Serge.lean ====
section
/-!
DEFINITION. Serge (R443 to R448): its eight job slots, its curves, the checks of its inputs in their order, its operations,
and who runs when.
-/

namespace Sys2Proof.Machine

variable {s : State}

/-- Operations of R444. -/
def sergeVERIFY : Nat := 1
@[inherit_doc sergeVERIFY] def sergeECDH : Nat := 2
@[inherit_doc sergeVERIFY] def sergePUBCHECK : Nat := 3
@[inherit_doc sergeVERIFY] def sergeSIGN : Nat := 4
@[inherit_doc sergeVERIFY] def sergeKEYGEN : Nat := 5
@[inherit_doc sergeVERIFY] def sergeCURVELOAD : Nat := 6

/-- States of a slot (SERGE.SLOTSTAT). -/
def slotIdle : Nat := 0
@[inherit_doc slotIdle] def slotQueued : Nat := 1
@[inherit_doc slotIdle] def slotRunning : Nat := 2
@[inherit_doc slotIdle] def slotDone : Nat := 3

/-- Is a job slot the secure world's? -/
def slotSecure (k : Nat) : Bool := 4 ≤ k

/-- A curve as slot `k` may use it: the fixed ones, and its own world's (R445). -/
def SergeUnit.curve (u : SergeUnit) (k c : Nat) : Option Curve :=
  if c = 0 then some p256 else if c = 1 then some p384
  else if (if slotSecure k then 6 ≤ c && c < 10 else 2 ≤ c && c < 6) then (u.curves.find? (·.1 = c)).map (·.2)
  else none

/-- May slot `k` load curve slot `c` (R445)? -/
def mayLoad (k c : Nat) : Bool := if slotSecure k then 6 ≤ c && c < 10 else 2 ≤ c && c < 6

/-! ### Operands (R444) -/

/-- The 80 bytes of operand `i` of a slot. -/
def State.sergeOpnd (s : State) (k i : Nat) : List Byte := natLe 80 (s.regSpan ((Page.SERGE).base k + 0x200 + 0x50 * i) 20)

/-- Write operand `i` of a slot. -/
def Tx.putSergeOpnd (t : Tx s) (k i : Nat) (bs : List Byte) : Tx s :=
  t.putSpan ((Page.SERGE).base k + 0x200 + 0x50 * i) 20 (leNat bs)

/-- An operand's value: its last L bytes, or none where a byte before them is not zero (R447 order 1). -/
def operandValue (l : Nat) (bs : List Byte) : Option Nat :=
  if beNat (bs.take (80 - l)) = 0 then some (beNat (bs.drop (80 - l))) else none

/-- A value as an operand of 80 bytes. -/
def operandBytes (v : Nat) : List Byte := natBe 80 v

/-- A public point's checks 2 to 4 of R447, in order. -/
def pointStatus (c : Curve) (x y : Nat) : Status :=
  if c.p ≤ x || c.p ≤ y then .INPUT_RANGE
  else if x = 0 && y = 0 then .NOT_ON_CURVE
  else if c.onCurve x y then .OK else .NOT_ON_CURVE

/-- A public point's checks from its stored bytes (R447 orders 1 to 4), as PUBCHECK makes them. -/
def pubCheck (c : Curve) (xb yb : List Byte) : Status :=
  match operandValue c.len xb, operandValue c.len yb with
  | some x, some y => pointStatus c x y
  | _, _ => .INPUT_RANGE

/-- Checks 5 and 6 of R447 for a verification's r and s, and check 7. -/
def verifyStatus (c : Curve) (e r v x y : Nat) : Status :=
  if r = 0 || v = 0 || c.n ≤ r || c.n ≤ v then .INPUT_RANGE
  else if c.verify e r v x y then .OK else .BAD_SIGNATURE

/-! ### Operations -/

/-- What a job ends with: its status, the failing step of a CURVE_LOAD, its output operands, and what it keeps. -/
structure SergeOut where
  status : Status
  step : Nat := 0
  outs : List (Nat × Nat) := []
  curve : Option (Nat × Curve) := none
  key : Option (Nat × Nat) := none
  deriving DecidableEq, Repr

/-- The private key of a handle; for a handle that the store does not hold the spec names none: a free value. -/
def SergeUnit.key (u : SergeUnit) (h free : Nat) : Nat := ((u.keys.find? (·.1 = h)).map (·.2)).getD free

/-- A scalar from 1 to n − 1. -/
def scalarOf (n x : Nat) : Nat := 1 + x % (n - 1)

/-- The result of an operation of slot `k` on its operands (R444, R445, R447). `f0` and `f1` are fresh random numbers. -/
def sergeRun (u : SergeUnit) (k op cs hlen f0 f1 : Nat) (opnd : Nat → List Byte) : SergeOut :=
  let load (i : Nat) : Option Nat := operandValue 66 (opnd i)
  if op = sergeCURVELOAD then
    match load 0, load 1, load 2, load 3, load 4, load 5 with
    | some p, some a, some b, some gx, some gy, some n =>
      let c : Curve := ⟨p, a, b, gx, gy, n⟩
      match c.failingStep with
      | some st => { status := .BAD_CURVE, step := st }
      | none => { status := .OK, curve := some (cs, c) }
    | _, _, _, _, _, _ => { status := .INPUT_RANGE }
  else
    match u.curve k cs with
    | none => { status := .BAD_CURVE }
    | some c =>
      let val (i : Nat) : Option Nat := operandValue c.len (opnd i)
      let e := c.digest ((opnd 0).take hlen)
      match op with
      | 1 =>
        match val 1, val 2, val 3, val 4 with
        | some r, some v, some x, some y =>
          match pointStatus c x y with
          | .OK => { status := verifyStatus c e r v x y }
          | st => { status := st }
        | _, _, _, _ => { status := .INPUT_RANGE }
      | 2 =>
        match val 0, val 3, val 4 with
        | some d, some x, some y =>
          match pointStatus c x y with
          | .OK =>
            if d = 0 then { status := .SCALAR_ZERO }
            else if c.n ≤ d then { status := .INPUT_RANGE }
            else { status := .OK, outs := [(5, ((c.mul d (some (x, y))).getD (0, 0)).1)] }
          | st => { status := st }
        | _, _, _ => { status := .INPUT_RANGE }
      | 3 => { status := pubCheck c (opnd 3) (opnd 4) }
      | 4 =>
        match val 6 with
        | some h =>
          let sg := c.sign e (u.key h f1) (scalarOf c.n f0)
          { status := .OK, outs := [(1, sg.1), (2, sg.2)] }
        | none => { status := .INPUT_RANGE }
      | 5 =>
        match val 6 with
        | some h =>
          let d := scalarOf c.n f0
          let q := (c.mul d c.g).getD (0, 0)
          { status := .OK, outs := [(3, q.1), (4, q.2)], key := some (h, d) }
        | none => { status := .INPUT_RANGE }
      | _ => { status := .RANGE }

/-! ### Slots -/

/-- A job of slot `k` completes (R448): operands but the outputs zero, then status and DONE. -/
def Tx.sergeEnd (t : Tx s) (k : Nat) (o : SergeOut) : Tx s :=
  let t := t.forEach (List.range 7) fun t i =>
    t.putSergeOpnd k i (operandBytes (((o.outs.find? (·.1 = i)).map (·.2)).getD 0))
  let u := t.now.serge
  let u := match o.curve with | some c => { u with curves := mapInsert u.curves c.1 c.2 } | none => u
  let u := match o.key with | some c => { u with keys := mapInsert u.keys c.1 c.2 } | none => u
  (((t.putSerge u).setFld SERGE.SLOTSTAT.STEP o.step k).setFld SERGE.SLOTSTAT.STATUS o.status.code k).setFld
    SERGE.SLOTSTAT.STATE slotDone k

/-- Serge takes its next job when it runs none (R443): a ready secure slot, else the saved normal job, else a ready normal
slot. -/
def Tx.sergeNext (t : Tx s) : Tx s :=
  let u := t.now.serge
  if u.running.isSome then t
  else
    match u.ready.find? slotSecure, u.saved, u.ready.head? with
    | some k, _, _ =>
      (t.putSerge { u with running := some k, ready := u.ready.erase k }).setFld SERGE.SLOTSTAT.STATE slotRunning k
    | none, some k, _ => t.putSerge { u with running := some k, saved := none }
    | none, none, some k =>
      (t.putSerge { u with running := some k, ready := u.ready.erase k }).setFld SERGE.SLOTSTAT.STATE slotRunning k
    | none, none, none => t

/-- GO on a slot whose OP, CURVE and HLEN are written (R447, R448): what depends only on public state is reported at once. -/
def Tx.sergeStart (t : Tx s) (k : Nat) : Tx s :=
  let op := t.fld SERGE.SLOTCTL.OP k
  let cs := t.fld SERGE.SLOTCTL.CURVE k
  let refused : Option Status :=
    if op = 0 || op = 7 then some .RANGE
    else if (op = sergeSIGN || op = sergeKEYGEN) && !slotSecure k then some .DENIED
    else if op = sergeCURVELOAD then (if mayLoad k cs then none else some .BAD_CURVE)
    else if (t.now.serge.curve k cs).isNone then some .BAD_CURVE else none
  match refused with
  | some st => t.sergeEnd k { status := st }
  | none =>
    let t := (t.setFld SERGE.SLOTSTAT.STATE slotQueued k).putSerge
      { t.now.serge with ready := t.now.serge.ready ++ [k] }
    t.sergeNext

/-- A write of SLOTCTL (R448): GO while the slot is not IDLE or DONE is discarded and logged. -/
def Tx.slotCtl (t : Tx s) (k op curve hlen : Nat) (go : Bool) : Tx s :=
  let st := t.fld SERGE.SLOTSTAT.STATE k
  if go && st ≠ slotIdle && st ≠ slotDone then t.logStatus .SERGE k .BUSY
  else
    (((t.setFld SERGE.SLOTCTL.OP op k).setFld SERGE.SLOTCTL.CURVE curve k).setFld SERGE.SLOTCTL.HLEN hlen k).when go
      fun t => t.sergeStart k

/-- The command of a Serge operation: a write of SLOTCTL with GO on slot `k` (0 to 3 normal, 4 to 7 secure). -/
def Tx.sergeGo (t : Tx s) (o : RegFrom) (k op curve hlen : Nat) : Tx s :=
  t.guarded o .SERGE k fun t => t.slotCtl k op curve hlen true

/-- VERIFY (R444, R446). -/
def execVerify (o : RegFrom) (k : Fin 8) (curve : BitVec 4) (hlen : BitVec 8) (s : State) :
    Host.Outcome State Fault Refusal :=
  done ((begin s).sergeGo o k sergeVERIFY curve.toNat hlen.toNat)

/-- ECDH (R444, R446). -/
def execEcdh (o : RegFrom) (k : Fin 8) (curve : BitVec 4) (s : State) : Host.Outcome State Fault Refusal :=
  done ((begin s).sergeGo o k sergeECDH curve.toNat (s.fld SERGE.SLOTCTL.HLEN k))

/-- PUBCHECK (R444, R447). -/
def execPubcheck (o : RegFrom) (k : Fin 8) (curve : BitVec 4) (s : State) : Host.Outcome State Fault Refusal :=
  done ((begin s).sergeGo o k sergePUBCHECK curve.toNat (s.fld SERGE.SLOTCTL.HLEN k))

/-- SIGN (R444). -/
def execSign (o : RegFrom) (k : Fin 8) (curve : BitVec 4) (hlen : BitVec 8) (s : State) :
    Host.Outcome State Fault Refusal :=
  done ((begin s).sergeGo o k sergeSIGN curve.toNat hlen.toNat)

/-- KEYGEN (R444). -/
def execKeygen (o : RegFrom) (k : Fin 8) (curve : BitVec 4) (s : State) : Host.Outcome State Fault Refusal :=
  done ((begin s).sergeGo o k sergeKEYGEN curve.toNat (s.fld SERGE.SLOTCTL.HLEN k))

/-- CURVE_LOAD (R445). -/
def execCurveLoad (o : RegFrom) (k : Fin 8) (curve : BitVec 4) (s : State) : Host.Outcome State Fault Refusal :=
  done ((begin s).sergeGo o k sergeCURVELOAD curve.toNat (s.fld SERGE.SLOTCTL.HLEN k))

/-- SERGE_YIELD (R443): at the running normal job's yield point a ready secure job takes Serge; the normal state is saved. -/
def execSergeYield (s : State) : Host.Outcome State Fault Refusal :=
  let t := begin s
  let u := t.now.serge
  match u.running, u.ready.find? slotSecure with
  | some k, some _ =>
    if slotSecure k || u.saved.isSome then done t
    else done (t.putSerge { u with running := none, saved := some k }).sergeNext
  | _, _ => done t

/-- SERGE_JOB_DONE (R446, R448): the running job reaches its fixed completion time, reports and wipes; the next job starts. -/
def execSergeJobDone (s : State) : Host.Outcome State Fault Refusal :=
  let t := begin s
  match t.now.serge.running with
  | some k =>
    let f := t.now.fresh
    let o := sergeRun t.now.serge k (t.fld SERGE.SLOTCTL.OP k) (t.fld SERGE.SLOTCTL.CURVE k)
      (t.fld SERGE.SLOTCTL.HLEN k) (Config.draw f) (Config.draw (f + 1)) (t.now.sergeOpnd k)
    let t := (t.freshen.freshen.sergeEnd k o)
    done (t.putSerge { t.now.serge with running := none }).sergeNext
  | none => done t

end Sys2Proof.Machine
end

