-- ==== Sys2Proof/Machine/Sha.lean ====
section
/-!
DEFINITION. The digests of the hash unit (R440): SHA-256 and SHA-384 as FIPS 180-4 defines them, SHA3-256 and SHA3-384 as
FIPS 202 defines them, on byte messages.
-/

namespace Sys2Proof.Machine

/-! ### FIPS 180-4 -/

/-- The largest r below 2^`n` with r^k ≤ x, found bit by bit. -/
def rootBits (k x : Nat) : Nat → Nat → Nat
  | 0, r => r
  | n + 1, r => rootBits k x n (if (r + 2 ^ n) ^ k ≤ x then r + 2 ^ n else r)

/-- The first 80 primes. -/
def primes80 : List Nat :=
  [2, 3, 5, 7, 11, 13, 17, 19, 23, 29, 31, 37, 41, 43, 47, 53, 59, 61, 67, 71] ++
  [73, 79, 83, 89, 97, 101, 103, 107, 109, 113, 127, 131, 137, 139, 149, 151, 157, 163, 167, 173] ++
  [179, 181, 191, 193, 197, 199, 211, 223, 227, 229, 233, 239, 241, 251, 257, 263, 269, 271, 277, 281] ++
  [283, 293, 307, 311, 313, 317, 331, 337, 347, 349, 353, 359, 367, 373, 379, 383, 389, 397, 401, 409]

/-- The first `w` bits of the fractional part of a `k`-th root. -/
def rootFrac (k w p : Nat) : Nat := rootBits k (p <<< (k * w)) (w + 5) 0 % 2 ^ w

/-- One of the two algorithms: word width, initial primes, rounds, and the rotations of Σ0, Σ1, σ0, σ1. -/
structure Sha2 where
  w : Nat
  skip : Nat
  rounds : Nat
  big0 : Nat × Nat × Nat
  big1 : Nat × Nat × Nat
  small0 : Nat × Nat × Nat
  small1 : Nat × Nat × Nat
  out : Nat

@[inherit_doc Sha2] def sha256Alg : Sha2 := ⟨32, 0, 64, (2, 13, 22), (6, 11, 25), (7, 18, 3), (17, 19, 10), 8⟩
@[inherit_doc Sha2] def sha384Alg : Sha2 := ⟨64, 8, 80, (28, 34, 39), (14, 18, 41), (1, 8, 7), (19, 61, 6), 6⟩

/-- Rotate a `w`-bit number right. -/
def rotr (w x n : Nat) : Nat := (x >>> n) + (x % 2 ^ n) <<< (w - n)

/-- Σ and σ: two or three rotations, σ's last one a shift. -/
def Sha2.bigS (a : Sha2) (r : Nat × Nat × Nat) (x : Nat) : Nat := rotr a.w x r.1 ^^^ rotr a.w x r.2.1 ^^^ rotr a.w x r.2.2
@[inherit_doc Sha2.bigS] def Sha2.smallS (a : Sha2) (r : Nat × Nat × Nat) (x : Nat) : Nat :=
  rotr a.w x r.1 ^^^ rotr a.w x r.2.1 ^^^ (x >>> r.2.2)

/-- The message schedule, newest word first: `n` more words. -/
def Sha2.schedule (a : Sha2) : Nat → List Nat → List Nat
  | 0, l => l
  | n + 1, l => a.schedule n
      ((a.smallS a.small1 (l.getD 1 0) + l.getD 6 0 + a.smallS a.small0 (l.getD 14 0) + l.getD 15 0) % 2 ^ a.w :: l)

/-- One round on the eight working variables. -/
def Sha2.round (a : Sha2) (v : List Nat) (kw : Nat × Nat) : List Nat :=
  match v with
  | [x, b, c, d, e, f, g, h] =>
    let t1 := h + a.bigS a.big1 e + ((e &&& f) ^^^ ((2 ^ a.w - 1 - e) &&& g)) + kw.1 + kw.2
    let t2 := a.bigS a.big0 x + ((x &&& b) ^^^ (x &&& c) ^^^ (b &&& c))
    [(t1 + t2) % 2 ^ a.w, x, b, c, (d + t1) % 2 ^ a.w, e, f, g]
  | v => v

/-- Process one block of 16 words. -/
def Sha2.block (a : Sha2) (ks : List Nat) (h m : List Nat) : List Nat :=
  let ws := (a.schedule (a.rounds - 16) m.reverse).reverse
  ((ks.zip ws).foldl a.round h).zip h |>.map fun p => (p.1 + p.2) % 2 ^ a.w

/-- Big-endian words of a byte list, `n` bytes each. -/
def beWords (n : Nat) (bs : List Byte) : List Nat := (chunks n (bs.length / n) bs).map beNat

/-- The padding of FIPS 180-4, section 5.1: 0x80, zeros, and the bit length in two words. -/
def Sha2.pad (a : Sha2) (bs : List Byte) : List Byte :=
  let blk := 2 * a.w
  let used := (bs.length + 1 + a.w / 4) % blk
  bs ++ [0x80] ++ List.replicate ((blk - used) % blk) 0 ++ natBe (a.w / 4) (8 * bs.length)

/-- The digest of a message. -/
def Sha2.digest (a : Sha2) (bs : List Byte) : List Byte :=
  let ks := (primes80.take a.rounds).map (rootFrac 3 a.w)
  let h := ((primes80.drop a.skip).take 8).map (rootFrac 2 a.w)
  let ws := beWords (a.w / 8) (a.pad bs)
  (((chunks 16 (ws.length / 16) ws).foldl (a.block ks) h).take a.out).flatMap (natBe (a.w / 8))

/-- SHA-256 of a message. -/
def sha256 (bs : List Byte) : List Byte := sha256Alg.digest bs
/-- SHA-384 of a message. -/
def sha384 (bs : List Byte) : List Byte := sha384Alg.digest bs

/-! ### FIPS 202 -/

/-- Rotate a 64-bit lane left. -/
def rotl64 (x n : Nat) : Nat := (x <<< (n % 64)) % 2 ^ 64 + x >>> (64 - n % 64)

/-- The rotation offsets of ρ, by lane x + 5y. -/
def keccakRho : List Nat :=
  [0, 1, 62, 28, 27, 36, 44, 6, 55, 20, 3, 10, 43, 25, 39, 41, 45, 15, 21, 8, 18, 2, 61, 56, 14]

/-- The bits of the round-constant register of ι, `n` steps of the 8-bit LFSR. -/
def keccakLfsr : Nat → Nat → List Bool
  | 0, _ => []
  | n + 1, r => bit r 0 :: keccakLfsr n (if bit r 7 then (2 * r) % 256 ^^^ 0x71 else 2 * r)

/-- The round constants of ι. -/
def keccakRc : List Nat :=
  let bs := keccakLfsr 168 1
  (List.range 24).map fun i => ((List.range 7).map fun j => bnat (bs.getD (7 * i + j) false) <<< (2 ^ j - 1)).sum

/-- One round of Keccak-f[1600] on 25 lanes, lane x + 5y: θ, ρ, π, χ, ι. -/
def keccakRound (a : List Nat) (rc : Nat) : List Nat :=
  let c := (List.range 5).map fun x => (List.range 5).foldl (fun v y => v ^^^ a.getD (x + 5 * y) 0) 0
  let d := (List.range 5).map fun x => c.getD ((x + 4) % 5) 0 ^^^ rotl64 (c.getD ((x + 1) % 5) 0) 1
  let r := (List.range 25).map fun i => rotl64 (a.getD i 0 ^^^ d.getD (i % 5) 0) (keccakRho.getD i 0)
  -- π: lane (x, y) comes from lane (x + 3y, x)
  let b := (List.range 25).map fun i => r.getD ((i % 5 + 3 * (i / 5)) % 5 + 5 * (i % 5)) 0
  let e := (List.range 25).map fun i =>
    let y := 5 * (i / 5)
    b.getD i 0 ^^^ ((2 ^ 64 - 1 - b.getD ((i + 1) % 5 + y) 0) &&& b.getD ((i + 2) % 5 + y) 0)
  e.set 0 (e.getD 0 0 ^^^ rc)

/-- Absorb one block of `rate` bytes. -/
def keccakAbsorb (a : List Nat) (blk : List Byte) : List Nat :=
  let ws := (chunks 8 (blk.length / 8) blk).map leNat
  keccakRc.foldl keccakRound (a.zipIdx.map fun v => v.1 ^^^ ws.getD v.2 0)

/-- The padding of SHA3: suffix 01, then 10*1. -/
def sha3Pad (rate : Nat) (bs : List Byte) : List Byte :=
  let n := rate - bs.length % rate
  bs ++ if n = 1 then [0x86] else [0x06] ++ List.replicate (n - 2) 0 ++ [0x80]

/-- SHA3 with an output of `n` bytes. -/
def sha3 (n : Nat) (bs : List Byte) : List Byte :=
  let rate := 200 - 2 * n
  let p := sha3Pad rate bs
  (((chunks rate (p.length / rate) p).foldl keccakAbsorb (List.replicate 25 0)).flatMap (natLe 8)).take n

/-- The digest of HASH.CTX.ALG. -/
def hashAlg (alg : Nat) (bs : List Byte) : List Byte :=
  match alg with
  | 0 => sha256 bs
  | 1 => sha384 bs
  | 2 => sha3 32 bs
  | _ => sha3 48 bs

end Sys2Proof.Machine
end

