-- ==== Sys2Proof/Machine/Damask.lean ====
section
/-!
DEFINITION. Damask (ch. 06): weight blocks (R124 to R128), weight stream descriptors (R129, R130), the encoder (R133 to
R135), the modular accumulator and its ledger shadow (R136 to R140), the integer domain (R141 to R144).
-/

namespace Sys2Proof.Machine

variable {s : State}

/-- UNIT code of Damask (R203). -/
def unitDamask : Nat := 3

/-! ### Weight blocks -/

/-- Header and payload bytes of a format (R124). -/
def blockHeader (fmt : Nat) : Nat := if fmt = 5 then 12 else 4
@[inherit_doc blockHeader] def blockPayload (fmt : Nat) : Nat := [128, 96, 64, 52, 32, 128].getD fmt 0

/-- Bytes of a block (R124). -/
def blockBytes (fmt : Nat) (esc : Bool) : Nat := blockHeader fmt + blockPayload fmt + (if esc then 8 else 0)

/-- Value of element `e` of a payload read as one little-endian integer (R126). -/
def elemValue (fmt : Nat) (pay : List Byte) (x e : Nat) : Int :=
  match fmt with
  | 0 => signed (bits x (4 * e + 3) (4 * e)) 4
  | 1 => signed (bits x (3 * e + 2) (3 * e)) 3
  | 2 => signed (bits x (2 * e + 1) (2 * e)) 2
  | 3 => (((pay.getD (e / 5) 0).toNat / 3 ^ (e % 5) % 3 : Nat) : Int) - 1
  | 4 => if bit x e then 1 else -1
  | _ =>
    let h : Nat := [0, 1, 2, 3, 4, 6, 8, 12].getD (bits x (4 * e + 2) (4 * e)) 0
    if bit x (4 * e + 3) then -(h : Int) else h

/-- A decoded block: element values, exponents u, and the number of escapes (R125 to R127). -/
structure WBlock where
  vals : List Int
  us : List Int
  nesc : Nat
  deriving DecidableEq, Repr

/-- Are the indices strictly ascending? -/
def ascending : List Nat → Bool
  | a :: b :: r => decide (a < b) && ascending (b :: r)
  | _ => true

/-- Decode a block, or refuse it (R128). -/
def decodeBlock (fmt : Nat) (esc : Bool) (bs : List Byte) : Option WBlock :=
  let hd := bs.take (blockHeader fmt)
  let pay := (bs.drop (blockHeader fmt)).take (blockPayload fmt)
  let area := (bs.drop (blockHeader fmt + blockPayload fmt)).take 8
  let ns := if fmt = 5 then 8 else 1
  let scales := (hd.take ns).map (·.toNat)
  let nb := (hd.getD ns 0).toNat
  let nesc := nb % 8
  let es := (List.range nesc).map fun i => ((area.getD (2 * i) 0).toNat, (area.getD (2 * i + 1) 0).toNat)
  let bad := nb / 8 ≠ 0 || (hd.drop (ns + 1)).any (· ≠ 0) || 4 < nesc || (nesc ≠ 0 && !esc) || scales.contains 0xFF ||
    (esc && !(ascending (es.map (·.1)) && (area.drop (2 * nesc)).all (· = 0))) ||
    (fmt = 3 && (pay.any (242 < ·.toNat) || (pay.getD 51 0).toNat < 120 || 122 < (pay.getD 51 0).toNat))
  if bad then none
  else
    let x := leNat pay
    some {
      vals := (List.range 256).map fun e =>
        match es.find? (·.1 = e) with
        | some v => signed v.2 8
        | none => elemValue fmt pay x e
      us := (List.range 256).map fun e => (scales.getD (if fmt = 5 then e / 32 else 0) 0 : Int) - (if fmt = 5 then 128 else 127)
      nesc := nesc }

/-- Read a 256-bit weight stream descriptor (R129). -/
def wsdOfNat (x : Nat) : Wsd where
  tag := bits x 255 224
  pstride := bits x 223 207
  pbase := bits x 206 190
  place := bits x 189 188
  ws := signed (bits x 183 176) 8
  rowblk := bits x 175 160
  rows := bits x 159 144
  addr := bits x 123 64
  esc := bit x 7
  isSealed := bit x 6
  ilv := bits x 5 3
  fmt := bits x 2 0
  reserved := bits x 187 184 + bits x 143 124 + bits x 63 8

/-- Global address of block `b` of row `r` (R130). -/
def Wsd.blockAddr (d : Wsd) (r b : Nat) : Nat :=
  let i := 2 ^ d.ilv
  d.addr + ((r / i * d.rowblk + b) * i + r % i) * blockBytes d.fmt d.esc

/-- The field checks of R129 and R130 that need neither memory nor the ring degree. -/
def Wsd.legal (d : Wsd) : Bool :=
  d.reserved = 0 && d.fmt < 6 && d.ilv < 6 && d.place < 2 && 1 ≤ d.pstride && 1 ≤ d.rowblk && 1 ≤ d.rows &&
  d.rows % 2 ^ d.ilv = 0 && d.addr % 64 = 0

/-! ### DENC (R133 to R135) -/

/-- One weight as the integer c of R133, with whether it rounds inexactly. -/
def encWeight (v t : Int) : Int × Bool :=
  if 0 ≤ t then (v * (2 ^ t.toNat : Nat), false)
  else
    let k := (-t).toNat
    (floorI (v + (2 ^ (k - 1) : Nat)) (2 ^ k), v % (2 ^ k : Nat) ≠ 0)

/-- The result of encoding a range: coefficients, WSUM, rounded?, escapes. -/
structure Encoding where
  coeffs : List Int
  wsum : Nat
  rounded : Bool
  esc : Nat
  deriving DecidableEq, Repr

/-- Add `c` to element `i` of a list. -/
def addAt (l : List Int) (i : Nat) (c : Int) : List Int := l.set i (l.getD i 0 + c)

/-- Encode blocks into N coefficients (R133, R134); none where R128 or R133 refuses. -/
def encode (d : Wsd) (n : Nat) (blocks : List (List Byte)) : Option Encoding :=
  match blocks.mapM (decodeBlock d.fmt d.esc) with
  | none => none
  | some bs =>
    let vs := bs.flatMap fun b => b.vals.zip b.us
    if vs.any fun v => 24 < v.2 + d.ws then none
    else
      let cs := vs.map fun v => encWeight v.1 (v.2 + d.ws)
      some {
        coeffs := cs.zipIdx.foldl (fun l ce =>
          let e : Int := (ce.2 * d.pstride : Nat)
          let tau := (((d.pbase : Int) + if d.place = 1 then -e else e) % (2 * n : Nat)).toNat
          if tau < n then addAt l tau ce.1.1 else addAt l (tau - n) (-ce.1.1)) (List.replicate n 0)
        wsum := (cs.map (·.1.natAbs)).sum
        rounded := cs.any (·.2)
        esc := (bs.map (·.nesc)).sum }

/-- The blocks of a DENC or DIMM source, one after another with no gap (R124), in the scratchpad and on a queue. -/
def blocksOf (d : Wsd) (nb : Nat) (ws : List Nat) : List (List Byte) := chunks (blockBytes d.fmt d.esc) nb (wordsBytes ws)

/-- Source words of `nb` blocks: every block is whole words. -/
def blockWords (d : Wsd) (nb : Nat) : Nat := nb * (blockBytes d.fmt d.esc / 4)

/-- Set bits of a field that holds sticky bits. -/
def Tx.orFld (t : Tx s) (f : Fld) (v : Nat) (n : Nat) : Tx s := t.setFld f (t.fld f n ||| v) n

/-- DENC: blocks of one row to the tile's limbs j ≤ LEVEL and a weight bound register. -/
def dencPlan (i : Nat) (w : NInstr) (t : Tx s) : Plan s :=
  let o := opWord w
  let c := t.now.psetCtx w.pset
  let nb := bits w.imm 14 6 + 1
  let n := c.ps.n
  match (t.tilesAt i).wslots.find? (·.1 = bits w.imm 5 4), refOpnd o.ref0, refOpnd o.ref1, refOpnd o.ref2 with
  | some (_, d), some (.spad off), some src, some _ =>
    let ls := tileLimbs c w.level .chain (i % 8)
    if w.ldg ≠ 0 || bits w.a 35 27 ≠ 0 || !immOk w 0x7FFF || w.basis = 1 || o.resv ≠ 0 || !c.ps.live ||
        c.ps.numQ ≤ w.level || d.order || n / 256 < nb || n ≤ d.pbase then .range
    else
      let trap := t.flagEff TILE.DMKCTL.ROUND_TRAP i
      let enc ws := encode d n (blocksOf d nb ws)
      .run id [{
        reads := [(src, blockWords d nb, 0)]
        writes := ls.zipIdx.map fun lt => (.spad (off + lt.2 * o.lstride * 64), n)
        note := fun _ ws t =>
          match enc (ws.getD 0 []) with
          | some e =>
            if e.rounded && trap then t
            else (t.bump TILE.DMKENC.ESC e.esc i).when e.rounded fun t =>
              (t.bump TILE.DMKENC.ROUNDED 1 i).setFld TILE.DMKSTAT.ROUNDED 1 i
          | none => t
        check := fun _ ws =>
          match enc (ws.getD 0 []) with
          | some e => if e.rounded && trap then some .RANGE else none
          | none => some .RANGE
        compute := fun x ws =>
          match enc (ws.getD 0 []) with
          | some e =>
            let b : Wbr := { valid := true, wsum := e.wsum, pset := w.pset, level := w.level, ws := d.ws, exact := !e.rounded,
                             off := off, stride := o.lstride * 64, limbs := ls.length }
            ({ x with wbrs := mapPut {} x.wbrs (bits w.imm 3 0) b },
             ls.map fun l => e.coeffs.map (fromInt · l.q))
          | none => (x, []) }] (ls.any (·.mont))
  | _, _, _, _ => .range

/-! ### DMAC and DRD (R136 to R140) -/

/-- Does the plaintext limb at `off` lie in the range a weight bound register recorded (R136)? -/
def Wbr.holds (b : Wbr) (off n : Nat) : Bool :=
  b.valid && 0 < b.limbs && b.off ≤ off && off + 4 * n ≤ b.off + (b.limbs - 1) * b.stride + 4 * n

/-- The shadow after a tracked DMAC (R138, R140); none where it refuses. -/
def trackShadow (ps : Pset) (sh : Option Shadow) (a : Ctd) (b : Wbr) : Option Shadow :=
  let h := sh.getD { src := a, ws := b.ws, scaleMax := a.scale, scaleMin := a.scale, noise := a.noise, mbound := a.mbound }
  let mx := max h.scaleMax a.scale
  let mn := min h.scaleMin a.scale
  if a.pset ≠ h.src.pset || a.ksid ≠ h.src.ksid || a.kind ≠ h.src.kind || a.level ≠ h.src.level ||
      a.boot ≠ h.src.boot || a.aux ≠ h.src.aux || a.comp ≠ 2 || !a.ntt || b.pset ≠ h.src.pset ||
      b.level ≠ h.src.level || b.ws ≠ h.ws || ps.scaleTol < mx - mn || (a.kind = 1 && (b.ws ≠ 0 || !b.exact)) then none
  else some { h with
    scaleMax := mx, scaleMin := mn, noise := max h.noise a.noise, mbound := max h.mbound a.mbound
    ovr := h.ovr || a.ovr, wsum := min (h.wsum + b.wsum) (2 ^ 64 - 1) }

/-- The automatic fold of DACC (R137). -/
def Tx.daccFold (t : Tx s) (i q : Nat) : Tx s :=
  let d := (t.tilesAt i).dacc
  if 65536 ≤ d.terms then
    (t.modTiles i fun x => { x with dacc := { d with entries := d.entries.map (· % q), terms := 1 } }).bump
      TILE.DMKCNT.FOLD 1 i
  else t

/-- One DMAC into DACC. -/
def dmacStep (e : Eng) (tl : Nat × Limb) (polys : List Nat) : EStep s where
  reads := polys.map (fun p => e.rd e.r1 p tl.1 tl.2.q) ++ [e.rd e.r2 0 tl.1 tl.2.q]
  writes := []
  compute := fun x ws =>
    let p := ws.getD polys.length []
    let prods := (ws.take polys.length).flatMap fun y => (y.zip p).map fun v => modMul tl.2.q v.1 v.2
    ({ x with dacc := { x.dacc with
        entries := addEntries x.dacc.entries prods, terms := x.dacc.terms + 1, live := true } }, [])

/-- Polynomials a DMAC or DRD covers: both at N ≤ 2^16, the one POLY names at 2^17; none where POLY is out of place. -/
def daccPolys (n : Nat) (poly : Bool) : Option (List Nat) :=
  if n = 2 ^ 17 then some [bnat poly] else if poly then none else some [0, 1]

/-- DMAC: raw, or tracked with LDG 1 (R136 to R138, R140). -/
def dmacPlan (i : Nat) (w : NInstr) (t : Tx s) : Plan s :=
  let b := mapGet {} (t.tilesAt i).wbrs (bits w.imm 3 0)
  let go (e : Eng) (u : Tile → Tile) : Plan s :=
    match e.limbs, daccPolys e.n (bit w.imm 4) with
    | [tl], some ps =>
      match opndAt e.o e.r2 0 tl.1 with
      | .spad off =>
        if b.holds off e.n then
          .run (fun t => (t.modTiles i u).daccFold i tl.2.q) [dmacStep e tl ps] e.mont
        else .range
      | _ => .range
    | _, _ => .range
  if w.ldg = 0 then
    match t.now.rawEng i w 0x1F (rawBasis w) with
    | some e => go e fun x => { x with dacc := { x.dacc with untracked := true } }
    | none => .range
  else if w.ldg = 1 then
    match t.now.srcCtd i w.src1 with
    | some a =>
      match t.now.engAt i w (immOk w 0x1F) a.pset a.level .chain with
      | some e =>
        match trackShadow e.c.ps (t.tilesAt i).dacc.shadow a b with
        | some sh => go e fun x => { x with dacc := { x.dacc with shadow := some sh } }
        | none => .range
      | none => .range
    | none => .range
  else .range

/-- WB of a DRD in Q16.16 (R139): L2W − WS, or −128 for WSUM 0. -/
def drdBound (sh : Shadow) : Int :=
  if sh.wsum = 0 then -128 * 65536 else (clog2 (sh.wsum ^ 256) : Int) * 256 - sh.ws * 65536

/-- The descriptor a DRD's ledger row starts from (R139). -/
def Shadow.ctd (sh : Shadow) : Ctd :=
  { sh.src with scale := sh.scaleMax, noise := sh.noise, mbound := sh.mbound, ovr := sh.ovr, comp := 2, ntt := true }

/-- The step of a DRD: the limb of each polynomial, reduced; DACC, its count and its shadow zeroed. -/
def drdStep (e : Eng) (tl : Nat × Limb) : EStep s where
  reads := []
  writes := (if e.n = 2 ^ 17 then [0] else [0, 1]).map fun p => e.wr e.r0 p tl.1
  compute := fun x _ =>
    let v := padTo (2 * e.n) (x.dacc.entries.map (· % tl.2.q))
    ({ x with dacc := {} }, if e.n = 2 ^ 17 then [v.take e.n] else [v.take e.n, v.drop e.n])

/-- DRD: raw, or with LDG 1 the plaintext multiply by narrow weights (R139). -/
def drdPlan (i : Nat) (w : NInstr) (t : Tx s) : Plan s :=
  let d := (t.tilesAt i).dacc
  if w.ldg = 0 then
    match t.now.rawEng i w 0 (rawBasis w) with
    | some e => match e.limbs with
      | [tl] => e.plain [drdStep e tl]
      | _ => .range
    | none => .range
  else if w.ldg = 1 then
    match d.shadow with
    | some sh =>
      let a := sh.ctd
      match t.now.engAt i w (immOk w 0 && !d.untracked) a.pset a.level .chain with
      | some e => match e.limbs with
        | [tl] =>
          let o := ledger e.c (.weights (sh.ws * 65536) (drdBound sh)) [a] { maxMbound := sh.wsum = 2 ^ 64 - 1 }
          ledgerPlan t i 1 w.dst o a.pset fun u => .run u [drdStep e tl] e.mont
        | _ => .range
      | none => .range
    | none => .range
  else .range

/-! ### The integer domain (R141 to R144) -/

/-- Signed activations of a vector: `n` elements, INT4 low nibble first or INT8 (R141). -/
def activations (int8 : Bool) (n : Nat) (ws : List Nat) : List Int :=
  let bs := wordsBytes ws
  if int8 then (bs.take n).map fun b => signed b.toNat 8
  else ((bs.flatMap fun b => [signed (b.toNat % 16) 4, signed (b.toNat / 16) 4]).take n)

/-- Sums of products over consecutive chunks of 32 elements. -/
def chunkSums : Nat → List Int → List Int → List Int
  | 0, _, _ => []
  | k + 1, a, w => (((a.take 32).zip (w.take 32)).map fun p => p.1 * p.2).sum :: chunkSums k (a.drop 32) (w.drop 32)

/-- An entry and what its additions did: clamps, and whether a result was not finite. -/
structure IAdd where
  v : Nat
  clamps : Nat := 0
  bad : Bool := false
  deriving DecidableEq, Repr

/-- Add one chunk sum in INT32 mode (R142). -/
def addInt (e : IAdd) (c : Int) : IAdd :=
  let v := signed e.v 32 + c
  if v < -0x80000000 then { e with v := 0x80000000, clamps := e.clamps + 1 }
  else if 0x7FFFFFFF < v then { e with v := 0x7FFFFFFF, clamps := e.clamps + 1 }
  else { e with v := encodeSigned v 32 }

/-- Add one scaled chunk sum in FP32 mode (R143). -/
def addFp (e : IAdd) (c u : Int) : IAdd :=
  let x := (fmt32.round .even (c < 0) c.natAbs u).1
  let r := fmt32.encode .even (fAdd .even (fmt32.decode e.v) (fmt32.decode x)).1
  { e with v := r.1, bad := e.bad || bits r.1 30 23 = 255 }

/-- A decoded weight row: values and exponents over all its blocks. -/
def rowBlocks (blocks : List WBlock) (rows cols r : Nat) : List Int × List Int :=
  let bs := (List.range cols).map fun c => blocks.getD (c * rows + r) ⟨[], [], 0⟩
  (bs.flatMap (·.vals), bs.flatMap (·.us))

/-- IACC after a DIMM (R141 to R143): the entries, each with what its additions did. -/
def dimmEntries (fp : Bool) (old : List Nat) (vecs : List (List Int)) (blocks : List WBlock) (rows cols : Nat) : List IAdd :=
  (List.range 512).map fun k =>
    let e : IAdd := { v := old.getD k 0 }
    if k / 32 < vecs.length ∧ k % 32 < rows then
      let w := rowBlocks blocks rows cols (k % 32)
      let cs := chunkSums (8 * cols) (vecs.getD (k / 32) []) w.1
      if fp then (cs.zipIdx.foldl (fun e c => addFp e c.1 (w.2.getD (32 * c.2) 0)) e) else cs.foldl addInt e
    else e

/-- Count clamps and set SAT (R142, R143, R144). -/
def Tx.saturate (t : Tx s) (i clamps : Nat) (bad : Bool) : Tx s :=
  if clamps = 0 && !bad then t else (t.bump TILE.DMKCNT.SATCNT clamps i).setFld TILE.DMKSTAT.SAT 1 i

/-- DIMM: vectors at REF1 (stride LSTRIDE), weights at REF2 (R141; log entry 21). -/
def dimmPlan (i : Nat) (w : NInstr) (t : Tx s) : Plan s :=
  let o := opWord w
  let fp := bit w.imm 2
  let int8 := bit w.imm 3
  let nv := bits w.imm 8 4 + 1
  let nr := bits w.imm 13 9 + 1
  let cols := bits w.imm 26 14 + 1
  let mode := (t.tilesAt i).iacc.mode
  match (t.tilesAt i).wslots.find? (·.1 = bits w.imm 1 0), refOpnd o.ref0, refOpnd o.ref1, refOpnd o.ref2 with
  | some (_, d), some _, some (.spad av), some src =>
    if w.ldg ≠ 0 || bits w.a 35 27 ≠ 0 || o.resv ≠ 0 || 16 < nv || !d.order || (!fp && d.fmt = 5) ||
        (mode ≠ 0 && mode ≠ (if fp then 2 else 1)) then .range
    else
      let aw := if int8 then 64 * cols else 32 * cols
      let nb := nr * cols
      let dec (ws : List (List Nat)) := ((blocksOf d nb (ws.getD nv [])).mapM (decodeBlock d.fmt d.esc))
      let res (x : Tile) (ws : List (List Nat)) : List IAdd :=
        dimmEntries fp x.iacc.entries ((ws.take nv).map (activations int8 (256 * cols))) ((dec ws).getD []) nr cols
      .run id [{
        reads := (List.range nv).map (fun v => (.spad (av + v * o.lstride * 64), aw, 0)) ++
          [(src, blockWords d nb, 0)]
        writes := []
        check := fun _ ws =>
          match dec ws with
          | some bs => if !fp && bs.any fun b => b.us.any (· ≠ 0) then some .RANGE else none
          | none => some .RANGE
        note := fun x ws t =>
          match dec ws with
          | some bs =>
            if !fp && bs.any fun b => b.us.any (· ≠ 0) then t
            else
              let r := res x ws
              let t := t.bump TILE.DMKENC.ESC (bs.map (·.nesc)).sum i
              let t := t.saturate i (r.map (·.clamps)).sum (r.any (·.bad))
              t.when (fp && 65536 < x.iacc.chunks + 8 * cols) (·.setFld TILE.DMKSTAT.LONG 1 i)
          | none => t
        compute := fun x ws =>
          ({ x with iacc := { mode := if fp then 2 else 1, entries := (res x ws).map (·.v)
                              chunks := x.iacc.chunks + 8 * cols } }, [])
        stop := fun x ws =>
          if t.flagEff TILE.DMKCTL.SAT_TRAP i && (res x ws).any fun e => e.clamps ≠ 0 || e.bad then some .SAT
          else none }] false
  | _, _, _, _ => .range

/-- Clamp a signed value to `n` bits: encoding, and whether it was clamped. -/
def clampTo (v : Int) (n : Nat) : Nat × Bool :=
  let hi : Int := (2 ^ (n - 1) : Nat) - 1
  if hi < v then (hi.toNat, true) else if v < -hi - 1 then (2 ^ (n - 1), true) else (encodeSigned v n, false)

/-- One IACC entry in DIRD's format: 0 INT32, 1 FP32, 2 INT8, 3 INT4; encoding, clamped?, NaN? (R144). INT32 from FP32, for which R144
names no conversion, is INT8's with SH 0, rounded half up and clamped to 32 bits: DESIGN CHOICE, log entry 66. -/
def dirdEntry (mode fmt sh v : Nat) : Nat × Bool × Bool :=
  let n := if fmt = 0 then 32 else if fmt = 2 then 8 else 4
  if mode = 2 then
    match fmt32.decode v with
    | .nan _ => (if fmt = 1 then fmt32.defaultNan else 0, false, true)
    | .inf g => if fmt = 1 then (v, false, false) else (if g then 2 ^ (n - 1) else 2 ^ (n - 1) - 1, true, false)
    | .fin g m e =>
      if fmt = 1 then (v, false, false)
      else let r := clampTo (scaleHalfUp g m e (-(sh : Int))).1 n; (r.1, r.2, false)
  else if fmt = 1 then ((fmt32.ofInt .even (signed v 32)).1, false, false)
  else
    let x := signed v 32
    let r := clampTo (if sh = 0 then x else floorI (x + (2 ^ (sh - 1) : Nat)) (2 ^ sh)) n
    (r.1, r.2, false)

/-- Pack elements of `k` bits into 32-bit words, element 0 lowest. -/
def packElems (k : Nat) : Nat → List Nat → List Nat
  | 0, _ => []
  | m + 1, l => ((l.take (32 / k)).zipIdx.map fun e => e.1 <<< (k * e.2)).sum :: packElems k m (l.drop (32 / k))

/-- DIRD: the 512 entries to the scratchpad, and IACC cleared (R144). -/
def dirdPlan (i : Nat) (w : NInstr) (t : Tx s) : Plan s :=
  let o := opWord w
  let fmt := bits w.imm 2 0
  let sh := bits w.imm 7 3
  match refOpnd o.ref0, refOpnd o.ref1, refOpnd o.ref2 with
  | some (.spad off), some _, some _ =>
    if w.ldg ≠ 0 || bits w.a 35 27 ≠ 0 || o.resv ≠ 0 || !immOk w 0xFF || 3 < fmt || (fmt < 2 && sh ≠ 0) then .range
    else
      let res (x : Tile) := (padTo 512 x.iacc.entries).map (dirdEntry x.iacc.mode fmt sh)
      let bad (x : Tile) := (res x).any fun e => e.2.1 || e.2.2
      let k := if fmt < 2 then 32 else if fmt = 2 then 8 else 4
      .run id [{
        reads := []
        writes := [(.spad off, 16 * k)]
        note := fun x _ t => t.saturate i ((res x).filter (·.2.1)).length (bad x)
        check := fun x _ => if t.flagEff TILE.DMKCTL.SAT_TRAP i && bad x then some .SAT else none
        compute := fun x _ => ({ x with iacc := {} }, [packElems k (16 * k) ((res x).map (·.1))]) }] false
  | _, _, _ => .range

/-- What Damask makes of an instruction, by OP (R211). -/
def damaskPlan (i op : Nat) (w : NInstr) : Tx s → Plan s :=
  match op with
  | 0x01 => dencPlan i w
  | 0x02 => dmacPlan i w
  | 0x03 => drdPlan i w
  | 0x04 => dimmPlan i w
  | 0x05 => dirdPlan i w
  | _ => fun _ => .range

/-- DENC (R133 to R135). -/
def execDenc (i : Fin 64) (d : Side) (w : NInstr) (s : State) : Host.Outcome State Fault Refusal :=
  done ((begin s).issueEngine i unitDamask 0x01 d w (damaskPlan i 0x01 w))

/-- DMAC (R136 to R138, R140). -/
def execDmac (i : Fin 64) (d : Side) (w : NInstr) (s : State) : Host.Outcome State Fault Refusal :=
  done ((begin s).issueEngine i unitDamask 0x02 d w (damaskPlan i 0x02 w))

/-- DRD (R139). -/
def execDrd (i : Fin 64) (d : Side) (w : NInstr) (s : State) : Host.Outcome State Fault Refusal :=
  done ((begin s).issueEngine i unitDamask 0x03 d w (damaskPlan i 0x03 w))

/-- DIMM (R141 to R143). -/
def execDimm (i : Fin 64) (d : Side) (w : NInstr) (s : State) : Host.Outcome State Fault Refusal :=
  done ((begin s).issueEngine i unitDamask 0x04 d w (damaskPlan i 0x04 w))

/-- DIRD (R144). -/
def execDird (i : Fin 64) (d : Side) (w : NInstr) (s : State) : Host.Outcome State Fault Refusal :=
  done ((begin s).issueEngine i unitDamask 0x05 d w (damaskPlan i 0x05 w))

end Sys2Proof.Machine
end

