-- ==== Sys2Proof/Machine/Slots.lean ====
section
/-!
DEFINITION. SLOTENC and SLOTDEC (R190, R191): the exact sums of R190 in fixed point, their error bounds, and results that are free
within the bounds (log entry 2).
-/

namespace Sys2Proof.Machine

variable {s : State}

/-! ### Cosines in fixed point, 160 fraction bits -/

/-- The value 1. -/
def fixOne : Int := 2 ^ 160

/-- Alternating series of arctan 1/`k`: `t` is the power of 1/k, `d` the odd divisor; fuel bounds the terms. -/
def fixAtan (k : Nat) : Nat → Int → Nat → Int
  | 0, _, _ => 0
  | f + 1, t, d => t / (d : Int) - fixAtan k f (t / (k * k : Nat)) (d + 2)

/-- π by Machin's formula. -/
def fixPi : Int := 4 * (4 * fixAtan 5 40 (fixOne / 5) 1 - fixAtan 239 40 (fixOne / 239) 1)

/-- Taylor series of the cosine: `t` is the term of index 2k, `y` the square of the angle. -/
def fixCosSum (y : Int) : Nat → Nat → Int → Int
  | 0, _, t => t
  | f + 1, k, t => t + fixCosSum y f (k + 1) (-(t * y / fixOne) / ((2 * k + 1) * (2 * k + 2) : Nat))

/-- cos(π·r/n), r taken modulo 2n. -/
def fixCos (r n : Nat) : Int :=
  let x := fixPi * (r % (2 * n) : Nat) / (n : Int)
  fixCosSum (x * x / fixOne) 50 0 fixOne

/-- sin(π·r/n) for even n. -/
def fixSin (r n : Nat) : Int := fixCos (r + 3 * (n / 2)) n

/-! ### Values and bounds -/

/-- An FP64 encoding as an integer multiple of 2^−1074; none where it is not finite. -/
def fixVal (x : Nat) : Option Int :=
  match fmt64.decode x with
  | .fin neg m e => let v : Int := (m <<< (e + 1074).toNat : Nat); some (if neg then -v else v)
  | _ => none

/-- The FP64 encoding nearest to `a`·2^−1234/`d`, in lowest bits of 2^−1274. -/
def fixRound (a : Int) (d : Nat) : Nat := (fmt64.round .even (a < 0) ((a.natAbs <<< 40) / d) (-1274)).1

/-- 5^j mod 2n. -/
def slotPow (n j : Nat) : Nat := (List.range j).foldl (fun x _ => x * 5 % (2 * n)) (1 % (2 * n))

/-- Slots as pairs of integers; none where one is not finite. -/
def slotPairs : List Nat → Option (List (Int × Int))
  | a :: b :: r =>
    match fixVal a, fixVal b, slotPairs r with
    | some x, some y, some l => some ((x, y) :: l)
    | _, _, _ => none
  | _ => some []

/-- N/2 times the exact coefficient m_k of R190, times 2^1234. -/
def slotencSum (n : Nat) (z : List (Int × Int)) (k : Nat) : Int :=
  (z.zipIdx.map fun p =>
    let r := k * slotPow n p.2
    p.1.1 * fixCos r n + p.1.2 * fixSin r n).sum

/-- 2^1234 times the exact slot z_j of R190. -/
def slotdecSum (n : Nat) (m : List Int) (j : Nat) : Int × Int :=
  let g := slotPow n j
  ((m.zipIdx.map fun p => p.1 * fixCos (p.2 * g) n).sum, (m.zipIdx.map fun p => p.1 * fixSin (p.2 * g) n).sum)

/-- The error that R190 allows a value of which `z` bounds the size, less a margin for the fixed point of this file. -/
def slotErr (logn z : Nat) : Nat := (logn + 2) * z * 2 ^ 108 - z * 2 ^ 40

/-- A computed coefficient: the free one where it lies within the bound, else the nearest to the exact value. -/
def slotencPick (logn : Nat) (z : List (Int × Int)) (k x : Nat) : Nat :=
  let n := 2 ^ logn
  let h : Nat := n / 2
  let a := slotencSum n z k
  let zz := (z.map fun p => p.1.natAbs + p.2.natAbs).foldl max 0
  match fixVal x with
  | some v => if (v * fixOne * (h : Int) - a).natAbs ≤ h * slotErr logn zz then x else fixRound a h
  | none => fixRound a h

/-- A computed slot: the free one where its distance from the exact one lies within the bound, else the nearest. -/
def slotdecPick (logn : Nat) (m : List Int) (j x y : Nat) : List Nat :=
  let n := 2 ^ logn
  let a := slotdecSum n m j
  let b := slotErr logn ((m.map Int.natAbs).sum)
  let near := [fixRound a.1 1, fixRound a.2 1]
  match fixVal x, fixVal y with
  | some v, some w => if (v * fixOne - a.1) ^ 2 + (w * fixOne - a.2) ^ 2 ≤ (b : Int) ^ 2 then [x, y] else near
  | _, _ => near

/-- Consecutive words as FP64 encodings. -/
def wordPairs : List Nat → List Nat
  | a :: b :: r => (a % 2 ^ 32 + b % 2 ^ 32 <<< 32) :: wordPairs r
  | _ => []

/-- FP64 encodings as words. -/
def pairWords (l : List Nat) : List Nat := l.flatMap fun x => [x % 2 ^ 32, x >>> 32]

/-- The words SLOTENC writes: bits that are a function of LOGN and the input (R191), within the bound of R190. -/
def slotencWords (logn : Nat) (ws : List Nat) : List Nat :=
  match slotPairs (wordPairs ws) with
  | none => []
  | some z =>
    let free := wordPairs (Config.slotenc logn ws)
    pairWords ((List.range (2 ^ logn)).map fun k => slotencPick logn z k (free.getD k 0))

/-- The words SLOTDEC writes; of coefficients that are not all finite R190 states nothing, and they are free. -/
def slotdecWords (logn : Nat) (ws : List Nat) : List Nat :=
  let n := 2 ^ logn
  let free := wordPairs (Config.slotdec logn ws)
  match (wordPairs ws).mapM fixVal with
  | none => pairWords ((List.range n).map fun k => free.getD k 0)
  | some m => pairWords ((List.range (n / 2)).flatMap fun j => slotdecPick logn m j (free.getD (2 * j) 0) (free.getD (2 * j + 1) 0))

end Sys2Proof.Machine
end

