-- ==== Sys2Proof/Machine/Percale.lean ====
section
/-!
DEFINITION. Percale (ch. 08): tile registers and operand cache (R172, R173), element operations in register and stream
form (R177, R178), floating point (R182 to R186), encoding and decoding (R187 to R191), ciphertext operations (R179 to
R181), transposes (R192).
-/

namespace Sys2Proof.Machine

variable {s : State}

/-- UNIT code of Percale (R203). -/
def unitPercale : Nat := 4

/-! ### Forms -/

/-- A register reference (R207). -/
def trRef (r : Nat) : Option Nat := if r < 32 then some r else none

/-- The operand word of a register form: destination, first and second source; none where R214 refuses. -/
def regRefs (w : NInstr) : Option (Nat × Nat × Nat) :=
  let o := opWord w
  if o.lstride = 0 ∧ o.pstride = 0 ∧ o.limb0 = 0 ∧ o.nlimb = 0 ∧ o.resv = 0 then
    match trRef o.ref0, trRef o.ref1, trRef o.ref2 with
    | some a, some b, some c => some (a, b, c)
    | _, _, _ => none
  else none

/-- The prime a register form names: index [43:36] within the basis of a live set (R208). -/
def State.regPrime (s : State) (w : NInstr) (k : Nat) : Option Limb :=
  let c := s.psetCtx w.pset
  if !c.ps.live then none
  else if w.basis = 1 then (if k < c.ps.numP then some ⟨k, c.p.getD k 1, c.pmont.getD k false, 0⟩ else none)
  else if k < c.ps.numQ then some ⟨k, c.q.getD k 1, c.mont.getD k false, 0⟩
  else none

/-- Set PCLFLAGS bits and count an instruction that raised NV (R182, R194). -/
def Tx.pclFlags (t : Tx s) (i fl : Nat) : Tx s :=
  if fl = 0 then t
  else
    let a := TILE.PCLFLAGS.NX.addr i 0
    (t.putRegs a (t.regsAt a ||| BitVec.ofNat 32 fl)).when (bit fl 3) (·.bump TILE.PCLCNT.NVCNT 1 i)

/-- Does an instruction that raises these flags stop with RANGE (R194)? -/
def Tx.nvStops (t : Tx s) (i fl : Nat) : Option Status :=
  if bit fl 3 && t.flagEff TILE.PCLCTL.NV_TRAP i then some .RANGE else none

/-- The rounding attribute in effect. -/
def Tx.rm (t : Tx s) (i : Nat) : Rm := rmOf (t.fldEff TILE.PCLCTL.RM i)

/-! ### Integer and modular element operations (R177, R178) -/

/-- An element operation of both forms: IMM bits it uses, sources, whether REF0 is read as a mask, whether its prime is
resolved and its words are residues, result, and PCLFLAGS bits. -/
structure PclOp where
  used : Nat := 0
  srcs : Nat := 2
  mask : Bool := false
  prime : Bool := false
  residues : Bool := false
  legal : Bool := true
  f : Nat → List (List Nat) → List Nat
  flags : List (List Nat) → Nat := fun _ => 0

/-- One step of an element operation. -/
def pclStep (i q : Nat) (op : PclOp) (d a b : Opnd) (n : Nat) : EStep s where
  reads := ((if op.srcs = 1 then [a] else [a, b]) ++ (if op.mask then [d] else [])).map
    fun r => (r, n, if op.residues then q else 0)
  writes := [(d, n)]
  compute := fun x ws => (x, [op.f q ws])
  note := fun _ ws t => t.pclFlags i (op.flags ws)

/-- An element operation in the form its form bit selects; `opaOk` says that the OPA bits outside the form bit are
legal. -/
def pclForm (i : Nat) (w : NInstr) (op : PclOp) (regForm opaOk : Bool) (t : Tx s) : Plan s :=
  if w.ldg ≠ 0 || !opaOk || !op.legal then .range
  else if regForm then
    match regRefs w with
    | some (d, a, b) =>
      if op.prime then
        match t.now.regPrime w w.level with
        | some l => .run id [pclStep i l.q op (.tr d) (.tr a) (.tr b) 256] l.mont
        | none => .range
      else .run id [pclStep i 0 op (.tr d) (.tr a) (.tr b) 256] false
    | none => .range
  else
    match t.now.engAt i w true w.pset w.level (rawBasis w) with
    | some e =>
      if op.mask && e.r0.isQueue then .range
      else .run id (e.limbs.map fun tl =>
        pclStep i tl.2.q op (opndAt e.o e.r0 0 tl.1) (opndAt e.o e.r1 0 tl.1) (opndAt e.o e.r2 0 tl.1) e.n)
        (op.prime && e.mont)
    | none => .range

/-- An element operation with the ordinary OPA layout. -/
def pclElem (i : Nat) (w : NInstr) (op : PclOp) (t : Tx s) : Plan s :=
  pclForm i w op (bit w.imm 26) (bits w.a 35 27 = 0 && immOk w (op.used + 2 ^ 26)) t

/-- Element-wise map of two sources. -/
def zip2 (f : Nat → Nat → Nat) (ws : List (List Nat)) : List Nat :=
  ((ws.getD 0 []).zip (ws.getD 1 [])).map fun p => f p.1 p.2

/-- Element-wise map of one source. -/
def map1 (f : Nat → Nat) (ws : List (List Nat)) : List Nat := (ws.getD 0 []).map f

/-- A two-source integer operation. -/
def intOp (f : Nat → Nat → Nat) : PclOp := { f := fun _ => zip2 f }

/-- Signed value of a 32-bit word. -/
def i32 (x : Nat) : Int := signed x 32

/-- A saturating operation: `v` exact, clamped to the signed or unsigned range; ISAT where any element saturates. -/
def satOp (uns : Bool) (v : Int → Int → Int) : PclOp :=
  let val (x : Nat) : Int := if uns then (x : Int) else i32 x
  let lo : Int := if uns then 0 else -0x80000000
  let hi : Int := if uns then 0xFFFFFFFF else 0x7FFFFFFF
  { f := fun _ => zip2 fun a b => let r := v (val a) (val b); encodeSigned (if r < lo then lo else if hi < r then hi else r) 32
    flags := fun ws =>
      if ((ws.getD 0 []).zip (ws.getD 1 [])).any fun p => let r := v (val p.1) (val p.2); decide (r < lo ∨ hi < r)
      then fISAT else 0 }

/-- A shift by the count of IMM [11:6] (R178). -/
def shiftOp (w : NInstr) (f : Nat → Nat → Nat) : PclOp :=
  let n := bits w.imm 11 6
  { used := 0xFC0, srcs := 1, legal := n < 32, f := fun _ => map1 (f · n) }

/-- CMP conditions (log entry 22): 0 to 5 are EQ, NE, LT, LE, GE, GT. -/
def cond6 (c : Nat) (lt eq : Bool) : Bool :=
  match c with
  | 0 => eq
  | 1 => !eq
  | 2 => lt
  | 3 => lt || eq
  | 4 => !lt
  | _ => !lt && !eq

/-- CMP: 0 to 5 signed, 8 to 13 unsigned (log entry 22). -/
def cmpOp (w : NInstr) : PclOp :=
  let c := bits w.imm 3 0
  { used := 0xF, legal := c % 8 < 6
    f := fun _ => zip2 fun a b =>
      if cond6 (c % 8) (if c < 8 then i32 a < i32 b else a < b) (a = b) then 0xFFFFFFFF else 0 }

/-- SEL: by bit 31 of the mask element, the destination's contents (log entry 22). -/
def selOp : PclOp :=
  { mask := true
    f := fun _ ws => (((ws.getD 0 []).zip (ws.getD 1 [])).zip (ws.getD 2 [])).map fun p =>
      if bit p.2 31 then p.1.1 else p.1.2 }

/-- A modular operation on residues. -/
def modOp (srcs : Nat) (f : Nat → List (List Nat) → List Nat) : PclOp :=
  { srcs := srcs, prime := true, residues := true, f := f }

/-! ### Floating point, register form only (R172, R182 to R186) -/

/-- The format of a 2-bit code. -/
def fmtOf (c : Nat) : Fmt := if c = 0 then fmt32 else if c = 1 then fmt16 else if c = 2 then fmtBf else fmt64

/-- The registers that hold an operand of a format: one, or an even pair; none for an odd FP64 register. -/
def fpRegs (f : Fmt) (k : Nat) : Option (List Nat) :=
  if f.width = 64 then (if k % 2 = 0 then some [k, k + 1] else none) else some [k]

/-- Element encodings of an operand's registers. -/
def fpElems (f : Fmt) (ws : List (List Nat)) : List Nat :=
  if f.width = 64 then ((ws.getD 0 []).zip (ws.getD 1 [])).map fun p => p.1 + p.2 <<< 32
  else (ws.getD 0 []).map (· % 2 ^ f.width)

/-- Register images of element encodings. -/
def fpImages (f : Fmt) (xs : List Nat) : List (List Nat) :=
  if f.width = 64 then [xs.map (· % 2 ^ 32), xs.map (· >>> 32)] else [xs]

/-- Split the words of sources that have the given numbers of registers. -/
def splitSrcs : List Nat → List (List Nat) → List (List (List Nat))
  | [], _ => []
  | n :: ns, ws => ws.take n :: splitSrcs ns (ws.drop n)

/-- OR of flags. -/
def orAll (l : List Nat) : Nat := l.foldl (· ||| ·) 0

/-- A register-form step on floating-point elements: source formats and registers, destination registers, and the
operation giving per element an encoding and flags. -/
def fpStep (i : Nat) (t : Tx s) (srcs : List (Fmt × List Nat)) (dst : List Nat)
    (img : List Nat → List (List Nat)) (f : List Nat → Nat × Nat) : EStep s :=
  let run (ws : List (List Nat)) : List (Nat × Nat) :=
    let es := ((srcs.zip (splitSrcs (srcs.map (·.2.length)) ws)).map fun p => fpElems p.1.1 p.2)
    (List.range 256).map fun k => f (es.map (·.getD k 0))
  let fl (ws : List (List Nat)) := orAll ((run ws).map (·.2))
  { reads := (srcs.flatMap (·.2)).map fun k => (.tr k, 256, 0)
    writes := dst.map fun k => (.tr k, 256)
    compute := fun x ws => (x, img ((run ws).map (·.1)))
    note := fun _ ws u => u.pclFlags i (fl ws)
    check := fun _ ws => t.nvStops i (fl ws) }

/-- An FP operation: REF1, REF2 and for FMA IMM [25:21] as sources, REF0 as destination, all of one format. -/
def fpPlan (i : Nat) (w : NInstr) (used nsrc : Nat) (f : Fmt → Rm → List Nat → Nat × Nat) (t : Tx s) : Plan s :=
  let g := fmtOf (bits w.imm 1 0)
  match regRefs w with
  | some (d, a, b) =>
    match fpRegs g d, fpRegs g a, fpRegs g b, fpRegs g (if nsrc = 3 then bits w.imm 25 21 else 0) with
    | some dr, some ar, some br, some cr =>
      if w.ldg ≠ 0 || bits w.a 35 27 ≠ 0 || !immOk w (used + 2 ^ 26 + 3) || !bit w.imm 26 then .range
      else .run id [fpStep i t (([(g, ar), (g, br), (g, cr)] : List (Fmt × List Nat)).take nsrc) dr (fpImages g)
        (f g (t.rm i))] false
    | _, _, _, _ => .range
  | none => .range

/-- Round an exact result and join the flags. -/
def finish (g : Fmt) (rm : Rm) (r : FVal × Nat) : Nat × Nat :=
  let e := g.encode rm r.1
  (e.1, e.2 ||| r.2)

/-- Operand `k` of a list, decoded. -/
def opd (g : Fmt) (xs : List Nat) (k : Nat) : FVal := g.decode (xs.getD k 0)

/-- FCMP: a mask register; comparisons are quiet (R183; log entry 22). -/
def fcmpPlan (i : Nat) (w : NInstr) (t : Tx s) : Plan s :=
  let g := fmtOf (bits w.imm 1 0)
  let c := bits w.imm 5 2
  match regRefs w with
  | some (d, a, b) =>
    match fpRegs g a, fpRegs g b with
    | some ar, some br =>
      if w.ldg ≠ 0 || bits w.a 35 27 ≠ 0 || !immOk w (2 ^ 26 + 0x3F) || !bit w.imm 26 || 5 < c then .range
      else .run id [fpStep i t [(g, ar), (g, br)] [d] (fun xs => [xs]) fun xs =>
        let u := opd g xs 0
        let v := opd g xs 1
        let un := u.isNan || v.isNan
        ((if (if un then decide (c = 1) else cond6 c (fLt u v) (fEq u v)) then 0xFFFFFFFF else 0), sigFlag u ||| sigFlag v)]
        false
    | _, _ => .range
  | none => .range

/-- CVT among FP32, FP16, BF16, FP64 and INT32 (R182, R184, R185). -/
def cvtPlan (i : Nat) (w : NInstr) (t : Tx s) : Plan s :=
  let cf := bits w.imm 2 0
  let ct := bits w.imm 5 3
  let int : Fmt := ⟨24, 127, 32⟩
  let ff := if cf = 4 then int else fmtOf cf
  let ft := if ct = 4 then int else fmtOf ct
  match regRefs w with
  | some (d, a, _) =>
    match fpRegs ft d, fpRegs ff a with
    | some dr, some ar =>
      if w.ldg ≠ 0 || bits w.a 35 27 ≠ 0 || !immOk w (2 ^ 26 + 0x3F) || !bit w.imm 26 || 4 < cf || 4 < ct then .range
      else
        let rm := t.rm i
        .run id [fpStep i t [(ff, ar)] dr (fpImages ft) fun xs =>
          let x := xs.getD 0 0
          if cf = 4 then (if ct = 4 then (x, 0) else ft.ofInt rm (i32 x))
          else if ct = 4 then ff.toInt32 rm x else ff.convert ft rm x] false
    | _, _ => .range
  | none => .range

/-! ### Encoding and decoding (R187 to R191) -/

/-- Words per value in stream form: FP64 takes two, every other format one. -/
def streamWords (g : Fmt) (n : Nat) : Nat := if g.width = 64 then 2 * n else n

/-- Values of a stream-form source. -/
def streamVals (g : Fmt) : List Nat → List Nat
  | a :: b :: r => if g.width = 64 then (a + b <<< 32) :: streamVals g r
      else a % 2 ^ g.width :: b % 2 ^ g.width :: streamVals g r
  | [a] => [a % 2 ^ g.width]
  | [] => []

/-- Words of stream-form values. -/
def valsStream (g : Fmt) (xs : List Nat) : List Nat :=
  if g.width = 64 then xs.flatMap fun x => [x % 2 ^ 32, x >>> 32] else xs

/-- FENC of a list: integers and flags. -/
def fencAll (g : Fmt) (e : Int) (xs : List Nat) : List Int × Nat :=
  let r := xs.map (g.fenc e)
  (r.map (·.1), orAll (r.map (·.2)))

/-- FENC: register form to one residue register, stream form to every limb j ≤ LEVEL of the tile and a PBR (R180, R187). Limbs that go
to an outbound queue leave the PBR valid with no range written: DEDUCED, log entry 66. -/
def fencPlan (i : Nat) (w : NInstr) (t : Tx s) : Plan s :=
  let g := fmtOf (bits w.imm 1 0)
  let e := signed (bits w.imm 13 2) 12
  let pb := bits w.imm 15 14
  if w.ldg ≠ 0 || bits w.a 35 27 ≠ 0 || !immOk w (2 ^ 26 + 0xFFFF) then .range
  else if bit w.imm 26 then
    match regRefs w, t.now.regPrime w w.level with
    | some (d, a, _), some l =>
      match fpRegs g a with
      | some ar =>
        if pb ≠ 0 then .range
        else .run id [fpStep i t [(g, ar)] [d] (fun xs => [xs]) fun xs =>
          let r := g.fenc e (xs.getD 0 0)
          (fromInt r.1 l.q, r.2)] l.mont
      | none => .range
    | _, _ => .range
  else
    let o := opWord w
    let c := t.now.psetCtx w.pset
    let n := c.ps.n
    match refOpnd o.ref0, refOpnd o.ref1, refOpnd o.ref2 with
    | some dst, some src, some _ =>
      if !c.ps.live || c.ps.numQ ≤ w.level || o.resv ≠ 0 || w.basis = 1 then .range
      else
        let ls := tileLimbs c w.level .chain (i % 8)
        let r (ws : List (List Nat)) := fencAll g e (streamVals g (ws.getD 0 []))
        .run id [{
          reads := [(src, streamWords g n, 0)]
          writes := ls.zipIdx.map fun lt => (opndAt o dst 0 lt.2, n)
          note := fun _ ws u => u.pclFlags i (r ws).2
          check := fun _ ws => t.nvStops i (r ws).2
          compute := fun x ws =>
            let p := mapGet {} x.pbrs pb
            let p : Pbr := { mp := p.mp, valid := true, e := e, pset := w.pset, level := w.level, off := dst.spadOff,
                             stride := o.lstride * 64, limbs := if dst.isQueue then 0 else ls.length }
            ({ x with pbrs := mapPut {} x.pbrs pb p }, ls.map fun l => (r ws).1.map (fromInt · l.q)) }] (ls.any (·.mont))
    | _, _, _ => .range

/-- FDEC: the centred lift of residues times 2^−e (R188). -/
def fdecPlan (i : Nat) (w : NInstr) (t : Tx s) : Plan s :=
  let g := fmtOf (bits w.imm 1 0)
  let e := signed (bits w.imm 13 2) 12
  let rm := t.rm i
  let dec (q : Nat) (ws : List Nat) := ws.map fun r => g.fdec rm e (centred (r % q) q)
  let step (q : Nat) (src : Opnd) (n : Nat) (dst : List (Opnd × Nat)) (img : List Nat → List (List Nat)) : EStep s :=
    { reads := [(src, n, q)], writes := dst
      note := fun _ ws u => u.pclFlags i (orAll ((dec q (ws.getD 0 [])).map (·.2)))
      compute := fun x ws => (x, img ((dec q (ws.getD 0 [])).map (·.1))) }
  if w.ldg ≠ 0 || bits w.a 35 27 ≠ 0 || !immOk w (2 ^ 26 + 0x3FFF) then .range
  else if bit w.imm 26 then
    match regRefs w, t.now.regPrime w w.level with
    | some (d, a, _), some l =>
      match fpRegs g d with
      | some dr => .run id [step l.q (.tr a) 256 (dr.map fun k => (.tr k, 256)) (fpImages g)] l.mont
      | none => .range
    | _, _ => .range
  else
    match t.now.engAt i w true w.pset w.level (rawBasis w) with
    | some x => .run id (x.limbs.map fun tl =>
        step tl.2.q (opndAt x.o x.r1 0 tl.1) x.n [(opndAt x.o x.r0 0 tl.1, streamWords g x.n)]
          fun xs => [valsStream g xs]) x.mont
    | none => .range

/-- The integer of R189: congruent to both residues, centred modulo qa·qb. -/
def crt2 (qa qb ra rb : Nat) : Int :=
  let v := ra % qa * qb * invMod qb qa + rb % qb * qa * invMod qa qb
  centred (v % (qa * qb)) (qa * qb)

/-- FDEC2 (R189): register form with the primes of indices [43:36] and the next one; stream form with two named limbs,
the first read through REF1 and the second through REF2 (log entry 23). -/
def fdec2Plan (i : Nat) (w : NInstr) (t : Tx s) : Plan s :=
  let g := fmtOf (bits w.imm 1 0)
  let e := signed (bits w.imm 13 2) 12
  let rm := t.rm i
  let dec (qa qb : Nat) (ws : List (List Nat)) :=
    ((ws.getD 0 []).zip (ws.getD 1 [])).map fun p => g.fdec rm e (crt2 qa qb p.1 p.2)
  let step (qa qb : Nat) (a b : Opnd) (n : Nat) (dst : List (Opnd × Nat)) (img : List Nat → List (List Nat)) : EStep s :=
    { reads := [(a, n, qa), (b, n, qb)], writes := dst
      note := fun _ ws u => u.pclFlags i (orAll ((dec qa qb ws).map (·.2)))
      compute := fun x ws => (x, img ((dec qa qb ws).map (·.1))) }
  if w.ldg ≠ 0 || bits w.a 35 27 ≠ 0 || !immOk w (2 ^ 26 + 0x3FFF) then .range
  else if bit w.imm 26 then
    match regRefs w, t.now.regPrime w w.level, t.now.regPrime w (w.level + 1) with
    | some (d, a, b), some la, some lb =>
      match fpRegs g d with
      | some dr =>
        if la.q = lb.q then .range
        else .run id [step la.q lb.q (.tr a) (.tr b) 256 (dr.map fun k => (.tr k, 256)) (fpImages g)] (la.mont || lb.mont)
      | none => .range
    | _, _, _ => .range
  else
    match t.now.engAt i w true w.pset w.level (rawBasis w) with
    | some x =>
      match x.limbs with
      | [a, b] =>
        if a.2.q = b.2.q then .range
        else .run id [step a.2.q b.2.q (opndAt x.o x.r1 0 a.1) (opndAt x.o x.r2 0 b.1) x.n
          [(opndAt x.o x.r0 0 a.1, streamWords g x.n)] fun xs => [valsStream g xs]] x.mont
      | _ => .range
    | none => .range

/-- |Re| + |Im| of a slot as a dyadic number (mantissa, exponent); none where it is not finite. -/
def slotMag (re im : FVal) : Option (Nat × Int) :=
  match re, im with
  | .fin _ m1 e1, .fin _ m2 e2 =>
    let k := min e1 e2
    some (m1 <<< (e1 - k).toNat + m2 <<< (e2 - k).toNat, k)
  | _, _ => none

/-- The larger of two dyadic numbers. -/
def maxDyadic (a b : Nat × Int) : Nat × Int :=
  let k := min a.2 b.2
  if a.1 <<< (a.2 - k).toNat < b.1 <<< (b.2 - k).toNat then b else a

/-- Magnitudes of consecutive FP64 pairs; none where a slot is not finite (R190). -/
def slotMags : List Nat → Option (List (Nat × Int))
  | a :: b :: r =>
    match slotMag (fmt64.decode a) (fmt64.decode b), slotMags r with
    | some m, some l => some (m :: l)
    | _, _ => none
  | _ => some []

/-- MP of a SLOTENC: log2 Z rounded up to Q8.8, −128 for Z = 0; free where it does not fit (R190; log entry 2). -/
def slotMp (ws : List Nat) (mags : List (Nat × Int)) : Int :=
  let z := mags.foldl maxDyadic (0, 0)
  if z.1 = 0 then -0x8000
  else
    let v := 256 * z.2 + (clog2 (z.1 ^ 256) : Nat)
    if -0x8000 ≤ v ∧ v ≤ 0x7FFF then v else Config.slotencMp ws

/-- SLOTENC (R190): N/2 slots at REF1 to N coefficients at REF0, and MP of a PBR. -/
def slotencPlan (i : Nat) (w : NInstr) (t : Tx s) : Plan s :=
  let o := opWord w
  let c := t.now.psetCtx w.pset
  match refOpnd o.ref0, refOpnd o.ref1, refOpnd o.ref2 with
  | some d, some a, some _ =>
    if w.ldg ≠ 0 || bits w.a 35 27 ≠ 0 || !immOk w 3 || o.resv ≠ 0 || !c.ps.live then .range
    else .run id [{
      reads := [(a, 2 * c.ps.n, 0)], writes := [(d, 2 * c.ps.n)]
      check := fun _ ws => if (slotMags (streamVals fmt64 (ws.getD 0 []))).isNone then some .RANGE else none
      compute := fun x ws =>
        let v := ws.getD 0 []
        let pb := bits w.imm 1 0
        let mp := slotMp v ((slotMags (streamVals fmt64 v)).getD [])
        ({ x with pbrs := mapPut {} x.pbrs pb { mapGet {} x.pbrs pb with mp := mp } },
         [slotencWords c.ps.logn v]) }] false
  | _, _, _ => .range

/-- SLOTDEC (R190): N coefficients at REF1 to N/2 slots at REF0. -/
def slotdecPlan (i : Nat) (w : NInstr) (t : Tx s) : Plan s :=
  let o := opWord w
  let c := t.now.psetCtx w.pset
  match refOpnd o.ref0, refOpnd o.ref1, refOpnd o.ref2 with
  | some d, some a, some _ =>
    if w.ldg ≠ 0 || bits w.a 35 27 ≠ 0 || !immOk w 0 || o.resv ≠ 0 || !c.ps.live then .range
    else .run id [{
      reads := [(a, 2 * c.ps.n, 0)], writes := [(d, 2 * c.ps.n)]
      compute := fun x ws => (x, [slotdecWords c.ps.logn (ws.getD 0 [])]) }] false
  | _, _, _ => .range

/-! ### Transposes and the operand cache (R173, R192) -/

/-- The transpose of a 16 × 16 register image. -/
def transpose (ws : List Nat) : List Nat := (List.range 256).map fun k => ws.getD (16 * (k % 16) + k / 16) 0

/-- TRN (`pair` false) and TRNP (R192). -/
def trnPlan (w : NInstr) (pair : Bool) (t : Tx s) : Plan s :=
  match regRefs w with
  | some (d, a, _) =>
    if w.ldg ≠ 0 || bits w.a 35 27 ≠ 0 || !immOk w (2 ^ 26) || !bit w.imm 26 || (pair && (d % 2 = 1 || a % 2 = 1)) then .range
    else
      let ks := if pair then [0, 1] else [0]
      .run id [{
        reads := ks.map fun k => (.tr (a + k), 256, 0), writes := ks.map fun k => (.tr (d + k), 256)
        compute := fun x ws => (x, ws.map transpose) }] false
  | none => .range

/-- PLD: an operand-cache line into REF0 (R173); a poisoned line stops the tile. -/
def pldPlan (w : NInstr) (t : Tx s) : Plan s :=
  match regRefs w with
  | some (d, _, _) =>
    if w.ldg ≠ 0 || bits w.a 35 27 ≠ 0 || !immOk w (2 ^ 26 + 0x3FF) || !bit w.imm 26 then .range
    else .run id [{
      reads := [], writes := [(.tr d, 256)]
      check := fun x _ => if x.ocBad.contains (bits w.imm 9 0) then some .POISON else none
      compute := fun x _ => (x, [x.ocLine (bits w.imm 9 0)]) }] false
  | none => .range

/-- PST: REF1 into an operand-cache line (R173). -/
def pstPlan (w : NInstr) (t : Tx s) : Plan s :=
  match regRefs w with
  | some (_, a, _) =>
    if w.ldg ≠ 0 || bits w.a 35 27 ≠ 0 || !immOk w (2 ^ 26 + 0x3FF) || !bit w.imm 26 then .range
    else .run id [{
      reads := [(.tr a, 256, 0)], writes := []
      compute := fun x ws =>
        let k := bits w.imm 9 0
        ({ x with ocache := mapPut (List.replicate 256 0) x.ocache k (ws.getD 0 [])
                  ocBad := x.ocBad.filter (· ≠ k) }, []) }] false
  | none => .range

/-! ### Ciphertext operations (R179 to R181) -/

/-- CADD and CSUB: the raw modular operation, or LDG 1 with its ledger update. -/
def caddPlan (i : Nat) (w : NInstr) (f : Nat → Nat → Nat → Nat) (t : Tx s) : Plan s :=
  let g (l : Limb) (a b : List Nat) := (a.zip b).map fun p => f l.q p.1 p.2
  if w.ldg = 0 then
    match t.now.rawEng i w 0 (rawBasis w) with
    | some e => e.plain (e.binary g)
    | none => .range
  else if w.ldg = 1 then
    match t.now.srcCtd i w.src1, t.now.srcCtd i w.src2 with
    | some a, some b =>
      match t.now.engAt i w (immOk w 0 && a.ntt = b.ntt && a.comp = b.comp) a.pset a.level .chain with
      | some e => ledgerPlan t i 1 w.dst (ledger e.c .add [a, b] {}) a.pset fun u => .run u (e.binary g) e.mont
      | none => .range
    | _, _ => .range
  else .range

/-- Does the plaintext limb at `off` lie in the range a PBR recorded (R180)? -/
def Pbr.holds (b : Pbr) (off n : Nat) : Bool :=
  b.valid && 0 < b.limbs && b.off ≤ off && off + 4 * n ≤ b.off + (b.limbs - 1) * b.stride + 4 * n

/-- PADD: REF1 (the first polynomial) plus the plaintext at REF2; LDG 2 with the checks of R180. -/
def paddPlan (i : Nat) (w : NInstr) (t : Tx s) : Plan s :=
  let g (l : Limb) (a b : List Nat) := (a.zip b).map fun p => modAdd l.q p.1 p.2
  if w.ldg = 0 then
    match t.now.rawEng i w 3 (rawBasis w) with
    | some e => e.plain (e.binary g)
    | none => .range
  else if w.ldg = 2 then
    match t.now.srcCtd i w.src1 with
    | some a =>
      let b := mapGet {} (t.tilesAt i).pbrs (bits w.imm 1 0)
      match t.now.engAt i w (immOk w 3) a.pset a.level .chain with
      | some e =>
        if b.valid && b.pset = a.pset && b.level = a.level &&
            (b.e * 65536 - (a.scale : Int)).natAbs ≤ e.c.ps.scaleTol &&
            e.limbs.all (fun tl => match opndAt e.o e.r2 0 tl.1 with | .spad off => b.holds off e.n | _ => false) then
          ledgerPlan t i 2 w.dst (ledger e.c (.addPlain (b.mp * 256)) [a] {}) a.pset fun u => .run u (e.binary g) e.mont
        else .range
      | none => .range
    | none => .range
  else .range

/-- The limbs of a LDROP: the tile's limbs 0 to the target level (R181); where source and destination are the same they are named, and
checked (R214), and neither read nor written. -/
def ldropSteps (i : Nat) (c : PsetCtx) (o : OpWord) (a d : Opnd) (level target : Nat) (polys : List Nat) : List (EStep s) :=
  (tileLimbs c target .chain (i % 8)).zipIdx.flatMap fun lt => polys.map fun p =>
    if a = d && !a.isQueue then { reads := [], writes := [(opndAt o d p lt.2, c.ps.n)], compute := fun x _ => (x, []) }
    else
    { reads := [(opndAt o a p lt.2, c.ps.n, lt.1.q)], writes := [(opndAt o d p lt.2, c.ps.n)]
      compute := fun x ws => (x, [(ws.getD 0 []).map (· % lt.1.q)]) }

/-- LDROP (R181): raw on one polynomial, or LDG 3 on every polynomial with its ledger update. -/
def ldropPlan (i : Nat) (w : NInstr) (t : Tx s) : Plan s :=
  let o := opWord w
  let tgt := bits w.imm 7 0
  match refOpnd o.ref0, refOpnd o.ref1, refOpnd o.ref2 with
  | some d, some a, some _ =>
    if !immOk w 0xFF || o.resv ≠ 0 then .range
    else if w.ldg = 0 then
      let c := t.now.psetCtx w.pset
      if bits w.a 35 27 ≠ 0 || !c.ps.live || c.ps.numQ ≤ w.level || w.level ≤ tgt || w.basis = 1 then .range
      else .run id (ldropSteps i c o a d w.level tgt [0]) ((tileLimbs c tgt .chain (i % 8)).any (·.mont))
    else if w.ldg = 3 then
      match t.now.srcCtd i w.src1 with
      | some x =>
        let c := t.now.psetCtx x.pset
        if x.level ≤ tgt then .range
        else ledgerPlan t i 3 w.dst (ledger c (.levelDrop tgt) [x] {}) x.pset fun u =>
          .run u (ldropSteps i c o a d x.level tgt (List.range x.comp)) ((tileLimbs c tgt .chain (i % 8)).any (·.mont))
      | none => .range
    else .range
  | _, _, _ => .range

/-! ### The instructions (R211) -/

/-- What Percale makes of an instruction, by OP (R211). -/
def percalePlan (i op : Nat) (w : NInstr) : Tx s → Plan s :=
  match op with
  | 0x00 => pclElem i w (intOp fun a b => (a + b) % 2 ^ 32)
  | 0x01 => pclElem i w (intOp fun a b => (a + (2 ^ 32 - b)) % 2 ^ 32)
  | 0x02 => pclElem i w (intOp fun a b => a * b % 2 ^ 32)
  | 0x03 => pclElem i w (intOp fun a b => encodeSigned (floorI (i32 a * i32 b) (2 ^ 32)) 32)
  | 0x04 => pclElem i w (satOp false (· + ·))
  | 0x05 => pclElem i w (satOp false (· - ·))
  | 0x4D => pclElem i w (satOp true (· + ·))
  | 0x4E => pclElem i w (satOp true (· - ·))
  | 0x06 => pclElem i w (intOp fun a b => if i32 b < i32 a then b else a)
  | 0x07 => pclElem i w (intOp fun a b => if i32 a < i32 b then b else a)
  | 0x08 => pclElem i w (intOp fun a b => a &&& b)
  | 0x09 => pclElem i w (intOp fun a b => a ||| b)
  | 0x0A => pclElem i w (intOp fun a b => a ^^^ b)
  | 0x0B => pclElem i w { srcs := 1, f := fun _ => map1 fun a => 2 ^ 32 - 1 - a }
  | 0x0C => pclElem i w (shiftOp w fun a n => (a <<< n) % 2 ^ 32)
  | 0x0D => pclElem i w (shiftOp w fun a n => a >>> n)
  | 0x0E => pclElem i w (shiftOp w fun a n => encodeSigned (floorI (i32 a) (2 ^ n)) 32)
  | 0x0F => pclElem i w (cmpOp w)
  | 0x10 => pclElem i w selOp
  | 0x20 => pclElem i w (modOp 2 fun q => zip2 (modAdd q))
  | 0x21 => pclElem i w (modOp 2 fun q => zip2 (modSub q))
  | 0x22 => pclElem i w (modOp 1 fun q => map1 (modNeg q))
  | 0x23 => pclElem i w (modOp 2 fun q => zip2 (modMul q))
  | 0x24 => pclForm i w (modOp 1 fun q => map1 fun a => modMul q a (if bit w.a 32 then fromInt (i32 (bits w.a 31 0)) q else bits w.a 31 0)) (bit w.a 33) (bits w.a 35 34 = 0)
  | 0x25 => pclElem i w (modOp 1 fun q => map1 fun a => encodeSigned (centred (a % q) q) 32)
  | 0x26 => pclElem i w { srcs := 1, prime := true, f := fun q => map1 fun a => fromInt (i32 a) q }
  | 0x30 => fpPlan i w 0 2 fun g rm xs => finish g rm (fAdd rm (opd g xs 0) (opd g xs 1))
  | 0x31 => fpPlan i w 0 2 fun g rm xs => finish g rm (fAdd rm (opd g xs 0) (opd g xs 1).neg)
  | 0x32 => fpPlan i w 0 2 fun g rm xs => finish g rm (fMul (opd g xs 0) (opd g xs 1))
  | 0x33 => fpPlan i w (31 <<< 21) 3 fun g rm xs => finish g rm (fFma rm (opd g xs 0) (opd g xs 1) (opd g xs 2))
  | 0x34 => fpPlan i w 0 2 fun g _ xs => g.minMax false (xs.getD 0 0) (xs.getD 1 0)
  | 0x35 => fpPlan i w 0 2 fun g _ xs => g.minMax true (xs.getD 0 0) (xs.getD 1 0)
  | 0x36 => fcmpPlan i w
  | 0x37 => cvtPlan i w
  | 0x40 => fencPlan i w
  | 0x41 => fdecPlan i w
  | 0x42 => fdec2Plan i w
  | 0x43 => trnPlan w false
  | 0x44 => trnPlan w true
  | 0x45 => caddPlan i w modAdd
  | 0x46 => caddPlan i w modSub
  | 0x47 => paddPlan i w
  | 0x48 => ldropPlan i w
  | 0x49 => slotencPlan i w
  | 0x4A => slotdecPlan i w
  | 0x4B => pldPlan w
  | 0x4C => pstPlan w
  | _ => fun _ => .range

/-- ADD (R178). -/
def execPclAdd (i : Fin 64) (d : Side) (w : NInstr) (s : State) : Host.Outcome State Fault Refusal :=
  done ((begin s).issueEngine i unitPercale 0x00 d w (percalePlan i 0x00 w))

/-- SUB (R178). -/
def execPclSub (i : Fin 64) (d : Side) (w : NInstr) (s : State) : Host.Outcome State Fault Refusal :=
  done ((begin s).issueEngine i unitPercale 0x01 d w (percalePlan i 0x01 w))

/-- MUL (R178). -/
def execPclMul (i : Fin 64) (d : Side) (w : NInstr) (s : State) : Host.Outcome State Fault Refusal :=
  done ((begin s).issueEngine i unitPercale 0x02 d w (percalePlan i 0x02 w))

/-- MULH (log entry 22: signed) (R178). -/
def execMulh (i : Fin 64) (d : Side) (w : NInstr) (s : State) : Host.Outcome State Fault Refusal :=
  done ((begin s).issueEngine i unitPercale 0x03 d w (percalePlan i 0x03 w))

/-- SADD (R178). -/
def execSadd (i : Fin 64) (d : Side) (w : NInstr) (s : State) : Host.Outcome State Fault Refusal :=
  done ((begin s).issueEngine i unitPercale 0x04 d w (percalePlan i 0x04 w))

/-- SSUB (R178). -/
def execSsub (i : Fin 64) (d : Side) (w : NInstr) (s : State) : Host.Outcome State Fault Refusal :=
  done ((begin s).issueEngine i unitPercale 0x05 d w (percalePlan i 0x05 w))

/-- SADDU (R178). -/
def execSaddu (i : Fin 64) (d : Side) (w : NInstr) (s : State) : Host.Outcome State Fault Refusal :=
  done ((begin s).issueEngine i unitPercale 0x4D d w (percalePlan i 0x4D w))

/-- SSUBU (R178). -/
def execSsubu (i : Fin 64) (d : Side) (w : NInstr) (s : State) : Host.Outcome State Fault Refusal :=
  done ((begin s).issueEngine i unitPercale 0x4E d w (percalePlan i 0x4E w))

/-- MIN (log entry 22: signed) (R178). -/
def execPclMin (i : Fin 64) (d : Side) (w : NInstr) (s : State) : Host.Outcome State Fault Refusal :=
  done ((begin s).issueEngine i unitPercale 0x06 d w (percalePlan i 0x06 w))

/-- MAX (log entry 22: signed) (R178). -/
def execPclMax (i : Fin 64) (d : Side) (w : NInstr) (s : State) : Host.Outcome State Fault Refusal :=
  done ((begin s).issueEngine i unitPercale 0x07 d w (percalePlan i 0x07 w))

/-- AND (R178). -/
def execPclAnd (i : Fin 64) (d : Side) (w : NInstr) (s : State) : Host.Outcome State Fault Refusal :=
  done ((begin s).issueEngine i unitPercale 0x08 d w (percalePlan i 0x08 w))

/-- OR (R178). -/
def execPclOr (i : Fin 64) (d : Side) (w : NInstr) (s : State) : Host.Outcome State Fault Refusal :=
  done ((begin s).issueEngine i unitPercale 0x09 d w (percalePlan i 0x09 w))

/-- XOR (R178). -/
def execPclXor (i : Fin 64) (d : Side) (w : NInstr) (s : State) : Host.Outcome State Fault Refusal :=
  done ((begin s).issueEngine i unitPercale 0x0A d w (percalePlan i 0x0A w))

/-- NOT (R178). -/
def execPclNot (i : Fin 64) (d : Side) (w : NInstr) (s : State) : Host.Outcome State Fault Refusal :=
  done ((begin s).issueEngine i unitPercale 0x0B d w (percalePlan i 0x0B w))

/-- SHL (R178). -/
def execShl (i : Fin 64) (d : Side) (w : NInstr) (s : State) : Host.Outcome State Fault Refusal :=
  done ((begin s).issueEngine i unitPercale 0x0C d w (percalePlan i 0x0C w))

/-- SHR (R178). -/
def execShr (i : Fin 64) (d : Side) (w : NInstr) (s : State) : Host.Outcome State Fault Refusal :=
  done ((begin s).issueEngine i unitPercale 0x0D d w (percalePlan i 0x0D w))

/-- SAR (R178). -/
def execSar (i : Fin 64) (d : Side) (w : NInstr) (s : State) : Host.Outcome State Fault Refusal :=
  done ((begin s).issueEngine i unitPercale 0x0E d w (percalePlan i 0x0E w))

/-- CMP (R178). -/
def execCmp (i : Fin 64) (d : Side) (w : NInstr) (s : State) : Host.Outcome State Fault Refusal :=
  done ((begin s).issueEngine i unitPercale 0x0F d w (percalePlan i 0x0F w))

/-- SEL (R178). -/
def execSel (i : Fin 64) (d : Side) (w : NInstr) (s : State) : Host.Outcome State Fault Refusal :=
  done ((begin s).issueEngine i unitPercale 0x10 d w (percalePlan i 0x10 w))

/-- modular ADD (R64, R177). -/
def execPclModAdd (i : Fin 64) (d : Side) (w : NInstr) (s : State) : Host.Outcome State Fault Refusal :=
  done ((begin s).issueEngine i unitPercale 0x20 d w (percalePlan i 0x20 w))

/-- modular SUB (R64, R177). -/
def execPclModSub (i : Fin 64) (d : Side) (w : NInstr) (s : State) : Host.Outcome State Fault Refusal :=
  done ((begin s).issueEngine i unitPercale 0x21 d w (percalePlan i 0x21 w))

/-- modular NEG (R64, R177). -/
def execPclModNeg (i : Fin 64) (d : Side) (w : NInstr) (s : State) : Host.Outcome State Fault Refusal :=
  done ((begin s).issueEngine i unitPercale 0x22 d w (percalePlan i 0x22 w))

/-- modular MUL (R64, R177). -/
def execPclModMul (i : Fin 64) (d : Side) (w : NInstr) (s : State) : Host.Outcome State Fault Refusal :=
  done ((begin s).issueEngine i unitPercale 0x23 d w (percalePlan i 0x23 w))

/-- modular MULC (R64, R177, R208). -/
def execPclModMulc (i : Fin 64) (d : Side) (w : NInstr) (s : State) : Host.Outcome State Fault Refusal :=
  done ((begin s).issueEngine i unitPercale 0x24 d w (percalePlan i 0x24 w))

/-- modular LIFT (R53, R177). -/
def execPclModLift (i : Fin 64) (d : Side) (w : NInstr) (s : State) : Host.Outcome State Fault Refusal :=
  done ((begin s).issueEngine i unitPercale 0x25 d w (percalePlan i 0x25 w))

/-- FROMINT (R64, R177). -/
def execFromint (i : Fin 64) (d : Side) (w : NInstr) (s : State) : Host.Outcome State Fault Refusal :=
  done ((begin s).issueEngine i unitPercale 0x26 d w (percalePlan i 0x26 w))

/-- FADD (R182). -/
def execFadd (i : Fin 64) (d : Side) (w : NInstr) (s : State) : Host.Outcome State Fault Refusal :=
  done ((begin s).issueEngine i unitPercale 0x30 d w (percalePlan i 0x30 w))

/-- FSUB (R182). -/
def execFsub (i : Fin 64) (d : Side) (w : NInstr) (s : State) : Host.Outcome State Fault Refusal :=
  done ((begin s).issueEngine i unitPercale 0x31 d w (percalePlan i 0x31 w))

/-- FMUL (R182). -/
def execFmul (i : Fin 64) (d : Side) (w : NInstr) (s : State) : Host.Outcome State Fault Refusal :=
  done ((begin s).issueEngine i unitPercale 0x32 d w (percalePlan i 0x32 w))

/-- FMA (R182, R186). -/
def execFma (i : Fin 64) (d : Side) (w : NInstr) (s : State) : Host.Outcome State Fault Refusal :=
  done ((begin s).issueEngine i unitPercale 0x33 d w (percalePlan i 0x33 w))

/-- FMIN (R182, R183). -/
def execFmin (i : Fin 64) (d : Side) (w : NInstr) (s : State) : Host.Outcome State Fault Refusal :=
  done ((begin s).issueEngine i unitPercale 0x34 d w (percalePlan i 0x34 w))

/-- FMAX (R182, R183). -/
def execFmax (i : Fin 64) (d : Side) (w : NInstr) (s : State) : Host.Outcome State Fault Refusal :=
  done ((begin s).issueEngine i unitPercale 0x35 d w (percalePlan i 0x35 w))

/-- FCMP (R182). -/
def execFcmp (i : Fin 64) (d : Side) (w : NInstr) (s : State) : Host.Outcome State Fault Refusal :=
  done ((begin s).issueEngine i unitPercale 0x36 d w (percalePlan i 0x36 w))

/-- CVT (R182, R184, R185). -/
def execCvt (i : Fin 64) (d : Side) (w : NInstr) (s : State) : Host.Outcome State Fault Refusal :=
  done ((begin s).issueEngine i unitPercale 0x37 d w (percalePlan i 0x37 w))

/-- FENC (R187). -/
def execFenc (i : Fin 64) (d : Side) (w : NInstr) (s : State) : Host.Outcome State Fault Refusal :=
  done ((begin s).issueEngine i unitPercale 0x40 d w (percalePlan i 0x40 w))

/-- FDEC (R188). -/
def execFdec (i : Fin 64) (d : Side) (w : NInstr) (s : State) : Host.Outcome State Fault Refusal :=
  done ((begin s).issueEngine i unitPercale 0x41 d w (percalePlan i 0x41 w))

/-- FDEC2 (R189). -/
def execFdec2 (i : Fin 64) (d : Side) (w : NInstr) (s : State) : Host.Outcome State Fault Refusal :=
  done ((begin s).issueEngine i unitPercale 0x42 d w (percalePlan i 0x42 w))

/-- TRN (R192). -/
def execTrn (i : Fin 64) (d : Side) (w : NInstr) (s : State) : Host.Outcome State Fault Refusal :=
  done ((begin s).issueEngine i unitPercale 0x43 d w (percalePlan i 0x43 w))

/-- TRNP (R192). -/
def execTrnp (i : Fin 64) (d : Side) (w : NInstr) (s : State) : Host.Outcome State Fault Refusal :=
  done ((begin s).issueEngine i unitPercale 0x44 d w (percalePlan i 0x44 w))

/-- CADD (R179). -/
def execCadd (i : Fin 64) (d : Side) (w : NInstr) (s : State) : Host.Outcome State Fault Refusal :=
  done ((begin s).issueEngine i unitPercale 0x45 d w (percalePlan i 0x45 w))

/-- CSUB (R179). -/
def execCsub (i : Fin 64) (d : Side) (w : NInstr) (s : State) : Host.Outcome State Fault Refusal :=
  done ((begin s).issueEngine i unitPercale 0x46 d w (percalePlan i 0x46 w))

/-- PADD (R180). -/
def execPadd (i : Fin 64) (d : Side) (w : NInstr) (s : State) : Host.Outcome State Fault Refusal :=
  done ((begin s).issueEngine i unitPercale 0x47 d w (percalePlan i 0x47 w))

/-- LDROP (R181). -/
def execLdrop (i : Fin 64) (d : Side) (w : NInstr) (s : State) : Host.Outcome State Fault Refusal :=
  done ((begin s).issueEngine i unitPercale 0x48 d w (percalePlan i 0x48 w))

/-- SLOTENC (R190). -/
def execSlotenc (i : Fin 64) (d : Side) (w : NInstr) (s : State) : Host.Outcome State Fault Refusal :=
  done ((begin s).issueEngine i unitPercale 0x49 d w (percalePlan i 0x49 w))

/-- SLOTDEC (R190). -/
def execSlotdec (i : Fin 64) (d : Side) (w : NInstr) (s : State) : Host.Outcome State Fault Refusal :=
  done ((begin s).issueEngine i unitPercale 0x4A d w (percalePlan i 0x4A w))

/-- PLD (R173). -/
def execPld (i : Fin 64) (d : Side) (w : NInstr) (s : State) : Host.Outcome State Fault Refusal :=
  done ((begin s).issueEngine i unitPercale 0x4B d w (percalePlan i 0x4B w))

/-- PST (R173). -/
def execPst (i : Fin 64) (d : Side) (w : NInstr) (s : State) : Host.Outcome State Fault Refusal :=
  done ((begin s).issueEngine i unitPercale 0x4C d w (percalePlan i 0x4C w))

end Sys2Proof.Machine
end

