-- ==== Sys2Proof/Machine/Engines.lean ====
section
/-!
DEFINITION. How an engine instruction goes on after its issue (ch. 04, 06, 08, 09): stalls that end (R16, R92, R202) and results that
become visible (R73, R96, R122, R150, R205).
-/

namespace Sys2Proof.Machine

variable {s : State}

/-- What an engine makes of an instruction, by unit and OP (R211). -/
def enginePlan (i unit op : Nat) (w : NInstr) : Tx s → Plan s :=
  match unit with
  | 2 => worstedPlan i op w
  | 3 => damaskPlan i op w
  | 4 => percalePlan i op w
  | 5 => gauzeOpPlan i op w
  | _ => fun _ => .range

/-- A stalled instruction of the tile goes on as far as its queues allow. -/
def Tx.resumeEngine (t : Tx s) (i : Nat) (p : InFlight → Bool) : Tx s :=
  match (t.tilesAt i).engines.find? fun e => e.left ≠ 0 && e.gz.isNone && p e with
  | some e => t.goOn i e (enginePlan i e.unit e.op e.word)
  | none => t

/-- UNDERRUN_RESUME (R16, R92): words have come, and the stalled engine goes on while its inbound queues give what its steps read. -/
def execUnderrunResume (i : Fin 64) (unit : Fin 7) (s : State) : Host.Outcome State Fault Refusal :=
  let t := begin s
  if s.runState i = runRunning && (t.tilesAt i).stallQ.contains unit.val then done (t.resumeEngine i (·.unit = unit.val))
  else done t

/-- OVERRUN_RESUME (R202): a line is free in a full outbound queue, and the engine stalled on it goes on. -/
def execOverrunResume (i : Fin 64) (q : Fin 8) (s : State) : Host.Outcome State Fault Refusal :=
  let t := begin s
  let d := (t.tilesAt i).outq.getD q {}
  if queueWords < d.words.length then done t
  else
    let t := t.modTiles i fun x => { x with outq := x.outq.set q { d with stalled := false } }
    if s.runState i = runRunning then done (t.resumeEngine i (·.outs.contains q.val)) else done t

/-- May what is in flight at a tile still end: it runs, or is on its way to its resumption points (R224, R228)? -/
def State.mayFinish (s : State) (i : Nat) : Bool := s.inEpoch i

/-- What WSTACC0, WSTACC1 and DMKDACC show once an instruction has completed (R96, R150): its own engine's part. -/
def InFlight.show_ (e : InFlight) (old : List Nat) : List Nat :=
  let own (k : Nat) : Bool := (e.unit = 2 && 0x10 ≤ e.op && k < 2) || (e.unit = 3 && k = 2)
  (List.range 3).map fun k => (if own k then e.shows else old).getD k 0

/-- Is an instruction before the `k`-th in flight on the same pipe (R73, R122, R151)? -/
def Tile.pipeBefore (x : Tile) (k : Nat) (e : InFlight) : Bool :=
  (x.engines.take k).any fun f => samePipe f.unit f.op e.unit e.op

/-- INSTR_RESULT_VISIBLE (R205): the occupancy of the tile's `k`-th engine instruction ends and its SIGNAL takes effect; not while it is
still at work or an earlier one of its pipe is in flight, and not once the context is saved, restoring, or the tile stopped. -/
def execInstrResultVisible (i : Fin 64) (k : Nat) (s : State) : Host.Outcome State Fault Refusal :=
  let t := begin s
  let x := t.tilesAt i
  match x.engines[k]? with
  | some e =>
    if s.mayFinish i && !x.working e && !x.pipeBefore k e then
      done ((t.modTiles i fun x => { x with
        engines := x.engines.eraseIdx k, shown := e.show_ x.shown, progress := true }).signal i e.sig)
    else done t
  | none => done t

end Sys2Proof.Machine
end

