-- ==== Sys2Proof/Machine/Islands.lean ====
section
/-!
DEFINITION. Tile islands and half rails (R451 to R453, R461 to R463): the operating point in effect, what it should be, and
how it gets there.
-/

namespace Sys2Proof.Machine

variable {s : State}

/-- Half of a tile: 0 West, 1 East. -/
def tileHalf (i : Nat) : Nat := i / 32

/-- Deterministic mode in effect (R316). -/
def Tx.det (t : Tx s) : Bool := t.flagEff EPOCH.CTL.DET

/-- The operating point in effect on a tile island. -/
def State.opOf (s : State) (i : Nat) : Nat := s.fld PWR.DVFS.CUR 0 i

/-- Set the operating point in effect. -/
def Tx.setOp (t : Tx s) (i op : Nat) : Tx s := t.setFld PWR.DVFS.CUR op 0 i

/-- The brake applies while the pin is low or the Gloaming state has BRAKE = 1 (R463). -/
def State.brake (s : State) : Bool := s.power.brakePin || s.flag GLM.SOUT.BRAKE 0 (s.fld GLM.STAT.STATE)

/-- The point a tile island should run at: OP 4 in deterministic mode (R453), at most OP 1 while the brake's effect holds
(R463), else the point commanded. -/
def Tx.wantOp (t : Tx s) (i : Nat) : Nat :=
  if t.det then 4 else if t.now.power.braking then 1 else t.now.power.points.getD i 4

/-- A half rail ramps toward the voltage of a point (R452). -/
def Tx.rampTo (t : Tx s) (h op : Nat) : Tx s :=
  let p := t.now.power
  t.putPower { p with ramp := p.ramp.set h (max op (p.ramp.getD h 0)) }

/-- Lower a half rail to the highest point of its islands and of a ramp that a raise still needs. -/
def Tx.lowerRail (t : Tx s) (h : Nat) : Tx s :=
  let p := t.now.power
  let top := ((List.range 32).map fun k => max (t.now.opOf (32 * h + k))
    (if p.raised.contains (32 * h + k) then 4 else t.wantOp (32 * h + k))).foldl max 0
  t.putPower { p with rail := p.rail.set h (min (p.rail.getD h 0) top), ramp := p.ramp.set h top }

/-- DVFS_APPLY (R452): at a wall boundary each island goes to the point it should have: down at once, up as far as its rail's
voltage, for which the ramp starts. An island raised for a preemption stays (R462). -/
def Tx.dvfsApply (t : Tx s) : Tx s :=
  let t := t.forEach (List.range 64) fun t i =>
    let w := t.wantOp i
    let cur := t.now.opOf i
    if t.now.power.raised.contains i then t
    else if w = cur then t
    else if w < cur then t.setOp i w
    else if w ≤ t.now.power.rail.getD (tileHalf i) 0 then t.setOp i w
    else t.rampTo (tileHalf i) w
  (t.lowerRail 0).lowerRail 1

/-- DET becomes 1 at a boundary: every tile island goes to OP 4 there (R453). -/
def Tx.detRaise (t : Tx s) : Tx s :=
  let t := t.putPower { t.now.power with rail := t.now.power.rail.map (max 4 ·), ramp := t.now.power.ramp.map (max 4 ·) }
  t.forEach (List.range 64) fun t i => t.setOp i 4

/-- The preemption raise (R225, R452): the island is held at OP 4 or above until the context is written; one below it goes at once to the highest point the rail supports, and the ramp toward OP 4. -/
def Tx.preemptRaise (t : Tx s) (i : Nat) : Tx s :=
  let h := tileHalf i
  let t := t.putPower { t.now.power with raised := insertSorted t.now.power.raised i }
  if 4 ≤ t.now.opOf i then t
  else
    (t.setOp i (max (t.now.opOf i) (min 4 (t.now.power.rail.getD h 0)))).rampTo h 4

/-- A half rail has reached the voltage of a higher point of its ramp: raised islands switch up in the next cycle. -/
def Tx.railReaches (t : Tx s) (h op : Nat) : Tx s :=
  let p := t.now.power
  if p.rail.getD h 0 < op && op ≤ p.ramp.getD h 0 then
    let t := t.putPower { p with rail := p.rail.set h op }
    t.forEach (p.raised.filter fun i => tileHalf i = h) fun t i => t.setOp i (max (t.now.opOf i) (min 4 op))
  else t

/-- RAIL_RAMP_DONE (R452): the rail of a half reaches the voltage of operating point `op`. -/
def execRailRampDone (half : Fin 2) (op : Fin 6) (s : State) : Host.Outcome State Fault Refusal :=
  done ((begin s).railReaches half op)

/-- A write of PWR.DVFS[i].TARGET (R453, R424). -/
def Tx.dvfs (t : Tx s) (o : RegFrom) (i target : Nat) : Tx s :=
  let held := t.flag (HDR.OWNER.HOLD .TILE) i
  if 5 < target then t.logStatus .PWR 0 .RANGE
  else if t.det || held then
    let t := t.logStatus .PWR 0 .DENIED
    t.when (held && o.world = .normal) fun t =>
      ((t.logStatus .TILE i .DENIED).logStatus .SEC 0 .DENIED).bump SEC.DENYCNT.POWER
  else
    let p := t.now.power
    let cap := if t.fld PWR.CAPCTL.SKIP = 0 then target else min (p.points.getD i 4) target
    (t.setFld PWR.DVFS.TARGET target 0 i).putPower { p with points := p.points.set i cap }

/-- DVFS_REQUEST (R453). -/
def execDvfsRequest (o : RegFrom) (i : Fin 64) (target : BitVec 3) (s : State) : Host.Outcome State Fault Refusal :=
  done ((begin s).guarded o .PWR 0 fun t => t.dvfs o i target.toNat)

end Sys2Proof.Machine
end

