-- ==== Sys2Proof/Machine/TileCtl.lean ====
section
/-!
DEFINITION. What happens to a tile from outside its streams (ch. 09, 14, 18): channel admission (R217), preemption, save and restore (R223 to R230), HALT (R228), deadlock (R231, R232), aborts (R342)
and wipes (R425).
-/

namespace Sys2Proof.Machine

variable {s : State}

/-! ### Channels -/

/-- Lines of a receive buffer in front of its first token that follows a line (R215: a message is whole lines in order). -/
def RxBuf.ready (r : RxBuf) : Bool := 0 < r.lines && min r.msglen 64 ≤ r.lines

/-- The channels that have a ready message for inbound queue `q`, by 16 × sender position + channel, ascending. -/
def Tile.readyKeys (x : Tile) (q : Nat) : List Nat :=
  (x.rx.filter fun k => k.2.dq = q && k.2.left = 0 && k.2.ready).map (·.1)

/-- The choice of R217 among ready channels: the lowest value, or in rotation the next above the last one admitted. -/
def admitChoice (rotate : Bool) (last : Option Nat) (keys : List Nat) : Option Nat :=
  match rotate, last with
  | true, some l => (keys.find? (l < ·)).or keys.head?
  | _, _ => keys.head?

/-- MESSAGE_ADMIT (R217): queue `q` of the tile admits one whole message, unless one is in admission: its lines enter as
the queue has room. Credit goes back to the sender, which sends what waited for it (R215). -/
def execMessageAdmit (i : Fin 64) (q : Fin 8) (s : State) : Host.Outcome State Fault Refusal :=
  let t := begin s
  let x := t.tilesAt i
  let d := x.inq.getD q {}
  if !d.opened || (x.rx.any fun k => k.2.dq = q.val && k.2.left ≠ 0) then done t
  else
    match admitChoice d.rotate d.last (x.readyKeys q) with
    | some key =>
      let t := t.modTiles i fun x =>
        let r := mapGet {} x.rx key
        let x := { x with
          rx := mapPut {} x.rx key { r with left := r.msglen }
          inq := x.inq.set q { d with last := some key } }
        x.rxRun key
      let t := (t.bump TILE.SELLAST.COUNT 1 i).setFld TILE.SELLAST.LAST key i
      done (t.drain (8 * (i.val / 8) + key / 16))
    | none => done t

/-! ### Aborts and wipes (R232, R342, R425) -/

/-- The tile stops with ABORTED because of an error on `cause` (a tile, or 64 + a cluster) with status `st` (R475); the record's
failures are those of the cause. -/
def Tx.abortTile (t : Tx s) (i cause : Nat) (st : Status) (cls : Nat := 2) : Tx s :=
  let r := (t.tilesAt i).rec?
  let t := (t.setFld TILE.RUNSTAT.STATE runStopped i).setFld TILE.RUNSTAT.STATUS Status.ABORTED.code i
  (t.raiseIrq .TILE i 0).logError .TILE i
    { status := .ABORTED, cls := cls, detail := cause + st.code <<< 8, rec? := r }

/-- Has the tile a record whose work goes on? -/
def State.working (s : State) (i : Nat) : Bool :=
  (s.tilesAt i).rec?.isSome && s.runState i ≠ runStopped && s.runState i ≠ runIdle

/-- Every other tile of a record stops with ABORTED. -/
def Tx.abortOthers (t : Tx s) (r : Nat) (cause : Nat) (st : Status) : Tx s :=
  t.forEach (t.recordsAt r).tiles fun t i =>
    if i ≠ cause && (t.tilesAt i).rec? = some r && t.now.working i then t.abortTile i cause st st.cls else t

/-- Fields of a TILE page that DOZE keeps, by offset (R456): SPAD_SIZE and CTXBASE, and OWNER (R500). -/
def dozeKeep (o : Nat) : Word :=
  if o = TILE.SPAD_SIZE.SIZE.off ∨ o = TILE.CTXBASE.BASE.off ∨ o = TILE.CTXBASE.BASE.off + 4 ∨ o = 0x80 then 0xFFFFFFFF else 0

/-- What no reset but a POR takes from a tile: the spare rows in use, and the unit that stays redirected (R249). -/
def Tile.worn (x : Tile) : Tile := { spares := x.spares, pinned := x.pinned }

/-- The tile loses everything but its scratchpad and kept fields (R456); a SAVED tile stays SAVED. -/
def Tx.loseTile (t : Tx s) (i : Nat) : Tx s :=
  let x := t.tilesAt i
  let st := t.now.runState i
  let t := t.resetPage .TILE i dozeKeep
  if st = runSaved then (t.putTiles i { x.worn with rec? := x.rec?, saved := true }).setFld TILE.RUNSTAT.STATE st i
  else t.putTiles i x.worn

/-- A record's work on a cluster ends ABORTED: the record fails there, and every tile of it stops (R420, R425, R482, R483). Each
tile's part ends as that of any stopped tile does, once no write of it is left to be accepted (R342). -/
def Tx.abortRecordOn (t : Tx s) (r cl : Nat) : Tx s := (t.failRecord (some r) cl .ABORTED 0).abortOthers r (64 + cl) .ABORTED

/-- Records dispatched on a cluster. -/
def State.recordsOn (s : State) (cl : Nat) : List Nat :=
  (s.records.filter fun r => r.2.stage = .dispatched && bit r.2.clusters cl).map (·.1)

/-- A cluster loses its shared state. -/
def Tx.loseCluster (t : Tx s) (cl : Nat) : Tx s :=
  let c := t.clustersAt cl
  t.putClusters cl { ({} : Cluster) with kcSize := c.kcSize, kcSizeReq := c.kcSizeReq, red := c.red, redReq := c.redReq }

/-- SEC wipes a cluster (R425): its records abort, then every memory of its tiles and its shared cache are zero; the parts of
these tiles are over. -/
def Tx.wipeCluster (t : Tx s) (cl : Nat) : Tx s :=
  let t := t.forEach (t.now.recordsOn cl) fun t r => (t.abortRecordOn r cl).modRecords r fun x =>
    { x with tilesDone := x.tiles.filter fun i => x.tilesDone.contains i || i / 8 = cl }
  let t := t.forEach (List.range 8) fun t p =>
    let i := 8 * cl + p
    ((t.putTiles i (t.tilesAt i).worn).setFld TILE.RUNSTAT.STATE runIdle i).zeroRange
      (spadBase i) spadBytes
  t.loseCluster cl

/-! ### Preemption (R223 to R225, R228) -/

/-- The base of a tile's context area. -/
def State.ctxBase (s : State) (i : Nat) : Nat := s.fld TILE.CTXBASE.BASE i * 0x10000

/-- A preemption request at a tile; Worsted counts one that it meets at work (R93, R95). A tile with no record is SAVED at once with an
empty context; one whose restore has ended and that waits for its boundary begins to save at once (R228). -/
def Tx.preempt (t : Tx s) (i : Nat) : Tx s :=
  let x := t.tilesAt i
  let st := t.now.runState i
  if x.rec?.isNone then
    if st = runSaved then t
    else
      let t := t.modContexts (t.now.ctxBase i) fun _ => { live := true, tile := {}, sellast := 0, pclflags := 0, scratchEnd := 0, scratch := [] }
      (t.setFld TILE.RUNSTAT.STATE runSaved i).raiseIrq .TILE i 1
  else if st = runRestoring && x.restored then
    ((t.setFld TILE.RUNSTAT.STATE runSaving i).modTiles i fun x => { x with preempting := true, restored := false }).preemptRaise i
  else if st = runRunning || st = runHalted then
    let t := t.when (x.engines.any (·.unit = unitWorsted)) fun t => t.bump TILE.WSTCNT.RESUME 1 i
    (((t.setFld TILE.RUNSTAT.STATE runSaving i).levelIrq .TILE i 4 false).modTiles i fun x => { x with preempting := true }).preemptRaise i
  else if st = runRestoring then (t.modTiles i fun x => { x with preempting := true }).preemptRaise i
  else t

/-- PREEMPT (R223): a write of 1 to TILE.RUNCTL.PREEMPT. -/
def execPreempt (o : RegFrom) (i : Fin 64) (s : State) : Host.Outcome State Fault Refusal :=
  done ((begin s).guarded o .TILE i fun t => t.preempt i)

/-- Is a peer transaction a read of transfer `id` of the tile? -/
def PeerTxn.reads (p : PeerTxn) (i id : Nat) : Bool := p.packet.type = ptRD && p.origin = .transfer i id

/-- A transfer at its stopping point (R224): reads from peers and the host that have not arrived are begun again later. -/
def State.rewind (s : State) (i : Nat) (v : Transfer) : Transfer :=
  if v.out then v
  else
    let open_ := (s.peers.filter fun p => p.2.reads i v.id).map (·.2.pos)
    let first := (open_ ++ v.host).foldl min v.next
    { v with next := first, waiting := 0, host := [], got := v.got.filter (·.1 < first) }

/-- The tile's streams at their stopping points: nothing asked of peers stays awaited (R224), and a block store from a buffer starts
again at its first block that is not wholly written (R276). -/
def Tx.stopReads (t : Tx s) (i : Nat) : Tx s :=
  let t := t.modTiles i fun x => { x with
    transfers := x.transfers.map (t.now.rewind i), asked := [], preempting := false
    prog := x.prog.map fun p => { p with entries := p.entries.map fun e => if e.kind = 6 && !e.toq then { e with part := 0 } else e } }
  t.forEach ((t.now.peers.filter fun p => p.2.packet.type = ptRD && (match p.2.origin with
      | .transfer j _ => i = j | _ => false)).map (·.1))
    fun t k => t.modPeers k fun p => { p with origin := .fetch i }

/-- Bytes of a queue's part of the context area: its words from the head, zero after them. -/
def queueBytes (q : DataQueue) : List Byte :=
  let ws := (q.words.take 4096).map (·.w)
  wordsBytes ws ++ List.replicate (0x4000 - 4 * ws.length) 0

/-- Entries of DACC, each of which has a slot in the context area (R148, R226). -/
def daccSize : Nat := 131072

/-- Write the parts of the context area that have a stated layout (R226), and a header whose bytes the spec does not lay out:
free. -/
def Tx.writeContext (t : Tx s) (i b : Nat) (x : Tile) : Tx s :=
  let n := t.now.fresh
  let t := (t.freshen.write b (natLe 0x1000 (Config.draw n))).writeWords (b + 0x1000) x.iacc.entries
  let t := t.forEach (List.range 32) fun t k => t.writeWords (b + 0x2000 + 0x400 * k) (x.reg k)
  let t := t.forEach (x.inq ++ x.outq).zipIdx fun t q => t.write (b + 0x10000 + 0x4000 * q.2) (queueBytes q.1)
  let t := t.forEach (List.range 1024) fun t k =>
    let t := t.writeWords (b + 0x50000 + 0x400 * k) (x.ocLine k)
    t.when (x.ocBad.contains k) fun t => t.poisonRange (b + 0x50000 + 0x400 * k) 0x400
  let t := t.write (b + 0x150000) ((padTo daccSize x.dacc.entries).flatMap (natLe 8))
  let acc (l : Bank) : List Byte := if l.live then l.entries.flatMap (natLe 16) else []
  (t.write (b + 0x250000) (acc x.acc0)).when x.acc1.live fun t => t.write (b + 0x350000) (acc x.acc1)

/-- CONTEXT_SAVED (R226): the context is written, the tile reads SAVED, and its island may return to its point (R462). -/
def execContextSaved (i : Fin 64) (s : State) : Host.Outcome State Fault Refusal :=
  let t := begin s
  if s.runState i ≠ runSaving then done t
  else
    let t := t.stopReads i
    let x := t.tilesAt i
    let b := t.now.ctxBase i
    let t := t.writeContext i b x
    let t := t.modContexts b fun _ =>
      { live := true, tile := x, sellast := (t.regsAt (TILE.SELLAST.LAST.addr i 0)).toNat,
        pclflags := (t.regsAt (TILE.PCLFLAGS.NX.addr i 0)).toNat, scratchEnd := 0, scratch := [] }
    let t := t.putPower { t.now.power with raised := t.now.power.raised.filter (· ≠ i.val) }
    done (((t.setFld TILE.RUNSTAT.STATE runSaved i).modTiles i fun x => { x with saved := true }).raiseIrq .TILE i 1)

/-! ### Restore (R229, R230) -/

/-- A CCC saves the scratchpad range that a new graph declares, of a preempted tile whose record belongs to another session, and
zeroes it (R230). -/
def Tx.saveScratch (t : Tx s) (i n : Nat) : Tx s :=
  let b := t.now.ctxBase i
  let c := t.now.contextsAt b
  if !c.live || n ≤ c.scratchEnd then t
  else
    let lo := spadBase i + c.scratchEnd
    let cells := (t.now.mem.filter fun k => lo ≤ k.1 && k.1 < spadBase i + n)
    (t.putContexts b { c with scratchEnd := n, scratch := c.scratch ++ cells }).zeroRange (spadBase i) n

/-- Put back what `saveScratch` saved. -/
def Tx.restoreScratch (t : Tx s) (i : Nat) (c : Context) : Tx s :=
  if c.scratchEnd = 0 then t
  else (t.zeroRange (spadBase i) c.scratchEnd).forEach c.scratch fun t k => t.write k.1 [k.2]

/-- Start the restore of a SAVED tile (R229). -/
def Tx.resume (t : Tx s) (i : Nat) : Tx s :=
  if t.now.runState i = runSaved && (t.now.contextsAt (t.now.ctxBase i)).live then
    t.setFld TILE.RUNSTAT.STATE runRestoring i
  else t

/-- TILE_RESUME (R229): a write of TILE.RUNCTL.RESUME. -/
def execTileResume (o : RegFrom) (i : Fin 64) (s : State) : Host.Outcome State Fault Refusal :=
  done ((begin s).guarded o .TILE i fun t => t.resume i)

/-- The parts of the context area read back into the saved tile. -/
def State.readContext (s : State) (b : Nat) (x : Tile) : Tile :=
  let q (k : Nat) (d : DataQueue) : DataQueue :=
    let ws := s.readWords (b + 0x10000 + 0x4000 * k) (min d.words.length 4096)
    { d with words := (d.words.zip ws).map (fun p => { p.1 with w := p.2 }) ++ d.words.drop 4096 }
  let slots (a n k : Nat) : List Nat := (List.range n).map fun j => leNat (s.read (a + k * j) k)
  { x with
    iacc := { x.iacc with entries := s.readWords (b + 0x1000) 512 }
    trs := (List.range 32).foldl (fun m k => mapPut (List.replicate 256 0) m k (s.readWords (b + 0x2000 + 0x400 * k) 256)) []
    inq := x.inq.zipIdx.map fun d => q d.2 d.1
    outq := x.outq.zipIdx.map fun d => q (8 + d.2) d.1
    ocache := (List.range 1024).foldl
      (fun m k => mapPut (List.replicate 256 0) m k (s.readWords (b + 0x50000 + 0x400 * k) 256)) []
    ocBad := (List.range 1024).filter fun k => s.poisoned (b + 0x50000 + 0x400 * k) 0x400
    dacc :=
      let l := slots (b + 0x150000) daccSize 8
      { x.dacc with entries := if (l.drop x.dacc.entries.length).all (· = 0) then l.take x.dacc.entries.length else l }
    acc0 := if x.acc0.live then { x.acc0 with entries := slots (b + 0x250000) x.acc0.entries.length 16 } else x.acc0
    acc1 := if x.acc1.live then { x.acc1 with entries := slots (b + 0x350000) x.acc1.entries.length 16 } else x.acc1 }

/-- Is any line of the context that a restore must read poisoned? The operand cache carries its own poison. -/
def State.contextPoison (s : State) (b : Nat) : Bool :=
  s.poisoned b 0x50000 || s.poisoned (b + 0x150000) 0x300000

/-- CONTEXT_RESTORED (R229): the context is read back; a slot with a bit beyond its entry refuses the resume with RANGE (R93,
R148). A preemption asked for meanwhile is acted on at once (R228); else the streams wait for the boundary. -/
def execContextRestored (i : Fin 64) (s : State) : Host.Outcome State Fault Refusal :=
  let t := begin s
  if s.runState i ≠ runRestoring || (s.tilesAt i).restored then done t
  else
    let b := t.now.ctxBase i
    let c := t.now.contextsAt b
    let again := (t.tilesAt i).preempting
    let x := t.now.readContext b c.tile
    if t.now.contextPoison b then done (t.stopTile i { status := .POISON, cls := 2, addr := t.now.globalLine b })
    else if x.dacc.entries.any (2 ^ 48 ≤ ·) || (x.acc0.live && x.acc0.entries.any (2 ^ 80 ≤ ·)) ||
        (x.acc1.live && x.acc1.entries.any (2 ^ 80 ≤ ·)) then done (t.stopTile i { status := .RANGE, cls := 5 })
    else
      let y := t.tilesAt i
      let t := (t.restoreScratch i c).putTiles i { x with
        saved := false, restored := !again, preempting := again
        sptUnit := y.sptUnit, sptOn := y.sptOn, spares := y.spares, pinned := y.pinned }
      let t := (t.putRegs (TILE.SELLAST.LAST.addr i 0) (BitVec.ofNat 32 c.sellast)).putRegs (TILE.PCLFLAGS.NX.addr i 0)
        (BitVec.ofNat 32 c.pclflags)
      let t := (t.putContexts b {}).raiseIrq .TILE i 2
      if again then done (t.setFld TILE.RUNSTAT.STATE runSaving i) else done t

/-! ### HALT (R228) -/

/-- A write of TILE.RUNCTL.HALT. -/
def Tx.haltWrite (t : Tx s) (i : Nat) (on : Bool) : Tx s :=
  let t := t.setFld TILE.RUNCTL.HALT (bnat on) i
  if on then
    if t.now.runState i = runRunning then (t.setFld TILE.RUNSTAT.STATE runHalted i).levelIrq .TILE i 4 true else t
  else if t.now.runState i = runHalted then
    ((t.setFld TILE.RUNSTAT.STATE runRunning i).levelIrq .TILE i 4 false).perturb i
  else t

/-- HALT (R228): a write of 1. -/
def execHalt (o : RegFrom) (i : Fin 64) (s : State) : Host.Outcome State Fault Refusal :=
  done ((begin s).guarded o .TILE i fun t => t.haltWrite i true)

/-- HALT_RELEASE (R228): a write of 0. -/
def execHaltRelease (o : RegFrom) (i : Fin 64) (s : State) : Host.Outcome State Fault Refusal :=
  done ((begin s).guarded o .TILE i fun t => t.haltWrite i false)

/-! ### Deadlock (R231, R232) -/

/-- DEADLOCK_DETECT (R231, R232): a running tile has made no progress through WINDOW consecutive epochs; it stops, and so does
every other tile of its record. -/
def execDeadlockDetect (i : Fin 64) (s : State) : Host.Outcome State Fault Refusal :=
  let t := begin s
  let x := t.tilesAt i
  let w := t.fldEff TILE.DLKCTL.WINDOW i
  if s.runState i ≠ runRunning || w = 0 || x.idleEpochs < w then done t
  else
    let t := (t.stopTile i { status := .DEADLOCK, cls := 5, addr := x.acc.pc + x.exe.pc <<< 16,
                             detail := x.acc.held + x.exe.held <<< 24 }).raiseIrq .TILE i 3
    match x.rec? with
    | some r => done (t.abortOthers r i .DEADLOCK)
    | none => done t

end Sys2Proof.Machine
end

