-- ==== Sys2Proof/Machine/Security.lean ====
section
/-!
DEFINITION. SEC's sealing commands (R429 to R435), the fills of sealed regions (R292), the loss of every domain (R426),
signatures as the device checks them (R396, R537), and the test port's instruction (R427, R533).
-/

namespace Sys2Proof.Machine

variable {s : State}

/-! ### Signatures (R396, R537) -/

/-- PUBCHECK on P-384 of a public key given as two coordinates of 48 bytes (R430, R434, R436). -/
def keyCheck (x y : List Byte) : Status := pointStatus p384 (beNat x) (beNat y)

/-- VERIFY on P-384 over SHA-384 of the signed bytes; SIG is r then s, 48 bytes each, big-endian (R396, R537). -/
def sigCheck (signed sig x y : List Byte) : Status :=
  verifyStatus p384 (p384.digest (sha384 signed)) (beNat (sig.take 48)) (beNat (sig.drop 48)) (beNat x) (beNat y)

/-- Are all bytes of a part of a structure zero? -/
def zeroBytes (b : List Byte) (lo hi : Nat) : Bool := ((b.drop lo).take (hi - lo)).all (· = 0)

/-- The bytes from `lo` to `hi`, not included. -/
def part (b : List Byte) (lo hi : Nat) : List Byte := (b.drop lo).take (hi - lo)

/-! ### Addresses and pages -/

/-- Does a range meet a live sealed region? -/
def State.meetsRegion (s : State) (a n : Nat) : Bool :=
  s.regions.any fun g => g.2.live && g.2.base < a + n && a < g.2.base + g.2.size * 2 ^ 21

/-- Does a range lie within the near tier, or within the far tier? -/
def State.inTier (s : State) (a n : Nat) : Bool :=
  0 < n && (a + n ≤ nearEnd || (s.isFar a && s.isFar (a + n - 1)))

/-- Do `n` bytes from `a` and the range from `lo` to `hi` have a byte in common? -/
def meets (a n lo hi : Nat) : Bool := max a lo < min (a + n) hi

/-- Does a range meet the lent range in effect or the one that LEND names? -/
def State.meetsLent (s : State) (a n : Nat) : Bool :=
  let w := (s.regsAt (MEMSYS.LEND.BASE.addr 0 0)).toNat
  let lo := farBase + bits w 9 0 * 2 ^ 30
  meets a n s.lentRange.1 s.lentRange.2 || meets a n lo (lo + bits w 30 20 * 2 ^ 30)

/-- An address that a sealing command may name (R429): aligned to 64 bytes, in the near or far tier, outside every sealed
region and the lent range. -/
def State.plainRange (s : State) (a n : Nat) : Bool :=
  a % 64 = 0 && s.inTier a n && !s.meetsRegion a n && !s.meetsLent a n

/-- Give OWNER of one page its four fields (R422). -/
def Tx.setOwner (t : Tx s) (p : Page) (n : Nat) (world hold isSealed dom : Nat) : Tx s :=
  (((t.setFld (HDR.OWNER.WORLD p) world n).setFld (HDR.OWNER.HOLD p) hold n).setFld (HDR.OWNER.SEALED p) isSealed n).setFld
    (HDR.OWNER.DOMAIN p) dom n

/-- OWNER of every page of a cluster and its tiles. -/
def Tx.ownCluster (t : Tx s) (cl world hold isSealed dom : Nat) : Tx s :=
  let t := t.forEach [Page.CLUSTER, .MUSLIN, .SCACHE] fun t p => t.setOwner p cl world hold isSealed dom
  t.forEach (List.range 8) fun t k => t.setOwner .TILE (8 * cl + k) world hold isSealed dom

/-- The clusters of a mask, ascending. -/
def clustersOf (m : Nat) : List Nat := (List.range 8).filter (bit m)

/-- SEC.STAT.DOMAINS shows which domains exist. -/
def Tx.showDomains (t : Tx s) : Tx s :=
  t.setFld SEC.STAT.DOMAINS ((t.now.domains.filter (·.2.live)).foldl (fun m d => m + 2 ^ d.1) 0)

/-- SEAL.REGION shows a region (R449). -/
def Tx.showRegion (t : Tx s) (r : Nat) : Tx s :=
  let g := t.now.regionsAt r
  let v := if g.live then 1 <<< 127 + (bnat g.filling) <<< 126 + (bnat g.ctx) <<< 125 + g.dom <<< 116 + g.size <<< 64
    + g.base else 0
  t.putSpan ((Page.SEAL).base 0 + 0x400 + 16 * r) 4 v

/-- Is any loaded graph placed on one of the clusters? -/
def State.graphsOn (s : State) (m : Nat) : Bool := s.graphs.any fun g => g.2.live && g.2.clusters &&& m ≠ 0

/-- Does any sealing domain exist? -/
def State.anyDomain (s : State) : Bool := s.domains.any (·.2.live)

/-! ### The loss of every domain (R426) -/

/-- Every domain is destroyed and the keys of every region erased; the regions stay until boot releases them. -/
def Tx.eraseDomains (t : Tx s) : Tx s :=
  let t := t.forEach (t.now.domains.map (·.1)) fun t d =>
    let m := (t.now.domainsAt d).clusters
    (t.putDomains d {}).forEach (clustersOf m) fun t cl => t.ownCluster cl 0 0 0 0
  let t := t.forEach ((t.now.regions.map (·.1)).filter (· < 64)) fun t r =>
    (t.modRegions r fun g => { g with keys := none, filling := true, releasing := true }).showRegion r
  (t.putSec { t.now.sec with cmd := 0, waits := [] }).showDomains

/-! ### Sealing commands (R429) -/

/-- A sealing command ends at once with a status. -/
def Tx.sealEnd (t : Tx s) (st : Status) : Tx s :=
  (t.setFld SEAL.CMDSTAT.STATUS st.code).setFld SEAL.CMDSTAT.BUSY 0

/-- A sealing command goes on until the fills of regions end. -/
def Tx.sealWait (t : Tx s) (cmd : Nat) (rs : List Nat) : Tx s :=
  if rs.isEmpty then t.sealEnd .OK
  else (t.putSec { t.now.sec with cmd := cmd, waits := rs }).setFld SEAL.CMDSTAT.BUSY 1

/-- A write of a command to SEAL.CMD: one at a time (R429); its argument is SEAL.ARG. -/
def Tx.sealCmd (t : Tx s) (f : Nat → Tx s → Tx s) : Tx s :=
  if t.flag SEAL.CMDSTAT.BUSY then t.logStatus .SEAL 0 .BUSY else f (t.fld SEAL.ARG.ARG) t

/-- The first failing check of DOM_CREATE on a policy (R430), or OK. -/
def State.policyCheck (s : State) (p : List Byte) : Status :=
  let b (k : Nat) : Nat := (p.getD k 0).toNat
  let d := b 0 % 16
  let m := b 1
  if 16 ≤ b 0 || !zeroBytes p 3 0x10 || !zeroBytes p 0x170 0x1A0 || b 2 = 0 || 8 < b 2 || m = 0 ||
      !zeroBytes p (0x70 + 32 * b 2) 0x170 then .RANGE
  else if (s.domainsAt d).live || (clustersOf m).any (fun c => (s.domainOfCluster c).isSome || !(s.recordsOn c).isEmpty) ||
      s.graphsOn m then .STATE
  else
    match keyCheck (part p 0x10 0x40) (part p 0x40 0x70) with
    | .OK => sigCheck (p.take 0x1A0) (part p 0x1A0 0x200) (part p 0x10 0x40) (part p 0x40 0x70)
    | st => st

/-- DOM_CREATE with the address of a policy (R430). -/
def Tx.domCreate (t : Tx s) (a : Nat) : Tx s :=
  if !t.now.plainRange a 0x200 then t.sealEnd .RANGE
  else
    match t.now.readRange .sec a 0x200 with
    | (p, .OK) =>
      match t.now.policyCheck p with
      | .OK =>
        let d := (p.getD 0 0).toNat
        let m := (p.getD 1 0).toNat
        let k := scalarOf p384.n (Config.draw t.now.fresh)
        let q := (p384.mul k p384.g).getD (0, 0)
        let t := t.freshen.putDomains d
          { live := true, clusters := m, ownerX := beNat (part p 0x10 0x40), ownerY := beNat (part p 0x40 0x70),
            hashes := (List.range (p.getD 2 0).toNat).map fun i => part p (0x70 + 32 * i) (0x90 + 32 * i),
            digest := sha384 p, key := k, pubX := q.1, pubY := q.2 }
        let t := t.forEach (clustersOf m) fun t cl => t.ownCluster cl 1 1 1 d
        t.showDomains.sealEnd .OK
      | st => t.sealEnd st
    | (_, st) => t.sealEnd st

/-- DOM_CREATE (R430): a write of 1 to SEAL.CMD. -/
def execDomCreate (o : RegFrom) (s : State) : Host.Outcome State Fault Refusal :=
  done ((begin s).guarded o .SEAL 0 fun t => t.sealCmd fun a t => t.domCreate a)

/-- The first region number that is free. -/
def State.freeRegion (s : State) : Option Nat := (List.range 64).find? fun r => !(s.regionsAt r).live

/-- REG_CREATE with its packed argument (R288, R292, R429, R432). -/
def Tx.regCreate (t : Tx s) (x : Nat) : Tx s :=
  let d := bits x 3 0
  let ctx := bit x 4
  let base := bits x 43 21 * 2 ^ 21
  let n := bits x 63 45
  let dm := t.now.domainsAt d
  if n = 0 || 2 ^ 18 < n || !t.now.inTier base (n * 2 ^ 21) || t.now.meetsRegion base (n * 2 ^ 21) ||
      t.now.meetsLent base (n * 2 ^ 21) then t.sealEnd .RANGE
  else if !dm.live then t.sealEnd .STATE
  else if ctx && (2 * n < 320 * (clustersOf dm.clusters).length || t.now.regions.any fun g => g.2.live && g.2.ctx && g.2.dom = d)
  then t.sealEnd .RANGE
  else
    match t.now.freeRegion with
    | none => t.sealEnd .RANGE
    | some r =>
      let k1 := Config.draw t.now.fresh % 2 ^ 256
      let k2 := Config.draw (t.now.fresh + 1) % 2 ^ 256
      let g : Region := { live := true, base := base, size := n, dom := d, ctx := ctx, filling := true,
                          keys := some (k1, if k1 = k2 then (k1 + 1) % 2 ^ 256 else k2) }
      let t := (t.freshen.freshen.putRegions r g).showRegion r
      (t.setFld SEAL.CMDSTAT.INDEX r).sealWait 2 [r]

/-- REG_CREATE (R288): a write of 2 to SEAL.CMD. -/
def execRegCreate (o : RegFrom) (s : State) : Host.Outcome State Fault Refusal :=
  done ((begin s).guarded o .SEAL 0 fun t => t.sealCmd fun x t => t.regCreate x)

/-- A sealed region changes state: stream caches are emptied (R252). -/
def Tx.dropStreamCaches (t : Tx s) : Tx s :=
  t.forEach (List.range 8) fun t c => t.modClusters c fun x => { x with streamCache := [] }

/-- A region's release starts. -/
def Tx.startRelease (t : Tx s) (r : Nat) : Tx s :=
  ((t.modRegions r fun g => { g with filling := true, releasing := true }).showRegion r).dropStreamCaches

/-- REG_RELEASE (R292): a write of 3 to SEAL.CMD. -/
def Tx.regRelease (t : Tx s) (x : Nat) : Tx s :=
  let r := bits x 5 0
  let g := t.now.regionsAt r
  if !g.live || g.filling then t.sealEnd .STATE else (t.startRelease r).sealWait 3 [r]

@[inherit_doc Tx.regRelease] def execRegRelease (o : RegFrom) (s : State) : Host.Outcome State Fault Refusal :=
  done ((begin s).guarded o .SEAL 0 fun t => t.sealCmd fun x t => t.regRelease x)

/-- The first failing check of an import descriptor before its source is read (R434 steps 1 to 4), or OK. -/
def State.importCheck (s : State) (p : List Byte) : Status :=
  let le (lo hi : Nat) : Nat := leNat (part p lo hi)
  let d := le 0 1
  let g := s.regionsAt (le 1 2)
  let len := le 0x18 0x20
  let dm := s.domainsAt d
  if 16 ≤ d || !zeroBytes p 2 4 || !zeroBytes p 0xB0 0x100 || !zeroBytes p 0x160 0x200 || len % 64 ≠ 0 || len = 0 ||
      2 ^ 38 < len || le 0x10 0x18 % 64 ≠ 0 || 64 ≤ le 1 2 || !g.live || g.releasing || g.dom ≠ d ||
      g.size * 2 ^ 21 < le 0x10 0x18 + len || !s.plainRange (le 8 0x10) len then .RANGE
  else if !dm.live || dm.seq.any (fun q => le 4 8 ≤ q) then .STATE
  else
    match keyCheck (part p 0x50 0x80) (part p 0x80 0xB0) with
    | .OK => sigCheck (p.take 0x100) (part p 0x100 0x160) (natBe 48 dm.ownerX) (natBe 48 dm.ownerY)
    | st => st

/-- The weights of an import decrypted (R434): ChaCha20 under the key that ECDH with the domain's private key gives. -/
def decryptImport (d key seq ex ey : Nat) (src : List Byte) : List Byte :=
  let z := ((p384.mul key (some (ex, ey))).getD (0, 0)).1
  let k := (sha384 (natBe 48 z ++ natLe 4 d ++ natLe 4 seq)).take 32
  let nonce := natLe 4 d ++ natLe 4 seq ++ natLe 4 3
  (chunks 64 (src.length / 64) src).zipIdx.flatMap fun c =>
    List.zipWith (· ^^^ ·) c.1 (chachaBlock k c.2 nonce)

/-- DOM_IMPORT with the address of an import descriptor (R434). -/
def Tx.domImport (t : Tx s) (a : Nat) : Tx s :=
  if !t.now.plainRange a 0x200 then t.sealEnd .RANGE
  else
    match t.now.readRange .sec a 0x200 with
    | (p, .OK) =>
      match t.now.importCheck p with
      | .OK =>
        let le (lo hi : Nat) : Nat := leNat (part p lo hi)
        let d := le 0 1
        match t.now.readRange .sec (le 8 0x10) (le 0x18 0x20) with
        | (src, .OK) =>
          if sha384 src ≠ part p 0x20 0x50 then t.sealEnd .BAD_SIGNATURE
          else
            let dm := t.now.domainsAt d
            let plain := decryptImport d dm.key (le 4 8) (beNat (part p 0x50 0x80)) (beNat (part p 0x80 0xB0)) src
            ((t.write ((t.now.regionsAt (le 1 2)).base + le 0x10 0x18) plain).putDomains d
              { dm with seq := some (le 4 8) }).sealEnd .OK
        | (_, st) => t.sealEnd st
      | st => t.sealEnd st
    | (_, st) => t.sealEnd st

/-- DOM_IMPORT (R434): a write of 4 to SEAL.CMD. -/
def execDomImport (o : RegFrom) (s : State) : Host.Outcome State Fault Refusal :=
  done ((begin s).guarded o .SEAL 0 fun t => t.sealCmd fun a t => t.domImport a)

/-- DOM_DESTROY (R435): clusters wiped, OWNER cleared, regions released, the key pair erased; it ends with the last fill. -/
def Tx.domDestroy (t : Tx s) (x : Nat) : Tx s :=
  let d := bits x 3 0
  let dm := t.now.domainsAt d
  if !dm.live || t.now.graphsOn dm.clusters then t.sealEnd .STATE
  else
    let t := t.forEach (clustersOf dm.clusters) fun t cl => (t.wipeCluster cl).ownCluster cl 0 0 0 0
    let rs := (t.now.regions.filter fun g => g.1 < 64 && g.2.live && g.2.dom = d).map (·.1)
    let t := t.forEach rs fun t r => t.startRelease r
    (t.putDomains d {}).showDomains.sealWait 5 rs

/-- DOM_DESTROY (R435): a write of 5 to SEAL.CMD. -/
def execDomDestroy (o : RegFrom) (s : State) : Host.Outcome State Fault Refusal :=
  done ((begin s).guarded o .SEAL 0 fun t => t.sealCmd fun x t => t.domDestroy x)

/-- SEC writes TILE.CTXBASE of the domain's tiles once its context region exists (R432). -/
def Tx.placeContexts (t : Tx s) (g : Region) : Tx s :=
  t.forEach (clustersOf (t.now.domainsAt g.dom).clusters).zipIdx fun t c =>
    t.forEach (List.range 8) fun t p =>
      t.setFld TILE.CTXBASE.BASE ((g.base + 0x2800000 * (8 * c.2 + p)) / 0x10000) (8 * c.1 + p)

/-- The fill of a region ends (R292): zeros throughout; after creation it is usable, after release ordinary memory. -/
def Tx.fillDone (t : Tx s) (r : Nat) : Tx s :=
  let g := t.now.regionsAt r
  let t := (t.zeroRange g.base (g.size * 2 ^ 21)).dropStreamCaches
  let t := if g.releasing then t.putRegions r {}
    else (t.putRegions r { g with filling := false }).when g.ctx fun t => t.placeContexts g
  let t := t.showRegion r
  let w := t.now.sec.waits.filter (· ≠ r)
  if t.now.sec.waits.contains r then
    if w.isEmpty then (t.putSec { t.now.sec with cmd := 0, waits := [] }).sealEnd .OK
    else t.putSec { t.now.sec with waits := w }
  else t

/-- REGION_FILL_DONE (R292, R512): the fill of a region that is being filled ends; none runs before the ready declaration. -/
def execRegionFillDone (r : Fin 64) (s : State) : Host.Outcome State Fault Refusal :=
  done ((begin s).when (s.ready && (s.regionsAt r).live && (s.regionsAt r).filling) fun t => t.fillDone r)

/-! ### The test port (R427, R533) -/

/-- The IDCODE register: revision letter and digit, part number, manufacturer identity, 1. -/
def State.idcode (s : State) : Nat :=
  (s.fld CHIP.IDENT.REVL % 4) <<< 30 + (s.fld CHIP.IDENT.REVD % 4) <<< 28 + 0x2460 <<< 12 + (Config.jedec % 2 ^ 11) <<< 1 + 1

/-- The instruction the port selects: BYPASS for one that reaches internal state while in service mode or while a domain
exists (R427). -/
def State.jtagSelect (s : State) (i : JtagIr) : JtagIr :=
  match i with
  | .other _ => if s.flag QE.MODE.SERVICE || s.anyDomain then .BYPASS else i
  | _ => i

/-- JTAG_INSTRUCTION (R427, R533): an instruction is loaded; IDCODE selects the identity register for shifting out. -/
def execJtagInstruction (i : JtagIr) (s : State) : Host.Outcome State Fault Refusal :=
  let t := begin s
  let sel := s.jtagSelect i
  let t := t.putSec { t.now.sec with jtag := sel }
  done (t.when (sel = .IDCODE) fun t => t.emit (.reply .jtag 0 (natLe 4 t.now.idcode)))

end Sys2Proof.Machine
end

