-- ==== Sys2Proof/Machine/Errors.lean ====
section
/-!
DEFINITION. Error records as they are read (R475), the fatal state (R484), requested self-tests and cluster retirement (R482,
R483, R487), and the life log (R488 to R491, R508).
-/

namespace Sys2Proof.Machine

variable {s : State}

/-! ### Reads of the error record (R475) -/

/-- ERR_LOG_READ (R475): a read of word `w` of a record. Word 0 latches the other seven; they are read from the latch until
the last is read, or until 64 cycles have passed since (`late`). -/
def execErrLogRead (o : RegFrom) (page : BitVec 14) (w : Fin 8) (late : Bool) (s : State) : Host.Outcome State Fault Refusal :=
  let t := begin s
  match bar0 (4096 * page.toNat) with
  | some (p, n, 0) =>
    if p.isWindow then done (t.answer o .RANGE [])
    else
      let b := p.base n
      let word (k : Nat) : Nat := (t.regsAt (b + 0x40 + 4 * k)).toNat
      let q := t.now.errPagesAt b
      let held := w ≠ 0 && !late && !q.latch.isEmpty
      let v := if held then q.latch.getD (w - 1) 0 else word w
      done (t.readGuarded o p n (0x40 + 4 * w) 4 v fun t =>
        if w = 0 then t.putErrPages b { q with latch := (List.range 7).map fun k => word (k + 1) }
        else if w = 7 || late then t.putErrPages b { q with latch := [] }
        else t)
  | _ => done (t.answer o .RANGE [])

/-! ### The life log (R488, R489, R508) -/

/-- CRC-32C (Castagnoli), bit-reflected, one byte. -/
def crc32cByte (c : Nat) (b : Byte) : Nat :=
  (List.range 8).foldl (fun x _ => if x % 2 = 1 then (x / 2) ^^^ 0x82F63B78 else x / 2) (c ^^^ b.toNat)

/-- CRC-32C of bytes. -/
def crc32c (bs : List Byte) : Nat := (bs.foldl crc32cByte 0xFFFFFFFF) ^^^ 0xFFFFFFFF

/-- 32-bit word `i` of a bank (table "Life-log bank"), its CRC apart; `ident` is CHIP.IDENT. -/
def LifeBank.body (b : LifeBank) (ident i : Nat) : Nat :=
  let half (x k : Nat) : Nat := bits x (32 * k + 31) (32 * k)
  if i = 0 then 0x474F4C4C
  else if i = 1 then 0x0100
  else if i < 4 then half b.gen (i - 2)
  else if i < 6 then half ident (i - 4)
  else if i < 8 then half b.powersec (i - 6)
  else if i = 8 then b.head
  else if i = 10 ∨ i = 11 then half b.events (i - 10)
  else if i = 12 then b.reason
  else if i < 1024 then 0
  else if i < 1280 then half (mapGet 0 b.counts ((i - 1024) / 2)) (i % 2)
  else if i < 1792 then mapGet 0 b.hists (i - 1280)
  else if i < 130816 then half (mapGet 0 b.ring ((i - 1792) / 8)) (i % 8)
  else 0

/-- A word of a bank, the CRC over all the others included. -/
def LifeBank.word (b : LifeBank) (ident i : Nat) : Nat :=
  if i = 1023 then crc32c (wordsBytes (((List.range 131072).filter (· ≠ 1023)).map (b.body ident))) else b.body ident i

/-- The newest valid bank: false for bank 0, true for bank 1 (R489). -/
def LifeLog.newest (l : LifeLog) : Option Bool :=
  match l.bank0.valid, l.bank1.valid with
  | true, true => some (l.bank0.gen < l.bank1.gen)
  | true, false => some false
  | false, true => some true
  | false, false => none

/-- A bank by its number. -/
def LifeLog.bank (l : LifeLog) (k : Bool) : LifeBank := if k then l.bank1 else l.bank0

/-- LIFE.STAT and LIFE.GEN show the log as it is. -/
def Tx.showLife (t : Tx s) : Tx s :=
  let l := t.now.life
  let b := l.snap.or l.newest
  let t := (t.setFld LIFE.STAT.VALID (bnat l.newest.isSome)).setFld LIFE.STAT.BANK (bnat (b.getD false))
  (t.setFld LIFE.STAT.BUSY (bnat l.writing.isSome)).setFld LIFE.GEN.GEN (if l.newest.isSome then (l.bank (b.getD false)).gen else 0)

/-- A waiting bank write starts when none runs and no snapshot holds it (R508). -/
def Tx.startLife (t : Tx s) : Tx s :=
  let l := t.now.life
  match l.waiting, l.writing, l.snap with
  | r :: rs, none, none => (t.putLife { l with waiting := rs, writing := some r }).showLife
  | _, _, _ => t.showLife

/-- Ask for a bank write with a reason: 0 periodic, 1 orderly shutdown, 2 boot, 3 requested. -/
def Tx.lifeWrite (t : Tx s) (reason : Nat) : Tx s :=
  (t.modLife fun l => { l with waiting := l.waiting ++ [reason] }).startLife

/-- Add one sparse count to another, saturating. -/
def addCounts (m : List (Nat × Nat)) (more : List (Nat × Nat)) (cap : Nat) : List (Nat × Nat) :=
  more.foldl (fun m kv => mapInsert m kv.1 (min (mapGet 0 m kv.1 + kv.2) cap)) m

/-- The bank that a write makes of the newest one and what has been gathered (R488 to R490). -/
def LifeLog.image (l : LifeLog) (reason : Nat) : LifeBank :=
  let b : LifeBank := match l.newest with
    | some k => l.bank k
    | none => {}
  let n := b.ring
  let counts := addCounts b.counts l.counts (2 ^ 64 - 1)
  let put (x : LifeBank) (e : Nat) : LifeBank :=
    { x with ring := mapInsert x.ring x.head e, head := (x.head + 1) % 16128, events := x.events + 1 }
  l.events.foldl put { b with valid := true, gen := b.gen + 1, powersec := mapGet 0 counts 0, reason := reason, counts := counts,
                              hists := addCounts b.hists l.hists (2 ^ 32 - 1), ring := n }

/-- LIFELOG_WRITE_DONE (R489): the bank that does not hold the newest valid image is replaced, and what was gathered is
written. -/
def Tx.lifeDone (t : Tx s) : Tx s :=
  let l := t.now.life
  match l.writing with
  | none => t
  | some r =>
    let im := l.image r
    let l := { l with writing := none, counts := [], hists := [], events := [],
                      sinceRequest := if r = 3 then some 0 else l.sinceRequest }
    let l := if l.newest = some false then { l with bank1 := im } else { l with bank0 := im }
    (t.putLife l).startLife

@[inherit_doc Tx.lifeDone] def execLifelogWriteDone (s : State) : Host.Outcome State Fault Refusal :=
  done ((begin s).lifeDone)

/-- LIFELOG_PERIODIC (R489): every 4 h of power-on time a write with REASON 0. -/
def execLifelogPeriodic (s : State) : Host.Outcome State Fault Refusal :=
  done ((begin s).when (!s.fatal && !s.tripped) fun t => t.lifeWrite 0)

/-- LIFE_REQ (R508): a write of 1 to LIFE.CTL.REQ. -/
def Tx.lifeReq (t : Tx s) : Tx s :=
  let l := t.now.life
  if l.writing.isSome then t.setFld LIFE.STAT.STATUS Status.BUSY.code
  else if l.sinceRequest.any (· < 3600) then t.setFld LIFE.STAT.STATUS Status.STATE.code
  else (t.setFld LIFE.STAT.STATUS Status.OK.code).lifeWrite 3

@[inherit_doc Tx.lifeReq] def execLifeReq (o : RegFrom) (s : State) : Host.Outcome State Fault Refusal :=
  done ((begin s).guarded o .LIFE 0 fun t => t.lifeReq)

/-- The snapshot is released with LOST set; a waiting write proceeds (R508). -/
def Tx.lifeSnapLost (t : Tx s) : Tx s :=
  if t.now.life.snap.isSome then
    ((((t.modLife fun l => { l with snap := none }).setFld LIFE.CTL.SNAP 0).setFld LIFE.STAT.LOST 1)).startLife
  else t

/-- LIFE_SNAP (R508): a write of LIFE.CTL.SNAP fixes the bank that BANK names, or releases it. -/
def Tx.lifeSnap (t : Tx s) (on : Bool) : Tx s :=
  let t := t.setFld LIFE.CTL.SNAP (bnat on)
  (t.modLife fun l => { l with snap := if on then l.snap.or (some (l.newest.getD false)) else none }).startLife

@[inherit_doc Tx.lifeSnap] def execLifeSnap (o : RegFrom) (on : Bool) (s : State) : Host.Outcome State Fault Refusal :=
  done ((begin s).guarded o .LIFE 0 fun t => t.lifeSnap on)

/-- LIFE_SNAP_TIMEOUT (R508): 60 s after SNAP was set. -/
def execLifeSnapTimeout (s : State) : Host.Outcome State Fault Refusal := done ((begin s).lifeSnapLost)

/-- LIFE_DATA_READ (R508): word INDEX of the bank, zero with VALID = 0; INDEX goes up by one and wraps. -/
def execLifeDataRead (o : RegFrom) (s : State) : Host.Outcome State Fault Refusal :=
  let l := s.life
  let i := s.fld LIFE.IDX.INDEX
  let w := if l.newest.isNone then 0 else (l.bank ((l.snap.or l.newest).getD false)).word (s.regSpan ((Page.CHIP).base 0 + 0x100) 2) i
  done ((begin s).readGuarded o .LIFE 0 0x114 4 w fun t => t.setFld LIFE.IDX.INDEX ((i + 1) % 2 ^ 17))

/-! ### Histograms (R491) -/

/-- The bin of a linear histogram: bin 0 takes what lies below, bin 15 what lies above. -/
def linearBin (lo w x : Int) : Nat := if x < lo then 0 else min 15 ((x - lo) / w).toNat

/-- The bin of histogram 31. -/
def countBin (n : Nat) : Nat := if n = 0 then 0 else min 15 (n.log2 + 1)

/-- A sensor of the last scan, signed. -/
def State.sensor (s : State) (n : Nat) : Int := signed (s.fld GLM.SENSOR.VALUE 0 n) 16

/-- Are both dies without power? -/
def State.diesOff (s : State) : Bool := s.slumber || s.tripped

/-- Mean operating point of a half, rounded down. -/
def State.meanOp (s : State) (h : Nat) : Nat := ((List.range 32).map fun k => s.fld PWR.DVFS.CUR 0 (32 * h + k)).foldl (· + ·) 0 / 32

/-- The bin each histogram adds to; `shares` are the eight shares of indices 23 to 30 in hundredths of a percent. -/
def State.histBins (s : State) (shares : List Nat) : List Nat :=
  let on (x : Int) : Int := if s.diesOff then 0 else x
  let deg (lo w x : Int) : Nat := linearBin (64 * lo) (64 * w) x
  let hbm := (List.range 12).map fun k => s.sensor (72 + k)
  [deg 25 6 (on (signed (s.fld GLM.CHAN.VALUE 0 0) 16)), deg 25 5 (hbm.foldl max (-32768)),
   linearBin 0 1250 (s.sensor 84), linearBin 575 25 (on (s.sensor 64)), linearBin 575 25 (on (s.sensor 66)),
   linearBin 0 1 (s.fld GLM.STAT.STATE), linearBin 0 1 (s.fld PWR.CAPCTL.SKIP), linearBin 0 1 (on (s.meanOp 0)),
   linearBin 0 1 (on (s.meanOp 1)), deg 25 5 (s.sensor 95), deg 25 5 (on (s.sensor 94))]
  ++ hbm.map (deg 25 5)
  ++ (List.range 8).map (fun k => linearBin 0 625 (on (shares.getD k 0)))
  ++ [countBin s.life.perturbed]

/-- HISTOGRAM_SAMPLE (R491): every 60 s of power-on time each histogram adds 1 to one bin. The life log's clock advances by the
same 60 s (log entry 42). -/
def execHistogramSample (shares : List Nat) (s : State) : Host.Outcome State Fault Refusal :=
  let t := begin s
  let bs := (s.histBins shares).zipIdx.map fun b => (16 * b.2 + b.1, 1)
  let t := t.modLife fun l =>
    { l with hists := addCounts l.hists bs (2 ^ 32 - 1), perturbed := 0, sinceRequest := l.sinceRequest.map (· + 60) }
  let t := t.lifeCount 0 60
  done (t.putTests { t.now.tests with
    faults := (t.now.tests.faults.map fun f => (f.1, f.2 + 1)).filter fun f => f.2 < 1440 })

/-- CECFG_WRITE (R493): from the next patrol period; 0 in either field is refused. -/
def Tx.cecfg (t : Tx s) (cethr patrol : Nat) : Tx s :=
  if cethr = 0 || patrol = 0 then t.logStatus .ERRSYS 0 .RANGE
  else t.writeDeferred (ERRSYS.CECFG.CETHR.addr 0 0) (BitVec.ofNat 32 (cethr <<< 16 + patrol))

@[inherit_doc Tx.cecfg] def execCecfgWrite (o : RegFrom) (cethr : BitVec 8) (patrol : BitVec 16) (s : State) :
    Host.Outcome State Fault Refusal :=
  done ((begin s).guarded o .ERRSYS 0 fun t => t.cecfg cethr.toNat patrol.toNat)

/-! ### The fatal state (R484) -/

/-- The module's power state by its clusters' states (R454). -/
def moduleState (m : Nat) : Nat :=
  let st (cl : Nat) : Nat := bits m (2 * cl + 1) (2 * cl)
  if (List.range 8).any fun cl => st cl = 0 then 0 else if (List.range 8).any fun cl => st cl = 1 then 1 else 2

/-- Set a cluster's power state; the module's follows, unless it is in SLUMBER (R454). -/
def Tx.setClusterPower (t : Tx s) (cl st : Nat) : Tx s :=
  let m := setBits (t.fld PWR.STATE.CLUSTER) (2 * cl + 1) (2 * cl) st
  let t := t.setFld PWR.STATE.CLUSTER m
  if t.now.slumber then t else t.setFld PWR.STATE.MODULE (moduleState m)

/-- Power is removed from a cluster's tile islands; SRAM loses its contents. -/
def Tx.cutTiles (t : Tx s) (cl st : Nat) : Tx s :=
  let t := t.forEach (List.range 8) fun t p => (t.loseTile (8 * cl + p)).zeroRange (spadBase (8 * cl + p)) spadBytes
  (t.loseCluster cl).setClusterPower cl st

/-- The module enters the fatal state (R484); a life-log write in progress is abandoned (R492). -/
def Tx.fatal (t : Tx s) (cause : Nat) : Tx s :=
  if t.now.fatal then t
  else
    let e : Err := { status := .ABORTED, cls := 3 }
    let t := t.putLife { t.now.life with fatal := some (errRecord t.now e), writing := none, waiting := [] }
    let t := (t.logError .ERRSYS 0 e).raiseIrq .ERRSYS 0 2
    let t := (t.setFld ERRSYS.STATE.FATAL 1).setFld ERRSYS.STATE.CAUSE cause
    let t := (t.forEach (List.range 8) fun t cl => t.cutTiles cl 3).eraseDomains
    ((t.emit (.pin "ALERT_N" false)).emit .aer).showLife

/-- FATAL_FAULT (R484): a fault of SEC (1) or PMC (2), or a failed known-answer test of the hash unit, Serge or an XTS engine (3
to 5). In stage 0x20 boot has failed (R515). -/
def execFatalFault (cause : Fin 5) (s : State) : Host.Outcome State Fault Refusal :=
  done ((begin s).when (!s.tripped) fun t =>
    (t.when (!s.ready && s.fld RESET.BOOT.STAGE ≤ 0x20 && !s.fatal) fun t => t.setFld RESET.BOOT.STAGE 0xFE).fatal (cause + 1))

/-! ### Containment (R482, R483) -/

/-- A cluster retires (R483): its records complete ABORTED, a sealed one is wiped, and it leaves the enabled mask at the first
boundary with nothing dispatched on it. -/
def Tx.retire (t : Tx s) (cl : Nat) : Tx s :=
  if bit t.now.tests.retiring cl || bit (t.fld ERRSYS.STATE.RETIRED) cl then t
  else
    let t := if (t.now.domainOfCluster cl).isSome then t.wipeCluster cl
      else t.forEach (t.now.recordsOn cl) fun t r => t.abortRecordOn r cl
    let t := t.putTests { t.now.tests with retiring := t.now.tests.retiring + 2 ^ cl }
    t.lifeEvent (errRecord t.now { status := .ABORTED, cls := 3, detail := 64 + cl })

/-- An uncorrected fault of a cluster's fabric, Muslin or constant memory (R482). -/
def Tx.clusterFault (t : Tx s) (cl : Nat) : Tx s :=
  if t.now.tests.faults.any (·.1 = cl) then t.retire cl
  else
    let t := t.forEach (t.now.recordsOn cl) fun t r => t.abortRecordOn r cl
    let x := t.now.tests
    t.putTests { x with faults := x.faults ++ [(cl, 0)], resets := x.resets ||| 2 ^ cl }

/-! ### Requested tests (R487) -/

/-- Are the targets of a test legal: clusters; Muslin, hash unit, Serge and XTS engines; a stack 0 to 11 or group 16 to 31; a
link 0 to 23? -/
def testTarget (test target : Nat) : Bool :=
  match test with
  | 1 => target ≠ 0 && target < 256
  | 2 => target ≠ 0 && target < 2 ^ 22
  | 3 => target < 12 || (16 ≤ target && target < 32)
  | 4 => target < 24
  | _ => true

/-- A write of ERRSYS.STREQ with a test of 1 to 5. -/
def Tx.testReq (t : Tx s) (test target : Nat) : Tx s :=
  if t.flag ERRSYS.STSTAT.BUSY then t.logStatus .ERRSYS 0 .BUSY
  else
    let t := t.setFld ERRSYS.STREQ.TARGET target
    let held := (clustersOf target).filter fun cl => t.flag (HDR.OWNER.HOLD .CLUSTER) cl
    if !testTarget test target then t.setFld ERRSYS.STSTATUS.STATUS Status.RANGE.code
    else if test = 1 && !held.isEmpty then
      let t := t.forEach held fun t cl => t.logStatus .CLUSTER cl .DENIED
      (((t.logStatus .SEC 0 .DENIED).bump SEC.DENYCNT.POWER).setFld ERRSYS.STSTATUS.STATUS Status.DENIED.code)
    else
      let t := ((t.setFld ERRSYS.STSTAT.BUSY 1).setFld ERRSYS.STSTAT.TEST test).setFld ERRSYS.STSTAT.FAIL 0
      (t.setFld ERRSYS.STSTATUS.STATUS 0).putTests { t.now.tests with test := test, target := target, started := test ≠ 1 }

/-- LBIST (R487): test 1 on a mask of clusters; it starts at the first boundary with nothing dispatched on them. -/
def execLbist (o : RegFrom) (target : BitVec 24) (s : State) : Host.Outcome State Fault Refusal :=
  done ((begin s).guarded o .ERRSYS 0 fun t => t.testReq 1 target.toNat)

/-- KAT (R487): test 2 on Muslin, the hash unit, Serge and XTS engines. -/
def execKat (o : RegFrom) (target : BitVec 24) (s : State) : Host.Outcome State Fault Refusal :=
  done ((begin s).guarded o .ERRSYS 0 fun t => t.testReq 2 target.toNat)

/-- PATROL (R487): test 3, one patrol pass of a stack or group. -/
def execPatrol (o : RegFrom) (target : BitVec 24) (s : State) : Host.Outcome State Fault Refusal :=
  done ((begin s).guarded o .ERRSYS 0 fun t => t.testReq 3 target.toNat)

/-- MARGIN (R487): test 4, the lane eye margins of a link. -/
def execMargin (o : RegFrom) (target : BitVec 24) (s : State) : Host.Outcome State Fault Refusal :=
  done ((begin s).guarded o .ERRSYS 0 fun t => t.testReq 4 target.toNat)

/-- SENSOR (R487): test 5, every sensor against its reference in the next scan. -/
def execSensor (o : RegFrom) (target : BitVec 24) (s : State) : Host.Outcome State Fault Refusal :=
  done ((begin s).guarded o .ERRSYS 0 fun t => t.testReq 5 target.toNat)

/-- What a failing target of a test brings about (R482): LBIST retires the cluster; a Muslin is a fault of its cluster; the hash
unit, Serge and the XTS engines put the module in the fatal state. -/
def Tx.testFail (t : Tx s) (test k : Nat) : Tx s :=
  if test = 1 then t.retire k
  else if test = 2 then
    if k < 8 then t.clusterFault k
    else if k = 8 then t.fatal 3 else if k = 9 then t.fatal 4 else if 10 ≤ k && k < 22 then t.fatal 5 else t
  else t

/-- SELFTEST_DONE (R487): the test that runs ends with a mask of failing targets; MARGIN with the eye margins it measured, which
need the link UP. -/
def execSelftestDone (fail : BitVec 24) (margins : List Nat) (s : State) : Host.Outcome State Fault Refusal :=
  let t := begin s
  let x := s.tests
  if !s.flag ERRSYS.STSTAT.BUSY || !x.started then done t
  else if x.test = 4 && s.fld LINK.STAT.STATE x.target ≠ 3 then done t
  else
    let f := if x.test ≤ 2 then fail.toNat &&& x.target else fail.toNat
    let t := ((t.setFld ERRSYS.STSTAT.BUSY 0).setFld ERRSYS.STSTAT.FAIL f).setFld ERRSYS.STSTATUS.STATUS 0
    let t := t.putTests { x with test := 0, target := 0, started := false }
    let t := t.when (x.test = 4) fun t => t.modLinks x.target fun l => { l with margins := margins }
    let t := t.when (x.test = 1) fun t => t.forEach (clustersOf x.target) fun t cl =>
      t.forEach (List.range 8) fun t p => t.loseTile (8 * cl + p)
    let t := t.forEach ((List.range 24).filter (bit f)) fun t k => t.testFail x.test k
    done (t.raiseIrq .ERRSYS 0 4)

end Sys2Proof.Machine
end

