-- ==== Sys2Proof/Machine/Tiers.lean ====
section
/-!
DEFINITION. The memory controllers (ch. 12, 20): regulator writes (R287), one line request (R284 to R286) with its line check (R478 to
R481, R486), calibration (R298), patrol (R480), OFFLINE ranges and MAINT (R300), lending (R293, R294), the IEEE 1500
wrapper (R300, R302).
-/

namespace Sys2Proof.Machine

variable {s : State}

/-- A MEMC page controller number: 0 to 11 stacks, 12 to 27 far groups. -/
abbrev MemNo := Fin 28

/-- Is some record dispatched on a cluster of the mask (R25)? -/
def State.dispatchedOn (s : State) (mask : Nat) : Bool :=
  s.records.any fun r => r.2.stage = .dispatched && r.2.clusters &&& mask ≠ 0

/-! ### Line checks (R478 to R481, R486) -/

/-- The memory kind of a controller (R477). -/
def memKind (m : Nat) : Nat := if m < 12 then 5 else 6

/-- Log a fault of a line at its controller: class, source code and DETAIL of R475. -/
def Tx.lineFault (t : Tx s) (m cls src a symbol count : Nat) : Tx s :=
  t.logError .MEMC m { status := if cls = 2 then .POISON else .OK, cls := cls, src := src,
                       addr := t.now.globalLine a, detail := memKind m + symbol <<< 8 + count <<< 16 }

/-- A corrected error in a row: counted, and at CETHR the row is at its threshold (R481): ERRSYS interrupt, soft repair
where it is enabled and a spare remains (R301), and a second log entry. -/
def Tx.correctedRow (t : Tx s) (m src a symbol row : Nat) (spare : Bool) : Tx s :=
  let n := mapGet 0 (t.now.memctlAt m).rows row + 1
  let t := (t.modMemctl m fun q => { q with rows := mapInsert q.rows row n }).lineFault m 1 src a symbol n
  if n = t.fldEff ERRSYS.CECFG.CETHR then
    let t := t.raiseIrq .ERRSYS 0 3
    let t := if spare && t.flag MEMC.RPR.SPPR_EN m then
        (t.bump MEMC.RPR.SOFT 1 m).lifeCount (if m < 12 then 124 else 125)
      else t
    t.lineFault m 1 src a 0xFE n
  else t

/-- Lines of a far group on its poison list (R477). -/
def State.poisonList (s : State) (m : Nat) : Nat :=
  (s.poison.filter fun kv => s.isFar (64 * kv.1) && s.controllerOf (64 * kv.1) = m).length

/-- A far group fails: the far range of its half is refused from now on (R297, R479). -/
def Tx.farFails (t : Tx s) (m : Nat) : Tx s :=
  let half := (m - 12) / 8
  let ok := t.fld MEMSYS.FARCFG.HALFOK
  ((t.setFld MEMC.STAT.STATE 5 m).modMemctl m fun q => { q with failed := true }).setFld MEMSYS.FARCFG.HALFOK (if bit ok half then ok - 2 ^ half else ok)

/-- A line that cannot be corrected: poisoned and logged once (R478); a far group's full list makes it a UCF (R479). -/
def Tx.lineLost (t : Tx s) (m src a : Nat) : Tx s :=
  if t.poisonAt (a / 64) then t
  else if 12 ≤ m && 1024 ≤ t.now.poisonList m then
    (t.logError .MEMC m { status := .ABORTED, cls := 3, src := src, addr := t.now.globalLine a }).farFails m
  else (t.lineFault m 2 src a 0xFF 0).putPoison (a / 64) true

/-- What the check of a read line does. -/
def Tx.lineCheck (t : Tx s) (m src a : Nat) : LineCheck → Tx s
  | .ok => t
  | .corrected sym row spare => t.correctedRow m src a sym.toNat row spare
  | .retried row spare => t.correctedRow m src a 0 row spare
  | .bad => t.lineLost m src a

/-- Perform one line request and answer it. -/
def Tx.performLine (t : Tx s) (m : Nat) (r : LineReq) (chk : LineCheck) : Tx s :=
  let reply (t : Tx s) (st : Status) (bs : List Byte) : Tx s := t.emit (.reply .noc st.code bs)
  match r.op with
  | .write bs =>
    let bs := bs.take (64 - r.a % 64)
    reply ((t.countLine m true).writeLine r.who r.a bs) (t.now.writeStatus r.who r.a bs.length) []
  | .read n =>
    match t.now.access r.who r.a with
    | .OK =>
      let t := (t.countLine m false).lineCheck m 0 r.a chk
      if t.poisonAt (r.a / 64) then reply t .POISON [] else reply t .OK (t.now.read r.a (min n (64 - r.a % 64)))
    | st => reply (t.logAccess r.a st false) st []

/-- The controller performs the line that a transfer of a tile waits for, with the check of a line read, and the transfer moves on. -/
def Tx.serveTransfer (t : Tx s) (m i id : Nat) (r : LineReq) (chk : LineCheck) : Tx s :=
  match (t.tilesAt i).transfer id with
  | some v =>
    if v.next < v.lines && v.lineReq i = r then
      let t := t.when (!v.out) fun t => t.lineCheck m 0 r.a chk
      ((t.countLine m v.out).moveLine i v r.a).pump i id (v.lines + 1)
    else t
  | none => t

/-- MEM_LINE_SERVE (R284, R286): `n` line slots have passed at controller `m`; the request is served, or waits.
`contended`: beside what waits there, a request of another partition that holds a token arrives. -/
def execMemLineServe (m : MemNo) (r : LineReq) (n : Nat) (contended : Bool) (chk : LineCheck) (s : State) :
    Host.Outcome State Fault Refusal :=
  let t := begin s
  if !(isNear r.a || s.isFar r.a) || s.controllerOf r.a ≠ m then done t
  else
    let t := t.modMemctl m fun q => { q with tokens := s.refill m n q.tokens }
    let q := t.now.memctlAt m
    if r.xfer.isSome && !q.waiting.contains r then done t
    else
      match t.now.grants m q r contended with
      | some tok =>
        let t := t.putMemctl m { q with tokens := tok, waiting := q.waiting.erase r }
        match r.who, r.xfer with
        | .tile i, some id => done (t.serveTransfer m i id r chk)
        | _, _ => done (t.performLine m r chk)
      | none => if q.waiting.contains r then done t else done (t.lineWaits m r)

/-- Write a regulator of a controller, or PARTMAP (R287): from the next epoch boundary; RATE 0 with WC 0 is discarded. -/
def Tx.regulatorWrite (t : Tx s) (m : Option (MemNo × Fin 8)) (v : Word) : Tx s :=
  match m with
  | some (m, p) =>
    if !bit v.toNat 31 && bits v.toNat 24 16 = 0 then t.logStatus .MEMC m .RANGE
    else t.writeDeferred (MEMC.REG.WC.addr m p) v
  | none => t.writeDeferred (MEMSYS.PARTMAP.MAP.addr 0 0) (v &&& 0x77777777)

/-- REGULATOR_WRITE (R287): a controller's regulator, or PARTMAP. -/
def execRegulatorWrite (o : RegFrom) (m : Option (MemNo × Fin 8)) (v : Word) (s : State) :
    Host.Outcome State Fault Refusal :=
  done (match m with
    | some (c, p) => (begin s).guarded o .MEMC c fun t => t.regulatorWrite (some (c, p)) v
    | none => (begin s).guarded o .MEMSYS 0 fun t => t.regulatorWrite none v)

/-! ### Calibration and patrol (R298, R480) -/

/-- Channels of a controller: 64 pseudo-channels of a stack, 4 channels of a group. -/
def memChannels (m : Nat) : Nat := if m < 12 then 64 else 4

/-- CALIBRATION (R298): at an epoch boundary the next channel in rotation, one for each boundary (log entry 72); a controller that is not
READY calibrates nothing. -/
def execCalibration (m : MemNo) (s : State) : Host.Outcome State Fault Refusal :=
  let t := begin s
  if t.fld MEMC.STAT.STATE m ≠ 2 || (t.now.memctlAt m).calEpoch = s.epochCount then done t
  else done ((t.modMemctl m fun q => { q with nextCal := (q.nextCal + 1) % memChannels m, calEpoch := s.epochCount }).bump
    MEMC.CALCNT.CAL 1 m)

/-- Has the temperature moved by more than 20 °C since the controller's training (R298)? -/
def MemCtl.moved (q : MemCtl) (temp : Nat) : Bool := q.trainTemp.any fun r => 20 < max r temp - min r temp

/-- THERMAL_RETRAIN (R298): a stack reports a temperature; more than 20 °C from its last training it retrains. The first report after
a full training is taken as the temperature of that training (log entry 72). -/
def execThermalRetrain (m : Fin 12) (temp : BitVec 8) (s : State) : Host.Outcome State Fault Refusal :=
  let t := (begin s).setFld MEMC.STAT.TEMP temp.toNat m
  let q := t.now.memctlAt m
  if t.fld MEMC.STAT.STATE m ≠ 2 then done t
  else
    done ((t.putMemctl m { q with trainTemp := some (if q.moved temp.toNat then temp.toNat else q.trainTemp.getD temp.toNat) }).when
      (q.moved temp.toNat) fun t => t.bump MEMC.CALCNT.RETRAIN 1 m)

/-- PATROL_PASS (R480): a new patrol period starts at the controller with CECFG as written (R493), and every line is read;
`found` lists the lines that do not check. Lines of regions under fill and of other controllers are skipped. -/
def Tx.patrolPass (t : Tx s) (m : Nat) (found : List (Nat × LineCheck)) : Tx s :=
  let t := (t.commitWord (ERRSYS.CECFG.CETHR.addr 0 0)).modMemctl m fun q => { q with rows := [] }
  t.forEach found fun t f =>
    if !(isNear f.1 || t.now.isFar f.1) || t.now.controllerOf f.1 ≠ m || (t.now.regionOf f.1).any (·.filling) then t
    else t.lineCheck m 2 f.1 f.2

@[inherit_doc Tx.patrolPass] def execPatrolPass (m : MemNo) (found : List (Nat × LineCheck)) (s : State) :
    Host.Outcome State Fault Refusal :=
  done ((begin s).patrolPass m found)

/-! ### OFFLINE ranges (R300) -/

/-- First byte and length of the ranges of HALFCTL: near West, near East, far West, far East. -/
def State.halfRange (s : State) (b : Nat) : Nat × Nat :=
  if b < 2 then (b * 0x4800000000, 0x4800000000) else (farBase + (b - 2) * (s.farSize / 2), s.farSize / 2)

/-- Controllers of a HALFCTL range. -/
def halfControllers (b : Nat) : List Nat :=
  if b < 2 then (List.range 6).map (6 * b + ·) else (List.range 8).map (12 + 8 * (b - 2) + ·)

/-- May the range go OFFLINE (R300)? -/
def State.mayOffline (s : State) (b : Nat) : Bool :=
  let r := s.halfRange b
  !s.dispatchedOn 0xFF && !(s.regions.any fun g => g.2.live && g.2.base < r.1 + r.2 && r.1 < g.2.base + g.2.size * 2 ^ 21) &&
  !(2 ≤ b && s.lentRange.1 < s.lentRange.2 && s.lentRange.1 < r.1 + r.2 && r.1 < s.lentRange.2)

/-- The requests that wait at a controller are performed, in their order (R300); those of a transfer ask anew. -/
def Tx.drainLines (t : Tx s) (m : Nat) : Tx s :=
  (t.forEach ((t.now.memctlAt m).waiting.filter (·.xfer.isNone)) fun t r => t.performLine m r .ok).modMemctl m fun q =>
    { q with waiting := [] }

/-- A controller enters MAINT, with what waits there performed first (R300). -/
def Tx.toMaint (t : Tx s) (m : Nat) : Tx s := (t.drainLines m).setFld MEMC.STAT.STATE 4 m

/-- A controller leaves MAINT: READY, or FAILED where its training failed (R297). -/
def Tx.fromMaint (t : Tx s) (m : Nat) : Tx s :=
  if t.fld MEMC.STAT.STATE m = 4 then t.setFld MEMC.STAT.STATE (if (t.now.memctlAt m).failed then 5 else 2) m else t

/-- One range goes OFFLINE with its controllers in MAINT, or ONLINE with its contents as memory nothing has written
(log entry 5). The near range of a half with a FAILED stack is OFFLINE without a request; its controllers go to MAINT and return by
HALFCTL, and it stays OFFLINE (R297). -/
def Tx.setHalf (t : Tx s) (b : Nat) (off : Bool) : Tx s :=
  let cur := t.fld MEMSYS.HALFCTL.OFFLINE
  let ms := halfControllers b
  if off then
    if bit cur b && ms.all (fun m => t.fld MEMC.STAT.STATE m = 4) then t
    else if t.now.mayOffline b then
      (t.forEach ms fun t m => t.toMaint m).setFld MEMSYS.HALFCTL.OFFLINE (if bit cur b then cur else cur + 2 ^ b)
    else t.logStatus .MEMSYS 0 .STATE
  else if !bit cur b then t
  else
    let t := t.forEach ms fun t m => t.fromMaint m
    if b < 2 && ms.any (fun m => (t.now.memctlAt m).failed) then t
    else
      (t.setFld MEMSYS.HALFCTL.OFFLINE (cur - 2 ^ b)).zeroRange (t.now.halfRange b).1 (t.now.halfRange b).2

/-- Write HALFCTL.REQ (R300, R302). -/
def Tx.halfCtl (t : Tx s) (req : Nat) : Tx s :=
  (t.setFld MEMSYS.HALFCTL.REQ req).forEach (List.range 4) fun t b => t.setHalf b (bit req b)

/-- HALFCTL_WRITE (R300). -/
def execHalfctlWrite (o : RegFrom) (req : BitVec 4) (s : State) : Host.Outcome State Fault Refusal :=
  done ((begin s).guarded o .MEMSYS 0 fun t => t.halfCtl req.toNat)

/-! ### Lending (R293, R294) -/

/-- Write LEND: STATE while the CXL.mem decoder is committed; RANGE beyond the far tier, in an untrained half or over a
sealed region; else from the end of the zero fill. -/
def Tx.lend (t : Tx s) (base size : Nat) : Tx s :=
  let lo := farBase + base * 2 ^ 30
  let hi := lo + size * 2 ^ 30
  let half (h : Nat) : Bool := size ≠ 0 && lo < farBase + (h + 1) * (t.now.farSize / 2) && farBase + h * (t.now.farSize / 2) < hi
  if t.now.cxl.committed then t.logStatus .MEMSYS 0 .STATE
  else if t.fld MEMSYS.FARCFG.SIZE < base + size ||
      (List.range 2).any (fun h => half h && !bit (t.fld MEMSYS.FARCFG.HALFOK) h) ||
      t.now.regions.any (fun g => g.2.live && size ≠ 0 && g.2.base < hi && lo < g.2.base + g.2.size * 2 ^ 21) then
    t.logStatus .MEMSYS 0 .RANGE
  else t.writeDeferred (MEMSYS.LEND.BASE.addr 0 0) (BitVec.ofNat 32 (2 ^ 31 + size <<< 20 + base))

/-- LEND_WRITE (R293). -/
def execLendWrite (o : RegFrom) (base : BitVec 10) (size : BitVec 11) (s : State) : Host.Outcome State Fault Refusal :=
  done ((begin s).guarded o .MEMSYS 0 fun t => t.lend base.toNat size.toNat)

/-- The number under which the range lent before a WARM reset is kept until its fill ends (R512). -/
def lentRegion : Nat := 64

/-- LEND_FILL_DONE (R294, R512): granules that enter or leave the lent range are zero, and the range takes effect; the range lent
before a WARM reset is zero and ordinary memory again, and a LEND written meanwhile still has its own fill before it. -/
def execLendFillDone (s : State) : Host.Outcome State Fault Refusal :=
  let t := begin s
  let g := s.regionsAt lentRegion
  if !t.flag MEMSYS.LEND.BUSY || !s.ready then done t
  else if g.live then
    done (((t.zeroRange g.base (g.size * 2 ^ 21)).putRegions lentRegion {}).setFld MEMSYS.LEND.BUSY
      (bnat (t.now.deferredAt (MEMSYS.LEND.BASE.addr 0 0)).isSome))
  else
    let old := t.now.lentRange
    let t := t.commitWord (MEMSYS.LEND.BASE.addr 0 0)
    let new := t.now.lentRange
    let zero (t : Tx s) (a b : Nat) : Tx s := t.zeroRange a (b - a)
    -- the parts of each range outside the other
    let t := zero (zero t old.1 (min old.2 (max old.1 new.1))) (max old.1 (min old.2 new.2)) old.2
    let t := zero (zero t new.1 (min new.2 (max new.1 old.1))) (max new.1 (min new.2 old.2)) new.2
    done (t.setFld MEMSYS.LEND.BUSY 0)

/-! ### The IEEE 1500 wrapper (R300, R302) -/

/-- A secure-world write to a wrapper register of a stack in MAINT; DENIED and STATE otherwise (R302). -/
def Tx.wrapper (t : Tx s) (o : RegFrom) (m : Nat) (maint : Bool) (f : Tx s → Tx s) : Tx s :=
  t.guarded o .MEMC m fun t =>
    if o.world = .normal then t.logStatus .MEMC m .DENIED
    else if maint && t.fld MEMC.STAT.STATE m ≠ 4 then t.logStatus .MEMC m .STATE
    else f t

/-- Start a shift of `len` bits of the instruction or data register. -/
def Tx.shift (t : Tx s) (m op len : Nat) : Tx s :=
  ((t.setFld MEMC.T1500CTL.LEN len m).setFld MEMC.T1500CTL.BUSY (bnat (len ≠ 0 && op ≠ 0)) m).modMemctl m fun q =>
    if op = 0 then q else { q with shiftOp := op, shiftLeft := len, shiftIn := [] }

/-- T1500_SHIFT_IR: T1500CTL with OP 1. -/
def execT1500ShiftIr (o : RegFrom) (m : Fin 12) (len : BitVec 16) (s : State) : Host.Outcome State Fault Refusal :=
  done ((begin s).wrapper o m true fun t => t.shift m 1 len.toNat)

/-- T1500_SHIFT_DR: T1500CTL with OP 2. -/
def execT1500ShiftDr (o : RegFrom) (m : Fin 12) (len : BitVec 16) (s : State) : Host.Outcome State Fault Refusal :=
  done ((begin s).wrapper o m true fun t => t.shift m 2 len.toNat)

/-- The next 32 bits of a shift go to the stack's wrapper, which shifts `back` out; a shift that has all its bits ends,
and what went in is seen at the stack. -/
def Tx.shiftData (t : Tx s) (m v back : Nat) : Tx s :=
  let q := t.now.memctlAt m
  if q.shiftLeft = 0 then t.setFld MEMC.T1500DATA.DATA v m
  else
    let ws := q.shiftIn ++ [v]
    let t := (t.setFld MEMC.T1500DATA.DATA back m).putMemctl m { q with shiftLeft := q.shiftLeft - 32, shiftIn := ws }
    if q.shiftLeft ≤ 32 then (t.setFld MEMC.T1500CTL.BUSY 0 m).emit (.reply .t1500 q.shiftOp (wordsBytes ws)) else t

/-- T1500DATA_WRITE (R302). -/
def execT1500dataWrite (o : RegFrom) (m : Fin 12) (v back : BitVec 32) (s : State) : Host.Outcome State Fault Refusal :=
  done ((begin s).wrapper o m false fun t => t.shiftData m v.toNat back.toNat)

end Sys2Proof.Machine
end

