-- ==== Sys2Proof/Machine/Power.lean ====
section
/-!
DEFINITION. Power states (R454 to R458), the power cap (R459 to R461), the brake (R463), and events of the regulator bus and
the always-on clock (R526, R529).
-/

namespace Sys2Proof.Machine

variable {s : State}

/-! ### Pins -/

/-- Is THERM_N asserted (low): by the Gloaming state or by a trip (R464, R469)? -/
def State.thermLow (s : State) : Bool := s.tripped || s.flag GLM.SOUT.THERM 0 (s.fld GLM.STAT.STATE)

/-- Is ALERT_N asserted: by the Gloaming state, the PMC or the fatal state (R469, R484)? -/
def State.alertLow (s : State) : Bool :=
  s.fatal || s.flag PWR.CAPCTL.ALERT || s.flag GLM.SOUT.ALERT 0 (s.fld GLM.STAT.STATE)

/-- After an update, the pins whose level has changed. -/
def Tx.pins (t : Tx s) (f : Tx s → Tx s) : Tx s :=
  let u := f t
  let u := u.when (t.now.thermLow ≠ u.now.thermLow) fun v => v.emit (.pin "THERM_N" !v.now.thermLow)
  u.when (t.now.alertLow ≠ u.now.alertLow) fun v => v.emit (.pin "ALERT_N" !v.now.alertLow)

/-! ### Clusters -/

/-- Is a record admitted and placed on a cluster of the mask, or dispatched there? -/
def State.placedOn (s : State) (mask : Nat) : Bool :=
  s.records.any fun r => (r.2.stage = .admitted || r.2.stage = .dispatched) && r.2.clusters &&& mask ≠ 0

/-- A cluster enters DOZE (R454, R456). A record placed on it meanwhile wakes it (R455). -/
def Tx.enterDoze (t : Tx s) (cl : Nat) : Tx s :=
  let t := (t.forEach (List.range 8) fun t p => t.loseTile (8 * cl + p)).setClusterPower cl 2
  let t := t.modClusters cl fun c => { c with idleEpochs := 0, gated := false }
  t.when (t.now.placedOn (2 ^ cl)) fun t => t.putPower { t.now.power with waking := t.now.power.waking ||| 2 ^ cl }

/-- A cluster in DOZE is asked to wake (R455). -/
def Tx.wakeCluster (t : Tx s) (cl : Nat) : Tx s :=
  if t.now.clusterPower cl = 2 then t.putPower { t.now.power with waking := t.now.power.waking ||| 2 ^ cl } else t

/-- CLUSTER_IDLE_ENTRY (R454): a cluster with nothing dispatched gates its clocks. -/
def execClusterIdleEntry (cl : Fin 8) (s : State) : Host.Outcome State Fault Refusal :=
  done ((begin s).when (s.clusterPower cl = 0 && (s.recordsOn cl).isEmpty) fun t =>
    (t.setClusterPower cl 1).modClusters cl fun c => { c with gated := true })

/-- CLUSTER_UNGATE (R455): an IDLE cluster ungates its clocks before a boundary. -/
def execClusterUngate (cl : Fin 8) (s : State) : Host.Outcome State Fault Refusal :=
  done ((begin s).when (s.clusterPower cl = 1) fun t => t.modClusters cl fun c => { c with gated := false })

/-- DOZE_TIMEOUT (R454, R455): after 256 · DOZETMO idle epochs the PMC takes an IDLE cluster without HOLD into DOZE. -/
def execDozeTimeout (cl : Fin 8) (s : State) : Host.Outcome State Fault Refusal :=
  let tmo := s.fld PWR.CAPCTL.DOZETMO
  let held := s.flag (HDR.OWNER.HOLD .CLUSTER) cl || (List.range 8).any fun p => s.flag (HDR.OWNER.HOLD .TILE) (8 * cl + p)
  done ((begin s).when (tmo ≠ 0 && s.clusterPower cl = 1 && 256 * tmo ≤ (s.clustersAt cl).idleEpochs && !held &&
    !s.placedOn (2 ^ cl.val)) fun t => t.enterDoze cl)

/-! ### Requests (R458) -/

/-- The first failing check of a power request with the target page of a refusal at step 2, or OK. -/
def State.powerCheck (s : State) (target mask : Nat) : Status :=
  if 3 < target || (mask = 0 && (target = 0 || target = 2)) then .RANGE
  else if target = 2 then
    if (clustersOf mask).any fun cl => s.flag (HDR.OWNER.HOLD .CLUSTER) cl then .DENIED
    else if s.placedOn mask then .STATE else .OK
  else if target = 3 then
    if s.anyDomain then .DENIED
    else if s.records.any (fun r => r.2.stage ≠ .none) || (List.range 64).any (fun i => s.runState i = runSaved) ||
        s.cxl.committed || s.brake then .STATE
    else .OK
  else .OK

/-- A write of PWR.REQ (R458): discarded while BUSY; a failed request changes nothing but its reports; else the transition
starts. SLUMBER first writes the life log with REASON 1 (R489, R508). -/
def Tx.pwrReq (t : Tx s) (target mask : Nat) : Tx s :=
  if t.flag PWR.REQSTAT.BUSY then t.logStatus .PWR 0 .BUSY
  else
    match t.now.powerCheck target mask with
    | .OK =>
      let t := (t.setFld PWR.REQSTAT.STATUS 0).setFld PWR.REQSTAT.BUSY 1
      let t := t.putPower { t.now.power with trans := some (target, mask) }
      t.when (target = 3) fun t => (t.lifeSnapLost.lifeCount 3).lifeWrite 1
    | st =>
      let t := t.setFld PWR.REQSTAT.STATUS st.code
      t.when (st = .DENIED) fun t =>
        let pages : List (Page × Nat) := if target = 3 then [(.PWR, 0)]
          else ((clustersOf mask).filter fun cl => t.flag (HDR.OWNER.HOLD .CLUSTER) cl).map fun cl => (.CLUSTER, cl)
        ((t.forEach pages fun t p => t.logStatus p.1 p.2 .DENIED).logStatus .SEC 0 .DENIED).bump SEC.DENYCNT.POWER

/-- PWR_REQ_ACTIVE (R458): wakes the named clusters from DOZE. -/
def execPwrReqActive (o : RegFrom) (mask : BitVec 8) (s : State) : Host.Outcome State Fault Refusal :=
  done ((begin s).guarded o .PWR 0 fun t => t.pwrReq 0 mask.toNat)

/-- PWR_REQ_IDLE (R458): returns the named clusters to automatic IDLE. -/
def execPwrReqIdle (o : RegFrom) (mask : BitVec 8) (s : State) : Host.Outcome State Fault Refusal :=
  done ((begin s).guarded o .PWR 0 fun t => t.pwrReq 1 mask.toNat)

/-- PWR_REQ_DOZE (R458): powers down the named clusters' tile islands. -/
def execPwrReqDoze (o : RegFrom) (mask : BitVec 8) (s : State) : Host.Outcome State Fault Refusal :=
  done ((begin s).guarded o .PWR 0 fun t => t.pwrReq 2 mask.toNat)

/-- PWR_REQ_SLUMBER (R458). -/
def execPwrReqSlumber (o : RegFrom) (mask : BitVec 8) (s : State) : Host.Outcome State Fault Refusal :=
  done ((begin s).guarded o .PWR 0 fun t => t.pwrReq 3 mask.toNat)

/-- A transition ends: BUSY clears. -/
def Tx.endTrans (t : Tx s) : Tx s :=
  (t.putPower { t.now.power with trans := none }).setFld PWR.REQSTAT.BUSY 0

/-- Bits of a register word that are cleared by reading (RC). -/
def rcMask (k : Nat) : Word :=
  match bar0 k with
  | some (p, n, o) => BitVec.ofNat 32 (rowsMask ((wordRows p n o).filter fun f => f.acc = .RC))
  | none => 0

/-- Every RC counter reads zero after SLUMBER (R457, R502). -/
def Tx.clearCounters (t : Tx s) : Tx s :=
  t.forEach (t.now.regs.map (·.1)) fun t k => if rcMask k = 0 then t else t.putRegs k (t.regsAt k &&& ~~~ rcMask k)

/-- A follower acquires again (R305, R457). -/
def Tx.reacquire (t : Tx s) : Tx s :=
  let t := t.putEpoch { t.now.epoch with slew := 0, good := 0, taken := false, adopted := false }
  if t.fldEff EPOCH.CTL.ROLE = 2 then
    ((t.setFld EPOCH.STAT.LOCKED 0).setFld EPOCH.STAT.ACQ 1).setFld EPOCH.STAT.MISS 0
  else t

/-- SLUMBER is entered (R454, R457, R299): tiles, shared caches and scratchpads lose their contents, the tiers are in
self-refresh and the links are DOWN. -/
def Tx.enterSlumber (t : Tx s) : Tx s :=
  let keep := t.fld PWR.STATE.CLUSTER
  let t := t.forEach (List.range 64) fun t i =>
    (t.putTiles i (t.tilesAt i).worn).zeroRange (spadBase i) spadBytes
  let t := t.forEach (List.range 8) fun t cl => t.loseCluster cl
  let t := t.forEach (List.range 28) fun t m => if t.fld MEMC.STAT.STATE m = 2 then t.setFld MEMC.STAT.STATE 3 m else t
  let t := t.forEach (List.range 24) fun t l =>
    if t.fld LINK.STAT.STATE l = 2 ∨ t.fld LINK.STAT.STATE l = 3 then t.setFld LINK.STAT.STATE 1 l else t
  ((t.putPower { t.now.power with savedClusters := keep }).setFld PWR.STATE.MODULE 3).endTrans

/-- SLUMBER is left (R457): the tiers retrain, clusters stand as they did, counters read zero, a follower acquires again. -/
def Tx.leaveSlumber (t : Tx s) : Tx s :=
  let m := t.now.power.savedClusters
  let t := t.forEach (List.range 28) fun t k => if t.fld MEMC.STAT.STATE k = 3 then t.setFld MEMC.STAT.STATE 2 k else t
  let t := (t.setFld PWR.STATE.CLUSTER m).setFld PWR.STATE.MODULE (moduleState m)
  (t.putPower { t.now.power with leaving := false }).clearCounters.reacquire

/-- The transition of PWR.REQ that is in progress ends. SLUMBER entry ends only after its life-log write (R489). -/
def Tx.finishTrans (t : Tx s) : Tx s :=
  match t.now.power.trans with
  | none => t
  | some (target, mask) =>
    if target = 3 then
      if t.now.life.writing = some 1 || t.now.life.waiting.contains 1 then t else t.enterSlumber
    else
      let t := t.forEach (clustersOf mask) fun t cl =>
        let st := t.now.clusterPower cl
        if target = 2 then (if st = 2 || st = 3 then t else t.enterDoze cl)
        else if st = 2 then t.setClusterPower cl target else t
      t.endTrans

/-! ### The power cap (R459 to R461, R472) -/

/-- A write of PWR.CAP (R472). -/
def Tx.capWrite (t : Tx s) (cap brakecap : Nat) : Tx s :=
  if cap < 400 || 1900 < cap || brakecap < 400 || 1900 < brakecap then t.logStatus .PWR 0 .RANGE
  else t.writeDeferred (PWR.CAP.CAP.addr 0 0) (BitVec.ofNat 32 (brakecap <<< 16 + cap))

@[inherit_doc Tx.capWrite] def execCapWrite (o : RegFrom) (cap brakecap : BitVec 16) (s : State) :
    Host.Outcome State Fault Refusal :=
  done ((begin s).guarded o .PWR 0 fun t => t.capWrite cap.toNat brakecap.toNat)

/-- The effective cap in W: the smaller of CAP and the Gloaming state's share of 1,900 W. -/
def State.effectiveCap (s : State) : Nat :=
  let pct := s.fld GLM.SOUT.CAPPCT 0 (s.fld GLM.STAT.STATE)
  if pct = 0 then s.fld PWR.CAP.CAP else min (s.fld PWR.CAP.CAP) (19 * pct)

/-- The tiles that the brake preempted and that are SAVED resume (R463). -/
def Tx.resumeBraked (t : Tx s) : Tx s :=
  let ready := t.now.power.braked.filter fun i => t.now.runState i = runSaved
  let t := t.putPower { t.now.power with braked := t.now.power.braked.filter fun i => !ready.contains i }
  t.forEach ready fun t i => t.resume i

/-- The comparison at a group's end (R459): s up by one, down by one, or unchanged. -/
def skipStep (sum cap hyst skip : Nat) : Int :=
  if 16 * cap < sum then (if skip < 15 then 1 else 0)
  else if sum < 16 * (cap - hyst) && 0 < skip then -1
  else 0

/-- CAP_GROUP_END (R459 to R461): the group of 16 wall epochs ends. A written cap takes effect; s moves unless the brake holds;
with DET = 0 the tile islands' points move with it. The brake's effect ends here once it is released (R463). -/
def Tx.capGroup (t : Tx s) : Tx s :=
  let t := t.commitWord (PWR.CAP.CAP.addr 0 0)
  let p := t.now.power
  let t := t.putPower { p with epochs := 0, sum := 0 }
  if p.braking then
    if t.now.brake then t else (t.putPower { t.now.power with braking := false }).resumeBraked
  else
    let cap := t.now.effectiveCap
    let skip := t.fld PWR.CAPCTL.SKIP
    let d := skipStep p.sum cap (t.fld PWR.CAPCTL.HYST) skip
    let t := t.setFld PWR.CAPCTL.SKIP ((skip : Int) + d).toNat
    let above := if skip = 15 && 16 * cap < p.sum then p.overGroups + 1 else 0
    let t := (t.putPower { t.now.power with overGroups := above }).setFld PWR.CAPCTL.ALERT (bnat (64 ≤ above))
    if t.det || d = 0 then t
    else
      let target (i : Nat) : Nat := t.fld PWR.DVFS.TARGET 0 i
      t.putPower { t.now.power with points := p.points.zipIdx.map fun x =>
        if d = 1 then x.1 - 1 else min (target x.2) (x.1 + 1) }

@[inherit_doc Tx.capGroup] def execCapGroupEnd (s : State) : Host.Outcome State Fault Refusal :=
  done ((begin s).when (16 ≤ s.power.epochs) fun t => t.pins fun t => t.capGroup)

/-! ### The brake (R463) -/

/-- After an update, the brake has begun to apply or has been released: counted at its start, with every tile island down to
OP 1 at once with DET = 0; at its release preempted records resume. -/
def Tx.brakeEdge (t : Tx s) (f : Tx s → Tx s) : Tx s :=
  let was := t.now.brake
  let t := f t
  if !was && t.now.brake then
    let t := ((t.bump PWR.MEAS.BRAKE).lifeCount 8).putPower { t.now.power with braking := true }
    if t.det then t
    else ((t.forEach (List.range 64) fun t i => t.setOp i (min 1 (t.now.opOf i))).lowerRail 0).lowerRail 1
  else if was && !t.now.brake then t.resumeBraked
  else t

/-- PWR_BRAKE_ASSERT (R463): PWR_BRAKE_N goes low; Gloaming sees event 2 in its next scan (R468). -/
def execPwrBrakeAssert (s : State) : Host.Outcome State Fault Refusal :=
  done ((begin s).when (!s.power.brakePin) fun t =>
    t.brakeEdge fun t => (t.putPower { t.now.power with brakePin := true }).glmEvent 2)

/-- PWR_BRAKE_RELEASE (R463): PWR_BRAKE_N goes high; event 3. -/
def execPwrBrakeRelease (s : State) : Host.Outcome State Fault Refusal :=
  done ((begin s).when s.power.brakePin fun t =>
    t.brakeEdge fun t => (t.putPower { t.now.power with brakePin := false }).glmEvent 3)

/-! ### Regulators and the always-on clock -/

/-- VR_ALERT_N (R526): logged in the PWR page, with no other effect. -/
def execVrAlertN (s : State) : Host.Outcome State Fault Refusal := done ((begin s).logStatus .PWR 0 .NOT_READY)

/-- AONCLK_LOSS (R529): the on-die oscillator takes over, and the event is logged in the GLM page. -/
def execAonclkLoss (s : State) : Host.Outcome State Fault Refusal :=
  done ((begin s).when (!s.glm.oscillator) fun t =>
    (t.putGlm { t.now.glm with oscillator := true }).logStatus .GLM 0 .NOT_READY)

/-- AONCLK_RESTORE (R529): after 1,024 good cycles AONCLK takes over again. -/
def execAonclkRestore (s : State) : Host.Outcome State Fault Refusal :=
  done ((begin s).putGlm { s.glm with oscillator := false })

end Sys2Proof.Machine
end

