-- ==== Sys2Proof/Machine/Queues.lean ====
section
/-!
DEFINITION. Queue pairs (ch. 16): function ranges (R373), contexts (R381), doorbells (R382), work records and admission (R383,
R384, R387, R388), completion entries and interrupts (R385, R386), and queue commands (R390 to R392).
-/

namespace Sys2Proof.Machine

variable {s : State}

/-! ### Ranges and contexts -/

/-- The QID of a function's local queue (R373). -/
def State.localQ (s : State) (f i : Nat) : Option Nat :=
  if i < s.fld QE.FNQ.COUNT 0 f then some (s.fld QE.FNQ.BASE 0 f + i) else none

/-- The function in whose range a QID lies. -/
def State.fnOf (s : State) (q : Nat) : Option Nat :=
  (List.range 64).find? fun f => s.fld QE.FNQ.BASE 0 f ≤ q && q < s.fld QE.FNQ.BASE 0 f + s.fld QE.FNQ.COUNT 0 f

/-- The QID of a doorbell slot of BAR2: the PF's slots count every QID, a VF's its local queues (R382). -/
def State.bellQ (s : State) (f slot : Nat) : Option Nat :=
  if f = 0 then
    (if s.fld QE.FNQ.BASE 0 0 ≤ slot && slot < s.fld QE.FNQ.BASE 0 0 + s.fld QE.FNQ.COUNT 0 0 then some slot else none)
  else s.localQ f slot

/-- Is the queue a function's control queue (R373)? -/
def State.isControl (s : State) (q : Nat) : Bool :=
  match s.fnOf q with
  | some f => s.fld QE.FNQ.BASE 0 f = q
  | none => false

/-- Slots of both rings (R381). -/
def Queue.slots (q : Queue) : Nat := 2 ^ (bits q.ctx 127 124 + 4)

/-- Fields of a queue context (R381). -/
def Queue.rate (q : Queue) : Nat := bits q.ctx 95 80
@[inherit_doc Queue.rate] def Queue.burst (q : Queue) : Nat := bits q.ctx 79 64
@[inherit_doc Queue.rate] def Queue.weight (q : Queue) : Nat := bits q.ctx 63 56
@[inherit_doc Queue.rate] def Queue.vector (q : Queue) : Nat := bits q.ctx 123 113

/-- A ring's base address: the submission ring's field is at bit 192, the completion ring's at bit 128. -/
def Queue.ring (q : Queue) (lo : Nat) : Nat := bits q.ctx (lo + 63) (lo + 6) * 64

/-- Is a ring in device-local memory? -/
def Queue.ringLocal (q : Queue) (lo : Nat) : Bool := bit q.ctx lo

/-- Admitted records of a queue without a CQE. -/
def State.reserved (s : State) (q : Nat) : Nat := (s.records.filter fun r => r.2.stage ≠ .none && r.2.qid = q).length

/-- Is there a completion slot to reserve (R385)? -/
def State.slotFree (s : State) (q : Nat) : Bool :=
  let x := s.queuesAt q
  s.reserved q + (x.cqes - x.consumed) < x.slots

/-! ### Doorbells (R382) -/

/-- A doorbell write is discarded and counted. -/
def Tx.bellDrop (t : Tx s) (f : Nat) : Tx s := t.bump FN.ERRCNT.DBDROP 1 f

/-- SQTAIL of a doorbell slot: the newest tail counts, latched unless the queue is ACTIVE (R23, R391, R392). -/
def Tx.sqTail (t : Tx s) (f slot v : Nat) : Tx s :=
  match t.now.bellQ f slot with
  | none => t.bellDrop f
  | some q =>
    let x := t.queuesAt q
    if x.state = 0 || x.slots < (v + 0x10000 - x.head % 0x10000) % 0x10000 then t.bellDrop f
    else if x.state = 1 then t.putQueues q { x with tail := v } else t.putQueues q { x with latched := some v }

/-- CQHEAD of a doorbell slot: completion slots are free again up to the new head; it announces no record, so it takes effect in
every state but DISABLED. -/
def Tx.cqHead (t : Tx s) (f slot v : Nat) : Tx s :=
  match t.now.bellQ f slot with
  | none => t.bellDrop f
  | some q =>
    let x := t.queuesAt q
    let step := (v + 0x10000 - x.consumed % 0x10000) % 0x10000
    if x.state = 0 || x.cqes - x.consumed < step then t.bellDrop f
    else t.putQueues q { x with consumed := x.consumed + step }

/-- A BAR2 write: kept in the doorbell latch until the module is ready (R518); nothing after a trip or in the fatal state; in
SLUMBER it wakes the module and is discarded (R457). -/
def Tx.bell (t : Tx s) (f slot : Nat) (latch : Option Nat × Option Nat → Option Nat × Option Nat) (f' : Tx s → Tx s) : Tx s :=
  if t.now.tripped || t.now.fatal then t
  else if t.now.slumber then t.glmEvent 0
  else if !t.now.ready then t.modDoorbells (2 ^ 18 * f + slot) latch
  else f' t

/-- DOORBELL_SQTAIL (R382): function `f` writes a tail in slot `slot` of its BAR2. -/
def execDoorbellSqtail (f : Fin 64) (slot : BitVec 18) (v : BitVec 16) (s : State) : Host.Outcome State Fault Refusal :=
  done ((begin s).bell f slot.toNat (fun l => (some v.toNat, l.2)) fun t => t.sqTail f slot.toNat v.toNat)

/-- DOORBELL_CQHEAD (R382). -/
def execDoorbellCqhead (f : Fin 64) (slot : BitVec 18) (v : BitVec 16) (s : State) : Host.Outcome State Fault Refusal :=
  done ((begin s).bell f slot.toNat (fun l => (l.1, some v.toNat)) fun t => t.cqHead f slot.toNat v.toNat)

/-- Serve every doorbell latch once, SQTAIL before CQHEAD (R518). -/
def Tx.serveLatches (t : Tx s) : Tx s :=
  t.forEach t.now.doorbells fun t l =>
    let t := match l.2.1 with
      | some v => t.sqTail (l.1 / 2 ^ 18) (l.1 % 2 ^ 18) v
      | none => t
    let t := match l.2.2 with
      | some v => t.cqHead (l.1 / 2 ^ 18) (l.1 % 2 ^ 18) v
      | none => t
    t.putDoorbells l.1 (none, none)

/-! ### Completion entries and interrupts (R385, R386) -/

/-- Is the status an error, which holds the queue (R32, R473)? -/
def Status.isError (st : Status) : Bool := st ≠ .OK && st ≠ .EXPIRED

/-- The queue is HELD (R391); DRAINING goes on draining. -/
def Queue.hold (q : Queue) : Queue := if q.state = 1 || q.state = 4 then { q with state := 2 } else q

/-- The bytes of a CQE (R385). -/
def cqeBytes (tag detail ridx sqhead q lane phase st : Nat) : List Byte :=
  natLe 16 ((tag % 2 ^ 32) <<< 96 + (detail % 2 ^ 32) <<< 64 + (ridx % 2 ^ 16) <<< 48 + (sqhead % 2 ^ 16) <<< 32
    + (q % 2 ^ 18) <<< 14 + (lane % 8) <<< 11 + phase <<< 8 + st)

/-- A write of the device into a ring, with no Relaxed Ordering (R330, R377); a refused one is logged in the function page. -/
def Tx.ringWrite (t : Tx s) (f q a : Nat) (isLocal : Bool) (bs : List Byte) : Tx s :=
  if !isLocal then t.emit (.hostWrite f a bs false)
  else if isHostWin a then
    if apertureAllows (t.now.aperture a) f true then t.emit (.hostWrite f (t.now.hostAddr a) bs false)
    else t.logError .FN f { status := .DENIED, cls := 5, qr? := some (q, 0) }
  else t.writeRange .fw a bs

/-- One more CQE counts toward the queue's interrupt (R386). -/
def Tx.countCqe (t : Tx s) (f q : Nat) : Tx s :=
  let x := t.queuesAt q
  if !bit x.ctx 96 then t
  else if max 1 (bits x.ctx 112 105) ≤ x.unsig + 1 then (t.putQueues q { x with unsig := 0, timer := none }).msix f x.vector
  else t.putQueues q { x with
    unsig := x.unsig + 1
    timer := if bits x.ctx 104 97 = 0 then none else x.timer.or (some (bits x.ctx 104 97)) }

/-- Write a CQE: its slot and PHASE follow the CQEs written since ENABLE; an error status holds the queue unless `cont`. -/
def Tx.putCqe (t : Tx s) (f q ridx tag detail lane : Nat) (st : Status) (cont : Bool) : Tx s :=
  let x := t.queuesAt q
  let k := x.cqes
  let t := t.ringWrite f q (x.ring 128 + 16 * (k % x.slots)) (x.ringLocal 128)
    (cqeBytes tag detail ridx x.head q lane (1 - k / x.slots % 2) st.code)
  let x := { x with cqes := k + 1 }
  let t := t.putQueues q (if st.isError && !cont then x.hold else x)
  ((t.lifeCount 10).when (st ≠ .OK) fun t => t.lifeCount 11).countCqe f q

/-- INTERRUPT_TIMER (R386): the ITIME-th boundary after the first unsignalled CQE has come, and the queue's vector is sent. -/
def execInterruptTimer (q : BitVec 18) (s : State) : Host.Outcome State Fault Refusal :=
  let t := begin s
  let x := t.queuesAt q.toNat
  done (t.when (x.timer = some 0) fun t =>
    (t.putQueues q.toNat { x with unsig := 0, timer := none }).msix ((s.fnOf q.toNat).getD 0) x.vector)

/-! ### Records -/

/-- A record has its outcome, and waits for its CQE. -/
def Tx.finish (t : Tx s) (r : Nat) (st : Status) (detail : Nat := 0) : Tx s :=
  t.modRecords r fun x => { x with stage := .finished, result := some (st, detail) }

/-- The failure that a record's CQE carries: that of the earliest epoch, then of the lowest cluster (R32). -/
def RunRec.worst (x : RunRec) : Option RecFailure :=
  x.failures.foldl (fun b f => match b with
    | none => some f
    | some g => if f.epoch < g.epoch || (f.epoch = g.epoch && f.cluster < g.cluster) then some f else some g) none

/-- A finished record's status and DETAIL. -/
def RunRec.outcome (x : RunRec) : Status × Nat :=
  match x.result, x.worst with
  | some r, _ => r
  | none, some f => (f.status, f.detail)
  | none, none => (.OK, 0)

/-- CQE_WRITE (R31, R32, R387): a finished record's CQE is written; a token that an EXPIRED record took goes back. -/
def Tx.cqeWrite (t : Tx s) (r : Nat) : Tx s :=
  let x := t.recordsAt r
  if x.stage ≠ .finished then t
  else
    let o := x.outcome
    let t := t.putRecords r {}
    let t := t.when (o.1 = .EXPIRED && x.token) fun t => t.modQueues x.qid fun q =>
      { q with tokens := min (q.tokens + 16) (16 * q.burst) }
    t.putCqe x.fn x.qid x.ridx x.tag o.2 x.lane o.1 (bit x.flags 0)

@[inherit_doc Tx.cqeWrite] def execCqeWrite (r : Nat) (s : State) : Host.Outcome State Fault Refusal :=
  done ((begin s).cqeWrite r)

/-! ### Work records (R378, R383) -/

/-- Must the head record come from outside the module: a ring in host memory, or one named through the host window? -/
def Queue.fetches (q : Queue) : Bool := !q.ringLocal 192 || isHostWin (q.ring 192)

/-- Where the head record lies. -/
def Queue.headAt (q : Queue) : Nat := q.ring 192 + 64 * (q.head % q.slots)

/-- A record that could not be read: its slot gets a CQE with TAG 0, the QE goes past it and holds the queue, and the function
page logs the error (R378). -/
def Tx.badRecord (t : Tx s) (q : Nat) (st : Status) : Tx s :=
  let x := t.queuesAt q
  let f := (t.now.fnOf q).getD 0
  let t := t.putQueues q { x with head := (x.head + 1) % 0x10000, wr := [] }
  (t.logError .FN f { status := st, cls := st.cls, qr? := some (q, x.head) }).putCqe f q x.head 0 0 0 st false

/-- WORK_RECORD_FETCH (R378): the QE reads the head record of an ACTIVE queue from the host, and the host answers. -/
def Tx.fetchRecord (t : Tx s) (q : Nat) (ans : HostAnswer) : Tx s :=
  let x := t.queuesAt q
  let f := (t.now.fnOf q).getD 0
  if x.state ≠ 1 || x.head = x.tail || (t.now.pcieAt f).flr || !x.fetches || x.wr ≠ [] || !t.now.slotFree q then t
  else
    let a := x.headAt
    if x.ringLocal 192 && !apertureAllows (t.now.aperture a) f false then t.badRecord q .DENIED
    else
      let t := t.emit (.hostRead f (if x.ringLocal 192 then t.now.hostAddr a else a) 64)
      match ans with
      | .data bs => if bs.length = 64 then t.putQueues q { x with wr := bs } else t.badRecord q .PROTO
      | r => t.badRecord q r.status

@[inherit_doc Tx.fetchRecord] def execWorkRecordFetch (q : BitVec 18) (ans : HostAnswer) (s : State) :
    Host.Outcome State Fault Refusal :=
  done ((begin s).fetchRecord q.toNat ans)

/-! ### Admission (R21, R384, R387, R388) -/

/-- Fields of a work record (R383). -/
def wrOpcode (b : List Byte) : Nat := leNat (part b 0 1)
@[inherit_doc wrOpcode] def wrFlags (b : List Byte) : Nat := leNat (part b 1 2)
@[inherit_doc wrOpcode] def wrSid (b : List Byte) : Nat := leNat (part b 2 4)

/-- The head record of a queue, when it can be had: its bytes, or the failure to read them. -/
def State.headRecord (s : State) (x : Queue) : Option (List Byte × Status) :=
  if x.fetches then (if x.wr = [] then none else some (x.wr, .OK)) else some (s.readRange .fw x.headAt 64)

/-- Admitted records of a session without a CQE (R387). -/
def State.inFlight (s : State) (sid : Nat) : Nat :=
  (s.records.filter fun r => r.2.stage ≠ .none && r.2.counted && r.2.sid = sid).length

/-- May the head record of a queue be admitted (R21, R384, R385, R387)? Records on a control queue need no session. -/
def State.admissible (s : State) (q : Nat) : Bool :=
  let x := s.queuesAt q
  x.state = 1 && x.head ≠ x.tail && s.slotFree q && !((s.fnOf q).any fun f => (s.pcieAt f).flr) &&
  match s.headRecord x with
  | none => false
  | some (b, st) =>
    let sid := wrSid b
    let v := s.sessionsAt sid
    st ≠ .OK || s.isControl q ||
      (v.state = 1 && x.sid = some sid && s.inFlight sid < v.maxflight &&
        (wrOpcode b ≠ 1 || x.rate = 0 || 16 ≤ x.tokens))

/-- The queues of a function whose head record may be admitted, in the order of their turns: ascending from the queue after the
one served last (R388). -/
def State.turns (s : State) (f : Nat) : List Nat :=
  let qs := (s.queues.map (·.1)).filter fun q => s.fnOf q = some f && s.admissible q
  match s.qe.lastQ.find? (·.1 = f) with
  | some (_, l) => qs.filter (l < ·) ++ qs.filter (· ≤ l)
  | none => qs

/-- The next queue that the rotation serves, with the rotation after it (R388). -/
def State.rotate (s : State) : Option (Nat × QueueEngine) :=
  let e := s.qe
  let weight (q : Nat) : Nat := max 1 (s.queuesAt q).weight
  let serve (f q left qleft : Nat) : Nat × QueueEngine :=
    (q, { e with fn := f, fnLeft := left - 1, lastQ := mapInsert e.lastQ f q, qLeft := qleft - 1 })
  let cur := s.turns e.fn
  let last := (e.lastQ.find? (·.1 = e.fn)).map (·.2)
  match (if e.fnLeft = 0 then none else cur.head?), last with
  | some q, some l =>
    if e.qLeft ≠ 0 && cur.contains l then some (serve e.fn l e.fnLeft e.qLeft) else some (serve e.fn q e.fnLeft (weight q))
  | some q, none => some (serve e.fn q e.fnLeft (weight q))
  | none, _ =>
    ((List.range 64).map fun k => (e.fn + 1 + k) % 64).findSome? fun f =>
      (s.turns f).head?.map fun q => serve f q (max 1 (s.fld QE.FNWEIGHT.WEIGHT 0 f)) (weight q)

/-- The checks after admission (R384), or OK. -/
def State.recordCheck (s : State) (b : List Byte) (control : Bool) : Status :=
  let op := wrOpcode b
  let p (k : Nat) : Nat := leNat (part b k (k + 8))
  let isControl := 0x80 ≤ op && op ≤ 0x85
  let q := (s.sessionsAt (wrSid b)).qrec
  if (op ≠ 1 && !isControl) || 8 ≤ wrFlags b || !zeroBytes b 0x38 0x40 ||
      ([8, 0x10, 0x30].any fun k => p k % 64 ≠ 0 || 2 ^ 44 ≤ p k) || p 0x18 % 32 ≠ 0 || 2 ^ 44 ≤ p 0x18 then .RANGE
  else if isControl ≠ control then .RANGE
  else if op = 1 && !(s.graphsAt (leNat (part b 4 8))).live then .STATE
  else if op = 1 && q = some 0 then .DENIED
  else .OK

/-- The 32 bytes at a record's seed pointer (R319), with the host's answer where it lies in the host window. -/
def Tx.readSeed (t : Tx s) (f a : Nat) (ans : HostAnswer) : Tx s × (List Byte × Status) :=
  if !isHostWin a then (t.logRead .fw a 32, t.now.readRange .fw a 32)
  else if !apertureAllows (t.now.aperture a) f false then (t, ([], .DENIED))
  else
    let t := t.emit (.hostRead f (t.now.hostAddr a) 32)
    match ans with
    | .data bs => if bs.length = 32 then (t, (bs, .OK)) else (t, ([], .PROTO))
    | r => (t, ([], r.status))

/-- Ask for a LOAD of a descriptor list: this module's memory answers at once, the host window and a peer later (R210). -/
def Tx.startLoad (t : Tx s) (r f : Nat) (l : DescLoad) : Tx s × DescLoad :=
  let a := l.addr % 2 ^ 44
  if l.addr / 2 ^ 44 % 2 ^ 16 ≠ t.now.devId then
    (t.request { type := ptRD, dst := l.addr / 2 ^ 44 % 2 ^ 16, addr := a / 64 * 64, aux := 0 } (.descriptor l.cluster) (some r)
      (l.addr / 64 * 64) 0, { l with asked := true })
  else if isHostWin a then
    if apertureAllows (t.now.aperture a) f false then (t.emit (.hostRead f (t.now.hostAddr a) 32), { l with asked := true })
    else (t, { l with got := some (none, .DENIED) })
  else
    let x := t.now.readRange (.ccc l.cluster) a 32
    (t.logRead (.ccc l.cluster) a 32, { l with got := some (if x.2 = .OK then some x.1 else none, x.2) })

/-- The LOADs of a graph for one graph epoch, for a record: LANEREL entries by its IN pointer and lane, the others once for the
batch, by the record at lane 0 (R209, R210). -/
def loadsFor (g : Graph) (dev gep inPtr lane : Nat) : List DescLoad :=
  (g.descs.filter fun d => bits d.2 9 8 = 0 && bits d.2 63 48 = gep && (bit d.2 10 || lane = 0)).map fun d =>
    { cluster := d.1, slot := bits d.2 7 0 + (if bit d.2 10 then lane else 0), rel := bit d.2 10, gep := gep,
      addr := if bit d.2 10 then dev <<< 44 + inPtr + bits d.2 123 64 else bits d.2 123 64 }

/-- Start loads of a record. -/
def Tx.startLoads (t : Tx s) (r : Nat) : List DescLoad → Tx s
  | [] => t
  | l :: ls =>
    let x := t.startLoad r (t.recordsAt r).fn l
    (x.1.modRecords r fun v => { v with loads := v.loads ++ [x.2] }).startLoads r ls

/-- Admit the head record of queue `q` (R384, R385, R387, R399). -/
def Tx.takeIn (t : Tx s) (q : Nat) (ans : HostAnswer) : Tx s :=
  let x := t.queuesAt q
  match t.now.headRecord x with
  | none => t
  | some (b, .OK) =>
    let f := (t.now.fnOf q).getD 0
    let p (k n : Nat) : Nat := leNat (part b k (k + n))
    let r := t.now.qe.nextRec
    let control := t.now.isControl q
    let st := t.now.recordCheck b control
    let g := t.graphsAt (p 4 4)
    let v := t.sessionsAt (wrSid b)
    let run := st = .OK && !control
    let rr : RunRec := {
      stage := .admitted, qid := q, ridx := x.head, fn := f, sid := wrSid b, ksid := v.ksid,
      opcode := wrOpcode b, graph := p 4 4, inPtr := p 8 8, outPtr := p 0x10 8, seedPtr := p 0x18 8, deadline := p 0x20 8,
      arg := p 0x28 4, tag := p 0x2C 4, auxPtr := p 0x30 8, flags := wrFlags b, counted := !control,
      clusters := if run then g.clusters else 0,
      tiles := if run then (clustersOf g.clusters).flatMap fun c => (List.range 8).map (8 * c + ·) else [], leader := r }
    let t := ((t.putQueues q { x with head := (x.head + 1) % 0x10000, wr := [] }).putQe
      { t.now.qe with nextRec := r + 1 }).bump QE.ADMCNT.ADMIT
    let t := t.putRecords r rr
    if st ≠ .OK then t.finish r st
    else if control then t
    else
      let t := t.modSessions (wrSid b) fun v => { v with qrec := v.qrec.map (· - 1) }
      let sd := if p 0x18 8 = 0 then (t, ([], .OK)) else t.readSeed f (p 0x18 8) ans
      if sd.2.2 ≠ .OK then sd.1.finish r sd.2.2
      else
        let t := sd.1.modRecords r fun v => { v with seed := sd.2.1, token := x.rate ≠ 0 }
        let t := t.when (x.rate ≠ 0) fun t => t.modQueues q fun x => { x with tokens := x.tokens - 16 }
        let t := t.startLoads r (loadsFor g t.now.devId 0 (p 8 8) 0)
        t.forEach (clustersOf g.clusters) fun t c => t.wakeCluster c
  | some (_, st) => (t.when (!x.fetches) fun t => t.logRead .fw x.headAt 64).badRecord q st

/-- RECORD_ADMIT (R21, R388): the rotation's next queue has its head record admitted; nothing is admitted while SLUMBER is being
entered or left (R457, R458), nor in a recovery boot (R507). `ans` answers a seed read through the host window. -/
def Tx.recordAdmit (t : Tx s) (ans : HostAnswer) : Tx s :=
  let n := t.now
  if n.tripped || n.fatal || n.slumber || n.power.trans.any (·.1 = 3) || !n.ready || n.flag STRAP.VAL.RECOVERY then t
  else
    match n.rotate with
    | some (q, e) => (t.putQe e).takeIn q ans
    | none => t

@[inherit_doc Tx.recordAdmit] def execRecordAdmit (ans : HostAnswer) (s : State) : Host.Outcome State Fault Refusal :=
  done ((begin s).recordAdmit ans)

/-! ### Queue commands (R390 to R392, R402) -/

/-- A queue returns to ACTIVE: the latched tail counts (R23). -/
def Queue.activate (q : Queue) : Queue := { q with state := 1, tail := q.latched.getD q.tail, latched := none }

/-- A write of a command to FN.QCMD: its status is reported; STATE on an ACTIVE queue holds it (R390). -/
def Tx.queueCmd (t : Tx s) (f : Nat) (cmd : Nat → Queue → Tx s → Tx s × Status) : Tx s :=
  if t.flag FN.QCMDSTAT.BUSY f then t.logStatus .FN f .BUSY
  else
    match t.now.localQ f (t.fld FN.QSEL.INDEX f) with
    | none => t.setFld FN.QCMDSTAT.STATUS Status.RANGE.code f
    | some q =>
      let x := t.queuesAt q
      let r := cmd q x t
      let t := r.1.when (r.2 = .STATE && x.state = 1) fun t => t.modQueues q Queue.hold
      t.setFld FN.QCMDSTAT.STATUS r.2.code f

/-- A command that one state allows. -/
def cmdIn (ok : List Nat) (f : Nat → Queue → Tx s → Tx s) (q : Nat) (x : Queue) (t : Tx s) : Tx s × Status :=
  if ok.contains x.state then (f q x t, .OK) else (t, .STATE)

/-- ENABLE: indices 0, PHASE 1. -/
def cmdEnable (q : Nat) (x : Queue) (t : Tx s) : Tx s × Status :=
  cmdIn [0] (fun q x t => t.putQueues q { x with
    state := 1, head := 0, tail := 0, latched := none, cqes := 0, consumed := 0, unsig := 0, timer := none, wr := [] }) q x t

/-- SUSPEND. -/
def cmdSuspend (q : Nat) (x : Queue) (t : Tx s) : Tx s × Status :=
  cmdIn [1] (fun q x t => t.putQueues q { x with state := 4 }) q x t

/-- RESUME. -/
def cmdResume (q : Nat) (x : Queue) (t : Tx s) : Tx s × Status := cmdIn [4] (fun q x t => t.putQueues q x.activate) q x t

/-- RELEASE. -/
def cmdRelease (q : Nat) (x : Queue) (t : Tx s) : Tx s × Status := cmdIn [2] (fun q x t => t.putQueues q x.activate) q x t

/-- Complete a queue's admitted undispatched records ABORTED. -/
def Tx.abortAdmitted (t : Tx s) (p : RunRec → Bool) : Tx s :=
  t.forEach ((t.now.records.filter fun r => r.2.stage = .admitted && p r.2).map (·.1)) fun t r => t.finish r .ABORTED

/-- RELEASE_ABORT: what was admitted and not dispatched completes ABORTED, and does not hold the queue again. -/
def cmdReleaseAbort (q : Nat) (x : Queue) (t : Tx s) : Tx s × Status :=
  cmdIn [2] (fun q x t =>
    (t.forEach ((t.now.records.filter fun r => r.2.stage = .admitted && r.2.qid = q).map (·.1)) fun t r =>
      (t.finish r .ABORTED).modRecords r fun v => { v with flags := v.flags ||| 1 }).putQueues q x.activate) q x t

/-- DRAIN. -/
def cmdDrain (q : Nat) (x : Queue) (t : Tx s) : Tx s × Status := cmdIn [1, 2, 4] (fun q x t => t.putQueues q { x with state := 3 }) q x t

/-- Posted peer writes of a queue accepted and without a final outcome (R392, ORDER.PENDSTAT). -/
def State.outstanding (s : State) (q : Nat) : Nat :=
  (s.peers.filter fun p => hasOutcome p.2.packet.type && p.2.qid = q && p.2.accepts = 0 && p.2.finals ≠ 0 &&
    (match p.2.origin with | .core _ => false | _ => true)).length

/-- DISABLE (R392). -/
def cmdDisable (q : Nat) (x : Queue) (t : Tx s) : Tx s × Status :=
  if x.state < 2 then (t, .STATE)
  else if t.now.reserved q ≠ 0 || t.now.outstanding q ≠ 0 then (t, .BUSY)
  else (t.putQueues q { x with state := 0, latched := none, late := [], sid := none, tokens := 0 }, .OK)

/-- Bits of the context that WRITE_CTX may change outside DISABLED: VECTOR, ICOUNT, ITIME, IEN, RATE, BURST, WEIGHT. -/
def liveCtxMask : Nat := (2 ^ 124 - 1) - (2 ^ 56 - 1)

/-- WRITE_CTX: the staged context; outside DISABLED it takes effect at the next boundary. -/
def cmdWriteCtx (f : Nat) (q : Nat) (x : Queue) (t : Tx s) : Tx s × Status :=
  let v := t.now.regSpan (FN.QCTX.WORD.addr f 0) 8
  if x.state = 0 then (t.putQueues q { x with ctx := v }, .OK)
  else if (v ^^^ x.ctx) &&& (2 ^ 256 - 1 - liveCtxMask) ≠ 0 then (t, .RANGE)
  else (t.putQueues q { x with pend := some v }, .OK)

/-- READ_CTX: the context to FN.QCTX. -/
def cmdReadCtx (f : Nat) (_ : Nat) (x : Queue) (t : Tx s) : Tx s × Status :=
  (t.putSpan (FN.QCTX.WORD.addr f 0) 8 x.ctx, .OK)

/-- A queue's new context takes effect at a boundary; the token count is capped at the new BURST (R387, R390). -/
def Queue.takeCtx (q : Queue) : Queue :=
  match q.pend with
  | some c =>
    let n := { q with ctx := c, pend := none }
    { n with tokens := min n.tokens (16 * n.burst) }
  | none => q

/-- ENABLE (R390): queue command 1 of function page `f`, for the queue that FN.QSEL selects. -/
def execEnable (o : RegFrom) (f : Fin 64) (s : State) : Host.Outcome State Fault Refusal :=
  done ((begin s).guarded o .FN f fun t => t.queueCmd f cmdEnable)

/-- SUSPEND (R390): queue command 2. -/
def execSuspend (o : RegFrom) (f : Fin 64) (s : State) : Host.Outcome State Fault Refusal :=
  done ((begin s).guarded o .FN f fun t => t.queueCmd f cmdSuspend)

/-- RESUME (R391): queue command 3. -/
def execQueueResume (o : RegFrom) (f : Fin 64) (s : State) : Host.Outcome State Fault Refusal :=
  done ((begin s).guarded o .FN f fun t => t.queueCmd f cmdResume)

/-- RELEASE (R391): queue command 4. -/
def execRelease (o : RegFrom) (f : Fin 64) (s : State) : Host.Outcome State Fault Refusal :=
  done ((begin s).guarded o .FN f fun t => t.queueCmd f cmdRelease)

/-- RELEASE_ABORT (R390): queue command 5. -/
def execReleaseAbort (o : RegFrom) (f : Fin 64) (s : State) : Host.Outcome State Fault Refusal :=
  done ((begin s).guarded o .FN f fun t => t.queueCmd f cmdReleaseAbort)

/-- DRAIN (R392): queue command 6. -/
def execDrain (o : RegFrom) (f : Fin 64) (s : State) : Host.Outcome State Fault Refusal :=
  done ((begin s).guarded o .FN f fun t => t.queueCmd f cmdDrain)

/-- DISABLE (R392): queue command 7. -/
def execDisable (o : RegFrom) (f : Fin 64) (s : State) : Host.Outcome State Fault Refusal :=
  done ((begin s).guarded o .FN f fun t => t.queueCmd f cmdDisable)

/-- WRITE_CTX (R390): queue command 8. -/
def execWriteCtx (o : RegFrom) (f : Fin 64) (s : State) : Host.Outcome State Fault Refusal :=
  done ((begin s).guarded o .FN f fun t => t.queueCmd f (cmdWriteCtx f))

/-- READ_CTX (R390): queue command 9. -/
def execReadCtx (o : RegFrom) (f : Fin 64) (s : State) : Host.Outcome State Fault Refusal :=
  done ((begin s).guarded o .FN f fun t => t.queueCmd f (cmdReadCtx f))

end Sys2Proof.Machine
end

