-- ==== Sys2Proof/Machine/Sessions.lean ====
section
/-!
DEFINITION. Service mode and sessions (R395 to R400): control records, the opening of a session, its draining and its end.
-/

namespace Sys2Proof.Machine

variable {s : State}

/-! ### Operands and replies -/

/-- Read `n` bytes at a control record's IN pointer, with the host's answer where it lies in the host window. -/
def Tx.operand (t : Tx s) (f a n : Nat) (ans : HostAnswer) : Tx s × (List Byte × Status) :=
  if !isHostWin a then (t.logRead .fw a n, t.now.readRange .fw a n)
  else if !apertureAllows (t.now.aperture a) f false then (t, ([], .DENIED))
  else
    let t := t.emit (.hostRead f (t.now.hostAddr a) n)
    match ans with
    | .data bs => if bs.length = n then (t, (bs, .OK)) else (t, ([], .PROTO))
    | r => (t, ([], r.status))

/-- Write a reply at a control record's OUT pointer. -/
def Tx.replyAt (t : Tx s) (f a : Nat) (bs : List Byte) : Tx s × Status :=
  if isHostWin a then
    if apertureAllows (t.now.aperture a) f true then (t.postHost f a bs, .OK) else (t, .DENIED)
  else
    let st := t.now.writeStatus .fw a bs.length
    (t.writeRange .fw a bs, st)

/-- Run control record `r` with opcode `op`: the oldest of its queue that has not run. One that names a session of another
function is DENIED (R395). -/
def Tx.control (t : Tx s) (r op : Nat) (body : RunRec → Session → Tx s → Tx s) : Tx s :=
  let x := t.recordsAt r
  let v := t.sessionsAt x.sid
  if x.stage ≠ .admitted || x.opcode ≠ op || !t.now.isControl x.qid ||
      (t.now.records.any fun k => k.1 < r && k.2.stage = .admitted && k.2.qid = x.qid) then t
  else if op ≠ 0x80 && v.state ≠ 0 && v.fn ≠ x.fn then t.finish r .DENIED
  else body x v t

/-! ### Nonces (R397) -/

/-- Is a nonce of a function outstanding: issued within 2^20 wall epochs? -/
def State.nonceLive (s : State) (n : Nat × List Byte × Nat) : Bool := s.epochCount ≤ n.2.2 + 2 ^ 20

/-- Take the oldest nonce of a function away while it has 16. -/
def dropOldest (f : Nat) (l : List (Nat × List Byte × Nat)) : List (Nat × List Byte × Nat) :=
  if 16 ≤ (l.filter (·.1 = f)).length then l.eraseP (·.1 = f) else l

/-- SESSION_NONCE (R397): 32 fresh bytes at OUT and zeros after them. -/
def execSessionNonce (r : Nat) (s : State) : Host.Outcome State Fault Refusal :=
  done ((begin s).control r 0x80 fun x _ t =>
    let n := natLe 32 (Config.draw t.now.fresh % 2 ^ 256)
    let w := t.freshen.replyAt x.fn x.outPtr (n ++ List.replicate 32 0)
    let e := w.1.now.qe
    let l := dropOldest x.fn (e.nonces.filter w.1.now.nonceLive)
    (w.1.when (w.2 = .OK) fun t => t.putQe { e with nonces := l ++ [(x.fn, n, t.now.epochCount)] }).finish r w.2)

/-! ### Opening (R396, R398) -/

/-- May a key set be bound to a session: loaded with STATE 1, on a parameter set that meets R41? -/
def State.bindable (s : State) (k : KeySet) : Bool :=
  let p := s.psetsAt k.pset
  k.live && k.state = 1 && p.live && p.security ≠ 0 && p.lmode = 0

/-- Step 5 of R398: the signature under the client key that SEC recorded for the key set; nothing outside service mode. -/
def State.clientCheck (s : State) (req : List Byte) (ksid : Nat) : Status :=
  if !s.flag QE.MODE.SERVICE then .OK
  else
    let k := mapGet (0, 0) s.sec.clientKeys ksid
    sigCheck (req.take 0xA0) (part req 0xA0 0x100) (natBe 48 k.1) (natBe 48 k.2)

/-- The checks of SESSION_OPEN on a request (R398); the status, and whether the nonce is consumed. -/
def State.openCheck (s : State) (x : RunRec) (req : List Byte) : Status × Bool :=
  let le (a n : Nat) : Nat := leNat (part req a (a + n))
  if !zeroBytes req 0x22 0x30 || !zeroBytes req 0x50 0xA0 || 2 ≤ le 4 4 || le 0 2 ≠ x.sid || le 0x20 2 = 0 then (.RANGE, false)
  else if (s.sessionsAt x.sid).state ≠ 0 then (.STATE, false)
  else if !(s.qe.nonces.any fun n => n.1 = x.fn && n.2.1 = part req 0x30 0x50 && s.nonceLive n) then (.STATE, false)
  else if !s.bindable (s.ksetsAt (le 2 2)) then (.STATE, true)
  else (s.clientCheck req (le 2 2), true)

/-- SESSION_OPEN (R398): the request at IN is checked, and the session opens bound to its key set. -/
def Tx.sessionOpen (t : Tx s) (r : Nat) (x : RunRec) (ans : HostAnswer) : Tx s :=
  let g := t.operand x.fn x.inPtr 256 ans
  if g.2.2 ≠ .OK then g.1.finish r g.2.2
  else
    let t := g.1
    let req := g.2.1
    let le (a n : Nat) : Nat := leNat (part req a (a + n))
    let c := t.now.openCheck x req
    let t := t.when c.2 fun t => t.putQe { t.now.qe with
      nonces := t.now.qe.nonces.filter fun n => n.1 ≠ x.fn || n.2.1 ≠ part req 0x30 0x50 }
    if c.1 ≠ .OK then t.finish r c.1
    else
      let quota (v : Nat) : Option Nat := if v = 0 then none else some v
      ((t.putSessions x.sid
          { state := 1, fn := x.fn, ksid := le 2 2, maxflight := le 0x20 2, isSealed := bit (le 4 4) 0, qrec := quota (le 0x10 8),
            qepoch := quota (le 0x18 8), expires := le 8 8 }).modKsets (le 2 2) fun k =>
        { k with state := 2, sid := x.sid, gen := (k.gen + 1) % 2 ^ 32 }).finish r .OK

/-- Run a SESSION_OPEN record with the host's answer to the read of its request. -/
def Tx.runOpen (t : Tx s) (r : Nat) (ans : HostAnswer) : Tx s := t.control r 0x81 fun x _ t => t.sessionOpen r x ans

@[inherit_doc Tx.sessionOpen] def execSessionOpen (r : Nat) (ans : HostAnswer) (s : State) : Host.Outcome State Fault Refusal :=
  done ((begin s).runOpen r ans)

/-! ### Binding (R397) -/

/-- Queues bound to a session. -/
def State.boundTo (s : State) (sid : Nat) : List Nat := (s.queues.filter fun q => q.2.sid = some sid).map (·.1)

/-- SESSION_BIND (R397): ARG names a local queue of the function. -/
def execSessionBind (r : Nat) (s : State) : Host.Outcome State Fault Refusal :=
  done ((begin s).control r 0x82 fun x v t =>
    match t.now.localQ x.fn (bits x.arg 17 0) with
    | none => t.finish r .STATE
    | some q =>
      if v.state ≠ 1 || bits x.arg 17 0 = 0 || (t.queuesAt q).sid.isSome then t.finish r .STATE
      else if 4096 ≤ (t.now.boundTo x.sid).length then t.finish r .QFULL
      else (t.modQueues q fun k => { k with sid := some x.sid }).finish r .OK)

/-- SESSION_UNBIND (R397): the queue keeps its state and its records wait in its ring (R401). -/
def execSessionUnbind (r : Nat) (s : State) : Host.Outcome State Fault Refusal :=
  done ((begin s).control r 0x83 fun x v t =>
    match t.now.localQ x.fn (bits x.arg 17 0) with
    | none => t.finish r .STATE
    | some q =>
      if v.state = 0 || (t.queuesAt q).sid ≠ some x.sid || t.now.reserved q ≠ 0 then t.finish r .STATE
      else (t.modQueues q fun k => { k with sid := none }).finish r .OK)

/-! ### Closing (R397, R400) -/

/-- SESSION_CLOSE (R400): the session drains; the record's CQE waits until it is FREE. -/
def execSessionClose (r : Nat) (s : State) : Host.Outcome State Fault Refusal :=
  done ((begin s).control r 0x84 fun x v t =>
    if v.state = 0 then t.finish r .STATE
    else (t.putSessions x.sid { v with state := 2, closers := v.closers ++ [r] }).modRecords r fun k => { k with stage := .dispatched })

/-- The reply of SESSION_QUERY: state, KSID, MAXFLIGHT, records in flight, quotas left, all ones where there is none. The spec
gives no layout; log entry 32 names this one. -/
def State.queryReply (s : State) (sid : Nat) : List Byte :=
  let v := s.sessionsAt sid
  let left (o : Option Nat) : List Byte := natLe 8 (o.getD (2 ^ 64 - 1))
  natLe 2 v.state ++ natLe 2 v.ksid ++ natLe 4 v.maxflight ++ natLe 8 (s.inFlight sid) ++ left v.qrec ++ left v.qepoch ++
    List.replicate 32 0

/-- SESSION_QUERY (R397). -/
def execSessionQuery (r : Nat) (s : State) : Host.Outcome State Fault Refusal :=
  done ((begin s).control r 0x85 fun x v t =>
    if v.state = 0 then t.finish r .STATE
    else
      let w := t.replyAt x.fn x.outPtr (t.now.queryReply x.sid)
      w.1.finish r w.2)

/-- A session whose EXPIRES has been reached drains (R400). -/
def Tx.expire (t : Tx s) (sid : Nat) : Tx s :=
  let v := t.sessionsAt sid
  if v.state = 1 && v.expires ≠ 0 && v.expires ≤ t.now.epochCount then t.putSessions sid { v with state := 2 } else t

/-- SESSION_EXPIRE (R400). -/
def execSessionExpire (sid : BitVec 16) (s : State) : Host.Outcome State Fault Refusal := done ((begin s).expire sid.toNat)

/-- A session ends: its key set returns to STATE 1 and its limbs leave every cluster, its queues are unbound, and its
SESSION_CLOSE records complete (R400). -/
def Tx.freeSession (t : Tx s) (sid : Nat) (st : Status := .OK) : Tx s :=
  let v := t.sessionsAt sid
  let t := (t.modKsets v.ksid fun k => if k.live then { k with state := 1, sid := 0 } else k).dropKeys v.ksid
  let t := t.forEach (t.now.boundTo sid) fun t q => t.modQueues q fun k => { k with sid := none }
  (t.forEach v.closers fun t r => t.finish r st).putSessions sid {}

/-- SESSION_FREE (R400): a draining session with no admitted record left becomes FREE. -/
def execSessionFree (sid : BitVec 16) (s : State) : Host.Outcome State Fault Refusal :=
  done ((begin s).when ((s.sessionsAt sid.toNat).state = 2 && s.inFlight sid.toNat = 0) fun t => t.freeSession sid.toNat)

/-! ### Function-level reset (R380) -/

/-- What a function-level reset does once no record of the function is left: sessions closed, queues DISABLED with a zero context,
BAR4 and host window entries invalid, its pages and vectors reset (R502). -/
def Tx.flrEnd (t : Tx s) (f : Nat) : Tx s :=
  let t := t.forEach ((t.now.sessions.filter fun v => v.2.state ≠ 0 && v.2.fn = f).map (·.1)) fun t sid => t.freeSession sid .ABORTED
  let t := t.forEach ((t.now.queues.filter fun q => t.now.fnOf q.1 = some f).map (·.1)) fun t q => t.putQueues q { ctx := 0 }
  let t := t.forEach (List.range 64) fun t k => t.setFld BAR4MAP.VALID 0 0 (64 * f + k)
  let t := t.forEach ((List.range 256).filter fun k => t.fld HWMAP.FUNC 0 k = f) fun t k => t.setFld HWMAP.VALID 0 0 k
  let t := ((t.resetPage .FN f).resetPage .MBOX f).putMboxes f {}
  let t := if f = 0 then (t.resetPage .MSIXPF 0).resetPage .PBAPF 0 else (t.resetPage .MSIX f).resetPage .PBA f
  t.modPcie f fun x => { ({} : PcieFn) with bar4 := x.bar4 }

/-- Records of a function that have no CQE. -/
def State.fnRecords (s : State) (f : Nat) : List Nat := (s.records.filter fun r => r.2.stage ≠ .none && r.2.fn = f).map (·.1)

/-- FLR (R380): admission stops, undispatched and control records complete ABORTED at once, dispatched ones are aborted at the next
boundary; with none left the reset ends. -/
def Tx.flr (t : Tx s) (f : Nat) : Tx s :=
  let t := t.modPcie f fun x => { x with flr := true }
  let t := t.forEach (t.now.fnRecords f) fun t r =>
    let x := t.recordsAt r
    if x.stage = .dispatched && x.opcode = 1 then t.modRecords r fun x => { x with aborting := true }
    else
      let t := t.modSessions x.sid fun v => { v with closers := v.closers.erase r }
      (t.when (x.stage ≠ .finished) fun t => t.finish r .ABORTED).cqeWrite r
  if (t.now.fnRecords f).isEmpty then t.flrEnd f else t

@[inherit_doc Tx.flr] def execFlr (f : Fin 64) (s : State) : Host.Outcome State Fault Refusal :=
  done ((begin s).when (!s.tripped) fun t => t.flr f)

end Sys2Proof.Machine
end

