-- ==== Sys2Proof/Machine/Spad.lean ====
section
/-!
DEFINITION. The scratchpad as others reach it (ch. 10): NoC requests (R235, R240, R241), bank atomics (R243, R244, R258),
the starvation guard (R239), the usable size (R245) and the background test (R246 to R250).
-/

namespace Sys2Proof.Machine

variable {s : State}

/-! ### NoC requests (R235, R240) -/

/-- A memory request by `who` at device-local address `a`, judged line by line (R240, R283); the reply's status and data. -/
def Tx.memOp (t : Tx s) (who : Who) (a : Nat) : MemOp → Tx s × Status × List Byte
  | .read n => (t.logRead who a n, (t.now.readRange who a n).2, t.now.readLines who a n)
  | .write bs => (t.writeRange who a bs, t.now.writeStatus who a bs.length, [])

/-- Does a write of `n` bytes at `a` cover part of a word (R235)? -/
def partWord (a n : Nat) : Bool := n ≠ 0 && (a % 4 ≠ 0 || (a + n) % 4 ≠ 0)

/-- A write of part of a word begins as a bank atomic does (R235, R244): its restarts by engine writes are counted, and sixteen abandon
it. Is it abandoned? -/
def Tx.partAtomic (t : Tx s) (i a n restarts : Nat) : Tx s × Bool :=
  if partWord a n then
    let t := t.bump TILE.SPATOM.RETRY (min restarts 16) i
    if 16 ≤ restarts then (t.bump TILE.SPATOM.ABANDON 1 i, true) else (t, false)
  else (t, false)

/-- The words of a write at offset `off` that a requester of higher priority wrote in the same cycle keep what that one wrote (R241). -/
def keepLost (lost : List (BitVec 23)) (off : Nat) (old bs : List Byte) : List Byte :=
  (bs.zip old).zipIdx.map fun p => if lost.any (·.toNat = (off + p.2) / 4) then p.1.2 else p.1.1

/-- SPAD_NOC_ACCESS: a request to a tile's scratchpad. A write leaves the words that a requester of higher priority writes in the same
cycle, and COLLIDE counts it once (R241; log entry 69); a word that it covers in part it writes as a bank atomic does (R235, R244). -/
def execSpadNocAccess (who : Who) (i : Fin 64) (off : BitVec 25) (op : MemOp) (rivals : Rivals) (s : State) :
    Host.Outcome State Fault Refusal :=
  let t := begin s
  let a := spadBase i + off.toNat
  let reply (r : Tx s × Status × List Byte) : Host.Outcome State Fault Refusal := done (r.1.emit (.reply .noc r.2.1.code r.2.2))
  match op with
  | .read _ => reply (t.memOp who a op)
  | .write bs =>
    let n := bs.length
    let u := if s.writeStatus who a n = .OK then t.partAtomic i a n rivals.restarts else (t, false)
    if u.2 then reply (u.1, .BUSY, [])
    else
      let t := u.1.when (rivals.lost.any fun w => off.toNat < 4 * w.toNat + 4 && 4 * w.toNat < off.toNat + n) fun t =>
        t.bump TILE.SPCNT.COLLIDE 1 i
      reply (t.memOp who a (.write (keepLost rivals.lost off.toNat (s.read a n) bs)))

/-! ### Atomics (R243, R244, R258) -/

/-- Operations of the bank atomics table; MADD carries its prime. -/
inductive AtomOp
  | add
  | swap
  | cas (cmp : Nat)
  | madd (q : Nat)
  deriving DecidableEq, Repr

/-- The new value (R243) of an operand of `n` bytes. -/
def AtomOp.apply (o : AtomOp) (n old v : Nat) : Nat :=
  match o with
  | .add => (old + v) % 2 ^ (8 * n)
  | .swap => v % 2 ^ (8 * n)
  | .cas c => if old = c % 2 ^ (8 * n) then v % 2 ^ (8 * n) else old
  | .madd q => (old + v) % q

/-- An atomic on a scratchpad operand (R243, R244): status, old value. Sixteen restarts by engine writes abandon it. -/
def Tx.atomMem (t : Tx s) (who : Who) (o : AtomOp) (a n v restarts : Nat) : Tx s × Status × Nat :=
  let i := (a - spadSpace) / 0x2000000
  if (n ≠ 4 && n ≠ 8) || a % n ≠ 0 || !isSpad a then (t, .RANGE, 0)
  else
    match t.now.access who a with
    | .OK =>
      let t := t.bump TILE.SPATOM.RETRY (min restarts 16) i
      if 16 ≤ restarts then (t.bump TILE.SPATOM.ABANDON 1 i, .BUSY, 0)
      else if t.now.poisoned a n then (t, .POISON, 0)
      else
        let old := leNat (t.now.read a n)
        (t.write a (natLe n (o.apply n old v)), .OK, old)
    | st => (t, st, 0)

/-- An atomic on an element of an open ATOM reduction (R258). -/
def Tx.atomRed (t : Tx s) (o : AtomOp) (cl rid elem v : Nat) : Tx s × Status × Nat :=
  let r := (t.clustersAt cl).reduction rid
  if !r.isOpen || r.op ≠ 8 || 16 * r.len ≤ elem then (t, .RANGE, 0)
  else
    let old := r.words.getD elem 0
    (t.putRed cl rid { r with words := r.words.set elem (o.apply 4 old v) }, .OK, old)

/-- An atomic wherever it acts. FETCH_MADD works on 32-bit words with a valid slot (R243). -/
def Tx.atom (t : Tx s) (who : Who) (o : AtomOp) (at_ : AtomAt) (n v restarts : Nat) : Tx s × Status × Nat :=
  match at_ with
  | .mem a => t.atomMem who o a n v restarts
  | .red cl rid elem => if n = 4 then t.atomRed o cl rid.toNat elem v else (t, .RANGE, 0)

/-- FETCH_MADD's operation, or none where its size or slot is refused (R243). -/
def State.maddOp (s : State) (n slot : Nat) : Option AtomOp :=
  if n = 4 && slot < 128 && s.primeValid slot then some (.madd (s.primeQ slot)) else none

/-- Perform an atomic and answer its requester. -/
def Tx.atomReply (t : Tx s) (who : Who) (o : Option AtomOp) (at_ : AtomAt) (n v restarts : Nat) : Tx s :=
  match o with
  | some o =>
    let r := t.atom who o at_ n v restarts
    r.1.emit (.reply .noc r.2.1.code (natLe 8 r.2.2))
  | none => t.emit (.reply .noc Status.RANGE.code (natLe 8 0))

/-- FETCH_ADD (R243) of `n` bytes; `restarts` counts the engine writes to the operand during the atomic (R244). -/
def execFetchAdd (who : Who) (at_ : AtomAt) (n : Nat) (v : BitVec 64) (restarts : Nat) (s : State) :
    Host.Outcome State Fault Refusal :=
  done ((begin s).atomReply who (some .add) at_ n v.toNat restarts)

/-- SWAP (R243). -/
def execSwap (who : Who) (at_ : AtomAt) (n : Nat) (v : BitVec 64) (restarts : Nat) (s : State) :
    Host.Outcome State Fault Refusal :=
  done ((begin s).atomReply who (some .swap) at_ n v.toNat restarts)

/-- CAS (R243). -/
def execCas (who : Who) (at_ : AtomAt) (n : Nat) (v cmp : BitVec 64) (restarts : Nat) (s : State) :
    Host.Outcome State Fault Refusal :=
  done ((begin s).atomReply who (some (.cas cmp.toNat)) at_ n v.toNat restarts)

/-- FETCH_MADD (R243) with the prime of a prime table slot. -/
def execFetchMadd (who : Who) (at_ : AtomAt) (n : Nat) (v : BitVec 32) (slot : BitVec 7) (restarts : Nat) (s : State) :
    Host.Outcome State Fault Refusal :=
  done ((begin s).atomReply who (s.maddOp n slot.toNat) at_ n v.toNat restarts)

/-! ### Starvation guard (R239) -/

/-- STARVATION_GUARD: the forced grant is counted, stalls one engine for a cycle (R237), and marks the epoch perturbed. -/
def execStarvationGuard (i : Fin 64) (s : State) : Host.Outcome State Fault Refusal :=
  done ((((begin s).bump TILE.SPCNT.GUARD 1 i).bump TILE.SPSTALL.STALL 1 i).perturb i)

/-! ### Usable size (R245) -/

/-- The scratchpad that loaded graphs declare on a tile, in bytes (R219). -/
def State.spadDeclared (s : State) (i : Nat) : Nat :=
  (s.graphs.filter fun g => g.2.live && bit g.2.clusters (i / 8)).foldl (fun m g => max m g.2.spad) 0

/-- Write SPAD_SIZE.SIZE (R245). -/
def Tx.spadSize (t : Tx s) (i v : Nat) : Tx s :=
  if t.now.runState i ≠ runIdle || t.flag TILE.SPTEST.EN i || v * 0x80000 < t.now.spadDeclared i ||
      t.fld TILE.SPAD_SIZE.MAX i < v then t.logStatus .TILE i .STATE
  else if v < 8 then t.logStatus .TILE i .RANGE
  else t.setFld TILE.SPAD_SIZE.SIZE v i

/-- SPAD_SIZE_WRITE (R245). -/
def execSpadSizeWrite (o : RegFrom) (i : Fin 64) (v : BitVec 7) (s : State) : Host.Outcome State Fault Refusal :=
  done ((begin s).guarded o .TILE i (fun t => t.spadSize i v.toNat) true)

/-! ### Background test (R246 to R250) -/

/-- Write SPTEST (R246, R250): EN = 1 while SIZE is 64 is discarded with STATE; the test starts and stops between units. -/
def Tx.spTest (t : Tx s) (i period : Nat) (en : Bool) : Tx s :=
  if en && t.fld TILE.SPAD_SIZE.SIZE i = 64 then t.logStatus .TILE i .STATE
  else
    let t := (t.setFld TILE.SPTEST.PERIOD period i).setFld TILE.SPTEST.EN (bnat en) i
    if t.fld TILE.SPTSTAT.STATE i = 2 then t else t.setFld TILE.SPTSTAT.STATE (bnat en) i

/-- SPTEST_WRITE (R246). -/
def execSptestWrite (o : RegFrom) (i : Fin 64) (period : BitVec 16) (en : Bool) (s : State) :
    Host.Outcome State Fault Refusal :=
  done ((begin s).guarded o .TILE i fun t => t.spTest i period.toNat en)

/-- The bank of a scratchpad row (R234). -/
def bankOfRow (r : Nat) : Nat := bits r 5 0 ^^^ bits r 11 6 ^^^ bits r 17 12 ^^^ bits r 18 18

/-- One row fails the march (R249): a spare row of its bank takes it and a CE is logged; without one, the unit is pinned. -/
def Tx.rowFails (t : Tx s) (i unit row : Nat) : Tx s :=
  let b := bankOfRow row
  let used := mapGet 0 (t.tilesAt i).spares b
  let t := t.logError .TILE i { status := .OK, cls := 1, addr := t.now.globalLine (spadBase i + 64 * row), detail := 0xFF00 }
  if used < 16 then
    let t := (t.modTiles i fun x => { x with spares := mapPut 0 x.spares b (used + 1) }).lifeCount (76 + i / 8)
    t.setFld TILE.SPTSTAT.SPARE (min (t.fld TILE.SPTSTAT.SPARE i) (15 - used)) i
  else ((t.modTiles i fun x => { x with pinned := some unit }).setFld TILE.SPTSTAT.STATE 2 i).setFld TILE.SPAD_SIZE.MAX 63 i

/-- SPTEST_UNIT (R246, R248, R249): the test of the next unit and then of the save area, which it leaves zero. `rows` are
the rows of the scratchpad that fail; those outside the unit and the save area do not count. Data of the unit stay as
they are. -/
def execSptestUnit (i : Fin 64) (rows : List Nat) (s : State) : Host.Outcome State Fault Refusal :=
  let t := begin s
  let u := (t.tilesAt i).sptUnit
  if t.fld TILE.SPTSTAT.STATE i ≠ 1 then done t
  else
    let t := t.setFld TILE.SPTSTAT.UNIT u i
    let bad := rows.filter fun r => r / 8192 = u || r / 8192 = 63
    let t := t.forEach bad fun t r => if t.fld TILE.SPTSTAT.STATE i = 1 then t.rowFails i u r else t
    if t.fld TILE.SPTSTAT.STATE i ≠ 1 then done t
    else
      let t := (t.zeroRange (spadBase i + 63 * 0x80000) 0x80000).setFld TILE.SPTSTAT.UNIT 63 i
      if u = 62 then
        done ((t.setFld TILE.SPTSTAT.PASSES (t.fld TILE.SPTSTAT.PASSES i + 1) i).modTiles i fun x => { x with sptUnit := 0 })
      else done (t.modTiles i fun x => { x with sptUnit := u + 1 })

end Sys2Proof.Machine
end

