-- ==== Sys2Proof/Machine/HostPort.lean ====
section
/-!
DEFINITION. The host port (ch. 16): function ranges (R373), device memory through BAR4 (R374, R375), the host window (R376),
CXL.mem and its mailbox (R336, R379).
-/

namespace Sys2Proof.Machine

variable {s : State}

/-! ### Ranges and maps -/

/-- Do two ranges of QIDs meet? -/
def rangesMeet (b1 n1 b2 n2 : Nat) : Bool := 0 < n1 && 0 < n2 && b1 < b2 + n2 && b2 < b1 + n1

/-- A write of QE.FNQ[f] (R373). -/
def Tx.fnq (t : Tx s) (f base count : Nat) : Tx s :=
  let old : Nat × Nat := (t.fld QE.FNQ.BASE 0 f, t.fld QE.FNQ.COUNT 0 f)
  let others := (List.range 64).filter (· ≠ f)
  if 2 ^ 18 < base + count || (f ≠ 0 && 4096 < count) || (others.any fun g => rangesMeet base count (t.fld QE.FNQ.BASE 0 g) (t.fld QE.FNQ.COUNT 0 g)) then
    t.logStatus .QE 0 .RANGE
  else if old ≠ (base, count) && (t.now.queues.any fun q => q.2.state ≠ 0 && old.1 ≤ q.1 && q.1 < old.1 + old.2) then
    t.logStatus .QE 0 .STATE
  else (t.setFld QE.FNQ.BASE base 0 f).setFld QE.FNQ.COUNT count 0 f

@[inherit_doc Tx.fnq] def execFnqWrite (o : RegFrom) (f : Fin 64) (base : BitVec 18) (count : BitVec 19) (s : State) :
    Host.Outcome State Fault Refusal :=
  done ((begin s).guarded o .QE 0 fun t => t.fnq f base.toNat count.toNat)

/-- Bytes of a BAR4 segment of a function (R372, R374). -/
def State.segBytes (s : State) (f : Nat) : Nat := if f = 0 then 2 ^ ((s.pcieAt 0).bar4 - 6) else 2 ^ 26

/-- May entry value `v` of segment `k` of function `f` be written (R374)? -/
def State.segCheck (s : State) (f v : Nat) : Status :=
  let base := bits v 43 0
  let n := s.segBytes f
  if !bit v 127 then .OK
  else
    match bits v 125 124 with
    | 0 => if base % n ≠ 0 || !(base + n ≤ nearEnd || (s.isFar base && s.isFar (base + n - 1))) then .RANGE else .OK
    | 1 => if !isSpad base || (base - spadSpace) % 0x2000000 ≠ 0 then .RANGE
           else if f ≠ 0 || s.flag QE.MODE.SERVICE then .DENIED else .OK
    | _ => .RANGE

/-- A write of a whole BAR4MAP entry; a refusal is logged in the QE page. -/
def Tx.bar4map (t : Tx s) (k v : Nat) : Tx s :=
  match t.now.segCheck (k / 64) v with
  | .OK => t.putSpan ((Page.BAR4MAP).base 0 + 16 * k) 4 v
  | st => t.logStatus .QE 0 st

/-- BAR4MAP_WRITE (R374). -/
def execBar4mapWrite (o : RegFrom) (f seg : Fin 64) (v : BitVec 128) (s : State) : Host.Outcome State Fault Refusal :=
  done ((begin s).guarded o .BAR4MAP 0 fun t => t.bar4map (64 * f + seg) v.toNat)

/-- A write of a whole HWMAP entry (R376). -/
def Tx.hwmap (t : Tx s) (k v : Nat) : Tx s := t.putSpan ((Page.HWMAP).base 0 + 16 * k) 4 v

@[inherit_doc Tx.hwmap] def execHwmapWrite (o : RegFrom) (k : Fin 256) (v : BitVec 128) (s : State) :
    Host.Outcome State Fault Refusal :=
  done ((begin s).guarded o .HWMAP 0 fun t => t.hwmap k v.toNat)

/-! ### BAR4 (R375) -/

/-- The device-local address that a byte of a function's BAR4 reaches, with the status of an access there. -/
def State.bar4At (s : State) (f off : Nat) (w : Bool) : Status × Nat :=
  let n := s.segBytes f
  let e := s.regSpan ((Page.BAR4MAP).base 0 + 16 * (64 * f + off / n)) 4
  let o := off % n
  let a := bits e 43 0 + o
  if 64 * n ≤ off || !bit e 127 then (.RANGE, a)
  else if w && !bit e 126 then (.DENIED, a)
  else if bits e 125 124 = 1 && s.spadEnd ((bits e 43 0 - spadSpace) / 0x2000000) ≤ o then (.RANGE, a)
  else (s.access .host a, a)

/-- The pieces of a request by line: offset and length. -/
def linePieces (off n : Nat) : List (Nat × Nat) :=
  (linesOf off n).map fun k => (max off (64 * k), min (off + n) (64 * k + 64) - max off (64 * k))

/-- What a BAR access meets before any memory (R457, R484, R517). -/
def State.barGate (s : State) : HostGate :=
  if s.fatal then .fatal else if s.slumber then .asleep else if !s.ready then .window else .pass

/-- Read through BAR4: the bytes, or the status of the lowest line that fails. -/
def State.bar4Read (s : State) (f : Nat) : List (Nat × Nat) → Status × List Byte
  | [] => (.OK, [])
  | p :: ps =>
    let x := s.bar4At f p.1 false
    if x.1 ≠ .OK then (x.1, [])
    else if s.poisoned x.2 p.2 then (.POISON, [])
    else
      match s.bar4Read f ps with
      | (.OK, bs) => (.OK, s.read x.2 p.2 ++ bs)
      | r => r

/-- BAR4_READ (R375): function `f` reads `n` bytes at an offset of its BAR4. -/
def execBar4Read (f : Fin 64) (off : BitVec 40) (n : Nat) (s : State) : Host.Outcome State Fault Refusal :=
  let t := begin s
  if s.tripped then done t
  else
    match s.barGate with
    | .pass =>
      let r := s.bar4Read f (linePieces off.toNat n)
      let t := t.forEach (linePieces off.toNat n) fun t p =>
        let x := t.now.bar4At f p.1 false
        t.when (x.1 = .DENIED) fun t => t.logAccess x.2 x.1 false
      done (t.emit (.reply (.bar f) r.1.pcie r.2))
    | g => done ((t.when (g = .asleep) fun t => t.glmEvent 0).emit (.reply (.bar f) pcieCA []))

/-- One line of a BAR4 write: performed, or discarded, logged in the function page and counted. A poisoned (EP) write poisons the
line (R478); a partial write to a poisoned line fails (R342); part of a word of a scratchpad is written as a bank atomic (R235). -/
def Tx.bar4Line (t : Tx s) (f off : Nat) (bs : List Byte) (ep : Bool) (restarts : Nat) : Tx s :=
  let x := t.now.bar4At f off true
  let drop (t : Tx s) (st : Status) : Tx s :=
    (t.logError .FN f { status := st, cls := st.cls, addr := t.now.globalLine x.2 }).bump FN.ERRCNT.WRDROP 1 f
  if x.1 ≠ .OK then (drop t x.1).when (!isSpad x.2 && t.now.access .host x.2 = .DENIED) fun t => t.logAccess x.2 .DENIED true
  else if ep then (t.poisonRange x.2 bs.length).logError .FN f { status := .POISON, cls := 2, addr := t.now.globalLine x.2 }
  else if bs.length < 64 && t.now.poisoned x.2 1 then drop t .POISON
  else
    let u := if isSpad x.2 then t.partAtomic ((x.2 - spadSpace) / 0x2000000) x.2 bs.length restarts else (t, false)
    if u.2 then drop u.1 .BUSY else u.1.write x.2 bs

/-- BAR4_WRITE (R375). -/
def execBar4Write (f : Fin 64) (off : BitVec 40) (bs : List Byte) (how : HostWrite) (s : State) :
    Host.Outcome State Fault Refusal :=
  let t := begin s
  if s.tripped then done t
  else
    match s.barGate with
    | .pass => done (t.forEach (linePieces off.toNat bs.length) fun t p =>
        t.bar4Line f p.1 ((bs.drop (p.1 - off.toNat)).take p.2) how.ep how.restarts)
    | .asleep => done (t.glmEvent 0)
    | .window => done (t.logStatus .CHIP 0 .NOT_READY)
    | _ => done t

/-- BAR4_ATOMICOP (R375): 4 or 8 bytes of a scratchpad operand; anywhere else RANGE. -/
def execBar4Atomicop (f : Fin 64) (off : BitVec 40) (n : Nat) (op : PcieAtom) (restarts : Nat) (s : State) :
    Host.Outcome State Fault Refusal :=
  let t := begin s
  let ov : AtomOp × Nat := match op with
    | .fetchAdd v => (.add, v.toNat)
    | .swap v => (.swap, v.toNat)
    | .cas v c => (.cas c.toNat, v.toNat)
  if s.tripped then done t
  else
    match s.barGate with
    | .pass =>
      let x := s.bar4At f off.toNat true
      let r := if x.1 ≠ .OK then (t, x.1, 0) else t.atomMem .host ov.1 x.2 n ov.2 restarts
      done (r.1.emit (.reply (.bar f) r.2.1.pcie (if r.2.1 = .OK then natLe n r.2.2 else [])))
    | g => done ((t.when (g = .asleep) fun t => t.glmEvent 0).emit (.reply (.bar f) pcieCA []))

/-! ### CXL.mem (R336, R379) -/

/-- The lent range's bytes as LEND.SIZE names them. -/
def State.lendBytes (s : State) : Nat := s.fld MEMSYS.LEND.SIZE * 2 ^ 30

/-- HDM_COMMIT (R379): the decoder commits its range onto the lent range, or its error bit is set. -/
def Tx.hdmCommit (t : Tx s) (base size : Nat) : Tx s :=
  if t.now.lendBytes = 0 || size ≠ t.now.lendBytes || t.flag MEMSYS.LEND.BUSY then t.putCxl { t.now.cxl with error := true }
  else t.putCxl { committed := true, error := false, base := base, size := size }

@[inherit_doc Tx.hdmCommit] def execHdmCommit (base size : BitVec 64) (s : State) : Host.Outcome State Fault Refusal :=
  done ((begin s).when (!s.tripped && !s.fatal && s.ready && !s.slumber && !s.cxl.committed) fun t =>
    t.hdmCommit base.toNat size.toNat)

/-- One CXL.mem request within a line at a host address; a read of a poisoned line returns the line and the poison indication. -/
def Tx.cxlMem (t : Tx s) (h : Nat) (op : MemOp) : Tx s :=
  let a := t.now.lentRange.1 + (h - t.now.cxl.base)
  match t.now.access .cxl a, op with
  | .OK, .read n => t.emit (.reply .cxl (if t.now.poisoned a n then Status.POISON.code else 0) (t.now.read a n))
  | .OK, .write bs =>
    if bs.length < 64 && t.now.poisoned a 1 then t.emit (.reply .cxl Status.POISON.code [])
    else (t.write a bs).emit (.reply .cxl 0 [])
  | st, _ => t.emit (.reply .cxl st.code [])

/-- CXL_MEM_REQUEST (R336): nothing is decoded outside a committed range. -/
def execCxlMemRequest (h : BitVec 64) (op : MemOp) (s : State) : Host.Outcome State Fault Refusal :=
  let x := s.cxl
  done ((begin s).when (!s.tripped && x.committed && x.base ≤ h.toNat && h.toNat < x.base + x.size) fun t => t.cxlMem h.toNat op)

/-- Answer a CXL mailbox command. Its payload is laid out by CXL 3.1 and not by the spec: free bytes (log entry 43). -/
def Tx.cxlMailbox (t : Tx s) (op : Nat) (arg : List Byte) : Tx s :=
  if t.now.tripped || t.now.fatal || !t.now.ready then t
  else t.emit (.reply .cxl 0 (Config.cxlReply op t.now.lendBytes arg))

/-- IDENTIFY_MEMORY_DEVICE (R379). -/
def execIdentifyMemoryDevice (s : State) : Host.Outcome State Fault Refusal := done ((begin s).cxlMailbox 0x4000 [])

/-- GET_PARTITION_INFO (R379). -/
def execGetPartitionInfo (s : State) : Host.Outcome State Fault Refusal := done ((begin s).cxlMailbox 0x4100 [])

/-- GET_SUPPORTED_LOGS (R379). -/
def execGetSupportedLogs (s : State) : Host.Outcome State Fault Refusal := done ((begin s).cxlMailbox 0x0400 [])

/-- GET_LOG (R379). -/
def execGetLog (arg : List Byte) (s : State) : Host.Outcome State Fault Refusal := done ((begin s).cxlMailbox 0x0401 arg)

/-- GET_HEALTH_INFO (R379). -/
def execGetHealthInfo (s : State) : Host.Outcome State Fault Refusal := done ((begin s).cxlMailbox 0x4200 [])

end Sys2Proof.Machine
end

