-- ==== Sys2Proof/Machine/Mailbox.lean ====
section
/-!
DEFINITION. Mailboxes (R408 to R416): messages and their checks, the endpoints, and the opcodes of the mailbox ROM, HELLO and
IDENT.
-/

namespace Sys2Proof.Machine

variable {s : State}

/-! ### Messages (R410, R414) -/

/-- The bytes from `lo`, `n` of them, as a little-endian number. -/
def leAt (b : List Byte) (lo n : Nat) : Nat := leNat (part b lo (lo + n))

/-- The opcode of a message. -/
def msgOp (m : List Byte) : Nat := leAt m 4 2

/-- The payload of a message. -/
def msgPayload (m : List Byte) : List Byte := m.drop 16

/-- The request payload length of an opcode; none for an undefined one (R414). -/
def opLength (op : Nat) : Option Nat :=
  match op with
  | 0x0001 | 0x0040 => some 8
  | 0x0002 | 0x0051 => some 0
  | 0x0010 => some 32
  | 0x0011 | 0x0013 | 0x0021 | 0x0031 => some 4
  | 0x0012 => some 256
  | 0x0020 => some 80
  | 0x0030 => some 16
  | 0x0050 => some 12
  | _ => none

/-- The reserved payload bytes of an opcode, from the first to the one past the last (R413, R414). -/
def opReserved (op : Nat) : Nat × Nat :=
  match op with
  | 0x0001 => (4, 8)
  | 0x0010 => (1, 16)
  | 0x0011 | 0x0013 => (1, 4)
  | 0x0020 => (0x4C, 0x50)
  | 0x0021 => (2, 4)
  | _ => (0, 0)

/-- The feature bit that admits an opcode (table "Feature bits"); none for HELLO and IDENT. -/
def opFeature (op : Nat) : Option Nat :=
  match op with
  | 0x0010 | 0x0011 | 0x0012 | 0x0013 => some 1
  | 0x0020 | 0x0021 => some 2
  | 0x0030 | 0x0031 => some 3
  | 0x0040 => some 4
  | 0x0050 | 0x0051 => some 5
  | _ => none

/-- The address ranges that a payload carries (R414). -/
def opRanges (op : Nat) (p : List Byte) : List (Nat × Nat) :=
  match op with
  | 0x0012 => [(leAt p 0x20 8, 2048)]
  | 0x0020 => [(leAt p 0x18 8, 16 * leAt p 0x14 2), (leAt p 0x40 8, 512)]
  | 0x0030 => [(leAt p 8 8, leAt p 4 4)]
  | 0x0050 => [(leAt p 0 8, leAt p 8 4)]
  | _ => []

/-! ### Endpoints -/

/-- Endpoint numbers: function f, or management endpoint ID e as 64 + e. -/
def mgmtKey (eid : BitVec 8) : Nat := 64 + eid.toNat

/-- Is the boot a recovery boot (R507)? -/
def State.recovery (s : State) : Bool := s.flag STRAP.VAL.RECOVERY

/-- Does every byte of a range lie in VALID segments of a function's BAR4 that map the tiers (R374, R414)? A VF's segments are
64 MiB, aligned. -/
def State.vfCovers (s : State) (f a n : Nat) : Bool :=
  let segs := (List.range 64).filterMap fun k =>
    let e := s.regSpan ((Page.BAR4MAP).base 0 + 16 * (64 * f + k)) 4
    if bit e 127 && bits e 125 124 = 0 then some (bits e 43 0 / 2 ^ 26) else none
  (List.range ((a + max 1 n - 1) / 2 ^ 26 + 1 - a / 2 ^ 26)).all fun j => segs.contains (a / 2 ^ 26 + j)

/-- May an endpoint name a range (R414)? -/
def State.mayName (s : State) (k a n : Nat) : Bool :=
  a % 64 = 0 && s.inTier a (max 1 n) && (k = 0 || 64 ≤ k || s.vfCovers k a n)

/-- Features available to an endpoint (table "Feature bits", R507). -/
def State.available (s : State) (k : Nat) : Nat :=
  if s.recovery then (if k = 0 || 64 ≤ k then 0x20 else 0)
  else bnat (s.flag QE.MODE.SERVICE) + (if k = 0 then 0x3E else if k < 64 then 0x0C else 0x30)

/-- Does step 3 of R411 pass: the module ready, or HELLO or IDENT; in a recovery boot only the PATCH opcodes besides (R507, R514)? -/
def State.opOpen (s : State) (op : Nat) : Bool :=
  op = 1 || op = 2 || (s.ready && (!s.recovery || op = 0x50 || op = 0x51))

/-- The request checks 1 to 8 (R411) on a message of endpoint `k`. -/
def State.requestCheck (s : State) (k : Nat) (m : List Byte) : Status :=
  let op := msgOp m
  let n := leAt m 0x0C 2
  let flags := leAt m 6 1
  let grant := (s.mboxesAt k).grant
  let reserved := opReserved op
  if leAt m 0 2 ≠ 0x4D42 || flags % 2 = 1 || 4096 < n || n % 4 ≠ 0 || m.length ≠ n + 16 then .PROTO
  else if leAt m 3 1 ≠ 1 then .VERSION
  else if !s.opOpen op then .NOT_READY
  else if (opLength op).isNone || 4 ≤ flags || (2 ≤ flags && op ≠ 0x50) || !zeroBytes m 0x0E 0x10 then .RANGE
  else if grant.isNone && op ≠ 1 && op ≠ 2 then .STATE
  else if (opFeature op).any fun b => !bit (grant.getD 0) b then .DENIED
  else if opLength op ≠ some n || !zeroBytes (msgPayload m) reserved.1 reserved.2 then .RANGE
  else if (opRanges op (msgPayload m)).any fun r => !s.mayName k r.1 r.2 then .DENIED
  else .OK

/-- A reply (R412). -/
def replyBytes (m : List Byte) (st : Status) (payload : List Byte) : List Byte :=
  natLe 2 0x4D42 ++ natLe 1 (if st = .VERSION then 4 else min 4 (leAt m 2 1)) ++ natLe 1 1 ++ natLe 2 (msgOp m) ++ natLe 1 1
    ++ natLe 1 st.code ++ natLe 4 (leAt m 8 4) ++ natLe 2 payload.length ++ natLe 2 0 ++ payload

/-- Answer the request of an endpoint: a function's is stored and signalled (R409, R421), a management endpoint's is stored and
sent. -/
def Tx.mboxReply (t : Tx s) (k : Nat) (m : List Byte) (st : Status) (payload : List Byte) : Tx s :=
  let r := replyBytes m st payload
  if k < 64 then
    let t := t.modMboxes k fun x => { x with request := [], reply := r }
    let t := (t.setFld MBOX.STAT.BUSY 0 k).setFld MBOX.STAT.REPLY 1 k
    t.when (t.flag MBOX.CTL.IEN k) fun t => t.msix k (t.fld MBOX.CTL.VECTOR k)
  else (t.modMboxes k fun x => { x with request := [], reply := r, seq := some (leAt m 8 4) }).emit (.reply .mgmt 0 r)

/-- A request of an endpoint: answered at once where it fails a check of steps 1 to 8 (R411), else it waits for its serving core. -/
def Tx.takeRequest (t : Tx s) (k : Nat) (m : List Byte) : Tx s :=
  match t.now.requestCheck k m with
  | .OK => t.modMboxes k fun x => { x with request := m }
  | st => t.mboxReply k m st []

/-- A write of MBOX.CTL.GO (R409, R421): words 0 to WIDX − 1 are the request. -/
def Tx.mboxGo (t : Tx s) (f : Nat) : Tx s :=
  if t.flag MBOX.STAT.BUSY f then t.logStatus .MBOX f .BUSY
  else
    let x := t.now.mboxesAt f
    let m := (List.range (t.fld MBOX.WIDX.INDEX f)).flatMap fun k => natLe 4 (mapGet 0 x.words k)
    let t := (t.putMboxes f { x with reply := [] }).setFld MBOX.WIDX.INDEX 0 f
    (t.setFld MBOX.STAT.BUSY 1 f).takeRequest f m

/-- Is the management mailbox answered: from stage 0x20 (R517), while the firmware runs (R457, R464, R484)? -/
def State.mgmtUp (s : State) : Bool :=
  0x20 ≤ s.fld RESET.BOOT.STAGE && !s.tripped && !s.fatal && !s.slumber

/-- A message of a management endpoint arrives (R408, R409): the stored reply again for the SEQ it answered; BUSY while a request
is pending, and for a ninth endpoint (log entry 48). -/
def Tx.mgmtArrive (t : Tx s) (eid : BitVec 8) (m : List Byte) : Tx s :=
  let k := mgmtKey eid
  let x := t.now.mboxesAt k
  let busy (t : Tx s) : Tx s := t.emit (.reply .mgmt 0 (replyBytes m .BUSY []))
  if !t.now.mgmtUp then t
  else if x = {} && 8 ≤ (t.now.mboxes.filter (64 ≤ ·.1)).length then busy t
  else if x.request ≠ [] then busy t
  else if 16 ≤ m.length && x.seq = some (leAt m 8 4) then t.emit (.reply .mgmt 0 x.reply)
  else t.takeRequest k m

/-- A mailbox command: its serving core takes the endpoint's pending request, which must carry this opcode, and answers it; or a
message arrives. A core that does not run serves nothing. -/
def Tx.mailbox (t : Tx s) (o : MboxFrom) (op : Nat) (body : Nat → List Byte → Tx s → Tx s × Status × List Byte) : Tx s :=
  let serve (k : Nat) : Tx s :=
    let m := (t.now.mboxesAt k).request
    if m = [] || msgOp m ≠ op || t.now.tripped || t.now.fatal || t.now.slumber then t
    else
      match t.now.requestCheck k m with
      | .OK =>
        let r := body k m t
        r.1.mboxReply k m r.2.1 r.2.2
      | st => t.mboxReply k m st []
  match o with
  | .fn f => serve f
  | .mgmt e => serve (mgmtKey e)
  | .arrive e m => t.mgmtArrive e m

/-- A body that answers without a payload. -/
def Tx.plain (r : Tx s × Status) : Tx s × Status × List Byte := (r.1, r.2, [])

/-! ### The mailbox ROM (R413, R414) -/

/-- HELLO (R413): the features wanted and available are granted. -/
def execHello (o : MboxFrom) (s : State) : Host.Outcome State Fault Refusal :=
  done ((begin s).mailbox o 0x0001 fun k m t =>
    let g := leAt m 0x10 4 &&& t.now.available k
    (t.modMboxes k fun x => { x with grant := some g }, .OK, natLe 4 g ++ natLe 2 4096 ++ natLe 2 0))

/-- The payload of an IDENT reply. -/
def State.identity (s : State) : List Byte :=
  natLe 8 (s.regSpan ((Page.CHIP).base 0 + 0x100) 2) ++ natLe 4 (Config.enterprise % 2 ^ 32) ++ natLe 4 s.devId
    ++ (List.range 4).flatMap (fun k => natLe 4 (s.fld FWC.PATCHVER.SVN k)) ++ List.replicate 32 0

/-- IDENT (R414). -/
def execIdent (o : MboxFrom) (s : State) : Host.Outcome State Fault Refusal :=
  done ((begin s).mailbox o 0x0002 fun _ _ t => (t, .OK, t.now.identity))

end Sys2Proof.Machine
end

