-- ==== Sys2Proof/Machine/Params.lean ====
section
/-!
DEFINITION. Prime table loads (R54 to R60) and parameter set loads (R38 to R40, R43, R66, R153, R415), from the mailbox and from
package flash.
-/

namespace Sys2Proof.Machine

variable {s : State}

/-! ### Primes (R56 to R59) -/

/-- The first of steps 3 to 7 of R59 that an entry fails. -/
def entryFault (x : Nat) : Option Nat :=
  let q := bits x 31 0
  let root := bits x 95 64
  let n := bits x 125 124
  let k := bits x 122 117
  let fields := (List.range 3).map fun i => bits x (104 + 6 * i) (99 + 6 * i)
  let used := fields.take n
  let exps := used.map (· % 32)
  if bits x 127 126 ≠ 0 || bits x 63 32 ≠ 0 || bits x 98 96 ≠ 0 ||
      (if bit x 123 then k < 28 || 32 < k || (fields.drop n).any (· ≠ 0) || exps.any (fun e => e < 18 || k < e + 10) ||
          exps.eraseDups.length ≠ n
        else bits x 125 99 ≠ 0) then some 3
  else if q < 2 ^ 27 || q % 2 ^ 18 ≠ 1 then some 4
  else if bit x 123 && formValue k (used.map fun f => (32 ≤ f, f % 32)) ≠ (q : Int) then some 5
  else if !isPrime32 q then some 6
  else if q ≤ root || powMod root (2 ^ 17) q ≠ q - 1 then some 7
  else none

/-- Step 8: is the prime that of another valid slot? -/
def State.primeTaken (s : State) (slot q : Nat) : Bool :=
  s.primes.any fun e => e.1 ≠ slot && bit e.2 127 && bits e.2 31 0 = q

/-- The entry as validated (step 9). -/
def validated (x : Nat) : Nat := x + log2Q16 (bits x 31 0) <<< 32 + bnat (!bit x 123) <<< 126 + 1 <<< 127

/-- Replace an entry: its window shows it and GEN goes up by one (R58). -/
def Tx.setPrime (t : Tx s) (slot v : Nat) : Tx s :=
  let t := (t.putPrimes slot v).putSpan ((Page.PRIMETAB).base 0 + 0x800 + 16 * slot) 4 v
  t.setFld PRIMETAB.GEN.GEN ((t.fld PRIMETAB.GEN.GEN + 1) % 2 ^ 32)

/-- Does a live parameter set name the slot (R59 step 2)? -/
def State.slotUsed (s : State) (slot : Nat) : Bool :=
  s.psets.any fun p => p.2.live && (p.2.qslot.contains slot || p.2.pslot.contains slot)

/-- Steps 1 and 2 of R59: the step and status that refuse a load or a clear. -/
def State.slotCheck (s : State) (slot : Nat) : Option (Nat × Status) :=
  if slot < 64 then some (1, .DENIED)
  else if 127 < slot then some (1, .RANGE)
  else if s.slotUsed slot then some (2, .STATE)
  else none

/-- The step and status that refuse a PRIME_LOAD (R59). -/
def State.primeCheck (s : State) (slot x : Nat) : Option (Nat × Status) :=
  (s.slotCheck slot).or
    (match entryFault x with
     | some k => some (k, .RANGE)
     | none => if s.primeTaken slot (bits x 31 0) then some (8, .RANGE) else none)

/-- PRIMETAB.LASTFAIL shows a refusal. -/
def Tx.lastFail (t : Tx s) (slot : Nat) (r : Nat × Status) : Tx s :=
  ((t.setFld PRIMETAB.LASTFAIL.STATUS r.2.code).setFld PRIMETAB.LASTFAIL.STEP r.1).setFld PRIMETAB.LASTFAIL.SLOT slot

/-- PRIME_LOAD (R59). -/
def execPrimeLoad (o : MboxFrom) (s : State) : Host.Outcome State Fault Refusal :=
  done ((begin s).mailbox o 0x0010 fun _ m t =>
    let slot := leAt m 0x10 1
    let x := leAt m 0x20 16
    match t.now.primeCheck slot x with
    | some r => (t.lastFail slot r, r.2, [])
    | none => (t.setPrime slot (validated x), .OK, natLe 16 (validated x)))

/-- PRIME_CLEAR (R59): an empty slot stays as it is, GEN included. -/
def execPrimeClear (o : MboxFrom) (s : State) : Host.Outcome State Fault Refusal :=
  done ((begin s).mailbox o 0x0011 fun _ m t =>
    let slot := leAt m 0x10 1
    match t.now.slotCheck slot with
    | some r => (t.lastFail slot r, r.2, [])
    | none => (t.when (t.now.primeValid slot) fun t => t.setPrime slot 0, .OK, []))

/-! ### Parameter sets (R38 to R40, R153) -/

/-- The fields of a parameter set descriptor. -/
def psetOf (b : List Byte) : Pset where
  live := true
  kinds := leAt b 0x01 1
  logn := leAt b 0x02 1
  numQ := leAt b 0x03 1
  numP := leAt b 0x04 1
  dnum := leAt b 0x05 1
  security := leAt b 0x06 1
  secret := leAt b 0x07 1
  lweN := leAt b 0x08 2
  lweLogq := leAt b 0x0A 1
  lmode := leAt b 0x0B 1
  sigma := leAt b 0x0C 2
  freshNoise := leAt b 0x0E 2
  margin := leAt b 0x10 2
  minprec := leAt b 0x12 2
  encNoise := signed (leAt b 0x14 2) 16
  bootMbound := signed (leAt b 0x16 2) 16
  evalmodDepth := leAt b 0x19 1
  raiseI := leAt b 0x1A 2
  scaleTol := leAt b 0x1C 4
  curveAddr := leAt b 0x20 8
  bgvT := leAt b 0x28 4
  qslot := (List.range (leAt b 0x03 1)).map fun k => leAt b (0x40 + k) 1
  pslot := (List.range (leAt b 0x04 1)).map fun k => leAt b (0x80 + k) 1
  gauze := { brLogn := leAt b 0x90 1, glev := leAt b 0x91 1, bgLog := leAt b 0x92 1, ksDigits := leAt b 0x93 1,
             ksBaseLog := leAt b 0x94 1, repackLevel := leAt b 0x95 1, repackDepth := leAt b 0x96 1, repackSeq := leAt b 0x98 4 }

/-- Are the lookup fields within their ranges, for a set that allows LWE (R38, R153)? -/
def Pset.lookupOk (p : Pset) (b : List Byte) : Bool :=
  let g := p.gauze
  256 ≤ p.lweN && p.lweN ≤ 4096 && 2 ^ p.lweN.log2 = p.lweN && 2 ^ g.brLogn % p.lweN = 0 && 16 ≤ p.lweLogq && p.lweLogq ≤ 32 &&
  12 ≤ p.logn && p.logn ≤ 16 && 10 ≤ g.brLogn && g.brLogn ≤ 13 && g.brLogn ≤ p.logn && 1 ≤ g.glev && g.glev ≤ 4 &&
  4 ≤ g.bgLog && g.bgLog ≤ 16 && g.glev * g.bgLog ≤ 32 && 1 ≤ g.ksDigits && g.ksDigits ≤ 8 && 2 ≤ g.ksBaseLog &&
  g.ksBaseLog ≤ 16 && g.ksDigits * g.ksBaseLog ≤ 32 && g.repackLevel + g.repackDepth + 1 = p.numQ && zeroBytes b 0x97 0x98 &&
  zeroBytes b 0x9C 0xC0

/-- Step 3 of R39: every field within its range. -/
def Pset.fieldsOk (p : Pset) (b : List Byte) : Bool :=
  p.kinds < 16 && p.kinds ≠ 0 && 10 ≤ p.logn && p.logn ≤ 17 && 1 ≤ p.numQ && p.numQ ≤ 64 && 1 ≤ p.numP && p.numP ≤ 16 &&
  1 ≤ p.dnum && p.dnum ≤ 8 && p.security ≤ 3 && p.secret = 0 && p.lmode ≤ 1 && zeroBytes b 0x18 0x19 && zeroBytes b 0x2C 0x40 &&
  zeroBytes b 0xC0 0xE0 && (if bit p.kinds 1 then 2 ≤ p.bgvT && p.bgvT ≤ 2 ^ 31 else p.bgvT = 0) &&
  (if bit p.kinds 2 then p.lookupOk b else p.lweN = 0 && p.lweLogq = 0 && zeroBytes b 0x90 0xC0)

/-- The largest log2(Q·P) of a set with SECURITY 1 to 3 (R40). -/
def securityBound (logn sec : Nat) : Nat :=
  let row := match logn with
    | 10 => [27, 19, 14] | 11 => [54, 37, 29] | 12 => [109, 75, 58] | 13 => [218, 152, 118] | 14 => [438, 305, 237]
    | 15 => [881, 611, 476] | 16 => [1760, 1220, 950] | 17 => [3518, 2438, 1898] | _ => []
  row.getD (sec - 1) 0

/-- The curves of a curve table (R43), and step 6 of R39: x strictly ascending in curves 0 to 9, the others all zero. -/
def curvesOf (b : List Byte) : List (List (Int × Int)) :=
  (List.range 10).map fun c => (List.range 32).map fun k =>
    (signed (leAt b (128 * c + 4 * k) 2) 16, signed (leAt b (128 * c + 4 * k + 2) 2) 16)

@[inherit_doc curvesOf] def curvesOk (b : List Byte) : Bool :=
  ((curvesOf b).all fun c => (List.range 31).all fun k => (c.getD k (0, 0)).1 < (c.getD (k + 1) (0, 0)).1) &&
  zeroBytes b 1280 2048

/-- Steps 3 to 5 of R39 on a descriptor. -/
def State.psetCheck (s : State) (b : List Byte) : Status :=
  let p := psetOf b
  let slots := p.qslot ++ p.pslot
  let qs := slots.map s.primeQ
  if !p.fieldsOk b then .RANGE
  else if slots.any (fun k => !s.primeValid k) || qs.eraseDups.length ≠ qs.length then .RANGE
  else if p.security ≠ 0 && (p.sigma < 816 || 2 ^ securityBound p.logn p.security < prod qs) then .RANGE
  else .OK

/-- The set as it becomes live, with its DIGEST (R38, R39 step 7). -/
def psetLive (b curves : List Byte) : Pset :=
  { psetOf b with curves := curvesOf curves, digest := sha256 (b.take 0xE0 ++ curves) }

/-- Key sets bound to a session under a parameter set. -/
def State.boundKeys (s : State) (n : Nat) : Bool := s.ksets.any fun k => k.2.live && k.2.state = 2 && k.2.pset = n

/-- Is the set named by a loaded graph (R39 step 2, R415)? -/
def State.psetInGraph (s : State) (n : Nat) : Bool := s.graphs.any fun g => g.2.live && g.2.psets.contains n

/-- Is the set named by an open session's key set? -/
def State.psetInSession (s : State) (n : Nat) : Bool :=
  s.sessions.any fun v => v.2.state ≠ 0 && (s.ksetsAt v.2.ksid).live && (s.ksetsAt v.2.ksid).pset = n

/-- PSET_LOAD (R39): the set becomes live in one step. -/
def execPsetLoad (o : MboxFrom) (s : State) : Host.Outcome State Fault Refusal :=
  done ((begin s).mailbox o 0x0012 fun _ m t =>
    let b := msgPayload m
    let n := leAt b 0 1
    if 64 ≤ n then (t, .RANGE, [])
    else if n < 16 then (t, .DENIED, [])
    else if t.now.psetInGraph n || t.now.boundKeys n || t.now.psetInSession n then (t, .STATE, [])
    else
      let c := t.now.readRange .fw (leAt b 0x20 8) 2048
      match t.now.psetCheck b, c.2 with
      | .OK, .OK =>
        if curvesOk c.1 then (t.putPsets n (psetLive b c.1), .OK, (psetLive b c.1).digest) else (t, .RANGE, [])
      | .OK, st => (t.logRead .fw (leAt b 0x20 8) 2048, st, [])
      | st, _ => (t, st, []))

/-- PSET_REMOVE (R415). -/
def execPsetRemove (o : MboxFrom) (s : State) : Host.Outcome State Fault Refusal :=
  done ((begin s).mailbox o 0x0013 fun _ m t =>
    let n := leAt m 0x10 1
    let named := t.now.psetInGraph n || t.now.psetInSession n || t.now.ksets.any fun k => k.2.live && k.2.pset = n
    if 63 < n then (t, .RANGE, [])
    else if n < 16 then (t, .DENIED, [])
    else if !(t.now.psetsAt n).live || named then (t, .STATE, [])
    else (t.putPsets n {}, .OK, []))

/-! ### Vendor slots and sets (R39, R57) -/

/-- A vendor slot is validated by the steps of R59; one that fails stays invalid and is logged in the SCH's page. -/
def Tx.vendorPrime (t : Tx s) (e : Nat × Nat) : Tx s :=
  if 64 ≤ e.1 then t
  else if (entryFault e.2).isSome || t.now.primeTaken e.1 (bits e.2 31 0) then t.logStatus .FWC 2 .RANGE
  else t.setPrime e.1 (validated e.2)

/-- The fields that R167 gives a vendor lookup set, by offset in its descriptor: PSET 8 and 9; both run in trap mode. -/
def lookupFields (n : Nat) : List (Nat × List Byte) :=
  let x := n = 9
  [(0x02, [16]), (0x03, [24]), (0x04, [8]), (0x05, [3]), (0x06, [if x then 2 else 1]), (0x08, natLe 2 (if x then 1024 else 512)),
   (0x0A, [20]), (0x0B, [0]), (0x10, natLe 2 0x340), (0x12, natLe 2 0x800), (0x90, [12]), (0x91, [if x then 3 else 2]),
   (0x92, [if x then 8 else 11]), (0x93, [3]), (0x94, [8]), (0x95, [12]), (0x96, [11])]

/-- The value, in Q8.8, that each curve of a vendor lookup set holds at every point (R167): MODSW_NOISE, LWE_KS_NOISE, BLINDROT_NOISE and
REPACK_NOISE by curve index. -/
def lookupCurves (n : Nat) : List (Nat × Nat) :=
  if n = 9 then [(5, 0x700), (6, 0x800), (7, 0x600), (8, 0xE00)] else [(5, 0x680), (6, 0x880), (7, 0x640), (8, 0xE00)]

/-- Bytes put at an offset. -/
def putBytes (b : List Byte) (p : Nat) (v : List Byte) : List Byte := b.take p ++ v ++ b.drop (p + v.length)

/-- A vendor set as flash holds it: R167 gives values of PSET 8 and 9, and the image the rest. -/
def vendorImage (n : Nat) (b curves : List Byte) : List Byte × List Byte :=
  if n = 8 ∨ n = 9 then
    ((lookupFields n).foldl (fun b f => putBytes b f.1 f.2) b,
     (lookupCurves n).foldl (fun c f => (List.range 32).foldl (fun c k => putBytes c (128 * f.1 + 4 * k + 2) (natLe 2 f.2)) c) curves)
  else (b, curves)

/-- A vendor set becomes live, unless it fails its checks or names an invalid slot; a failure is logged in the SCH's page. -/
def Tx.vendorPset (t : Tx s) (e : Nat × List Byte × List Byte) : Tx s :=
  if 16 ≤ e.1 then t
  else
    let x := vendorImage e.1 e.2.1 e.2.2
    match t.now.psetCheck x.1 with
    | .OK => if curvesOk x.2 then t.putPsets e.1 (psetLive x.1 x.2) else t.logStatus .FWC 2 .RANGE
    | st => t.logStatus .FWC 2 st

end Sys2Proof.Machine
end

