-- ==== Sys2Proof/Machine/KeyLoad.lean ====
section
/-!
DEFINITION. Key sets: KSET_LOAD with its checks (R104) and its signed bundle (R436), and KSET_REMOVE (R415).
-/

namespace Sys2Proof.Machine

variable {s : State}

/-- The fields of a key set descriptor (R100), with the directory as read. -/
def ksdOf (b : List Byte) (gen : Nat) (dir : List DirEntry) : KeySet where
  live := true
  pset := leAt b 0x04 1 % 64
  gen := gen
  kcQuota := leAt b 0x10 4
  nkeys := leAt b 0x14 2
  dirAddr := leAt b 0x18 8
  seed := part b 0x20 0x40
  dir := dir

/-- Is a key set with this KSID bound to a session, or named by a record in flight (R104 step 1)? -/
def State.keysInUse (s : State) (id : Nat) : Bool :=
  ((s.ksetsAt id).live && (s.ksetsAt id).state = 2) || (s.sessions.any fun v => v.2.state ≠ 0 && v.2.ksid = id) ||
  s.records.any fun r => r.2.stage ≠ .none && r.2.opcode = 1 && r.2.ksid = id

/-- Steps 1 to 4 of R104 on a key set descriptor. -/
def State.ksdCheck (s : State) (b : List Byte) : Status :=
  let p := s.psetsAt (leAt b 0x04 1 % 64)
  let n := leAt b 0x14 2
  if s.keysInUse (leAt b 0 2) then .STATE
  else if !p.live || p.kinds % 4 = 0 then .RANGE
  else if p.numP < ceilDiv p.numQ p.dnum then .RANGE
  else if !zeroBytes b 2 4 || 64 ≤ leAt b 0x04 1 || !zeroBytes b 5 7 || !zeroBytes b 0x0A 0x0C || !zeroBytes b 0x16 0x18 || n = 0 ||
      4096 < n then .RANGE
  else .OK

/-- The entries of a directory; none where a reserved bit is set. -/
def dirOf (b : List Byte) (n : Nat) : Option (List DirEntry) := (List.range n).mapM fun k => dirEntryOf (leAt b (16 * k) 16)

/-- Is a copy of a key aligned and whole inside a tier? -/
def State.copyPlaced (s : State) (a n : Nat) : Bool := a % 64 = 0 && s.inTier a n

/-- Step 5 of R104 on the directory, for a request of endpoint `k`. -/
def State.dirCheck (s : State) (k : Nat) (p : Pset) (dir : List DirEntry) : Status :=
  let ids := dir.map (·.kid)
  let copies (e : DirEntry) : List (Nat × Nat) :=
    (e.base, keyBytes p e.kid) :: (if e.alt = 0 then [] else [(e.alt, keyBytes p e.kid)])
  if ids.any (fun i => !kidLegal p.n i || (kidClass i ≠ 0 && !bit p.kinds 2)) || !(ids.zip (ids.drop 1)).all (fun x => x.1 < x.2) ||
      dir.any (fun e => (copies e).any fun c => !s.copyPlaced c.1 c.2) then .RANGE
  else if k ≠ 0 && k < 64 && dir.any (fun e => (copies e).any fun c => !s.vfCovers k c.1 c.2) then .DENIED
  else .OK

/-- Steps 5 and 6 of R104 on a directory of `n` entries some of which lie on poisoned lines: an entry that can be read and fails a check
is reported first. -/
def State.dirPoisoned (s : State) (k : Nat) (p : Pset) (a n : Nat) : Status :=
  let ks := (List.range n).filter fun j => !s.poisoned (a + 16 * j) 16
  match ks.mapM fun j => dirEntryOf (leNat (s.read (a + 16 * j) 16)) with
  | none => .RANGE
  | some dir =>
    match s.dirCheck k p dir with
    | .OK => .POISON
    | st => st

/-- The bytes that KEYDIG covers (R436): the descriptor with its device fields zero, the directory, every b-half in directory
order; or the status of the first read that fails. -/
def State.keyDigest (s : State) (p : Pset) (ksd dir : List Byte) : List DirEntry → List Byte → Status × List Byte
  | [], acc => (.OK, sha384 (part ksd 0 7 ++ [0] ++ List.replicate 2 0 ++ part ksd 0x0A 0x0C ++ List.replicate 4 0 ++ part ksd 0x10 0x40
      ++ dir ++ acc))
  | e :: es, acc =>
    match s.readRange .sec e.base (keyBytes p e.kid) with
    | (b, .OK) => s.keyDigest p ksd dir es (acc ++ b)
    | (_, st) => (st, [])

/-- The checks of a bundle (R436). -/
def State.bundleCheck (s : State) (b ksd dirBytes : List Byte) (dir : List DirEntry) (length : Nat) : Status :=
  let p := s.psetsAt (leAt ksd 0x04 1 % 64)
  let qx := part b 0x60 0x90
  let qy := part b 0x90 0xC0
  if leAt b 0 4 ≠ 0x4B424E44 || length ≠ 512 || !zeroBytes b 4 8 || !zeroBytes b 0x0A 0x0B || !zeroBytes b 0x0C 0x10 ||
      !zeroBytes b 0xC0 0x100 || !zeroBytes b 0x160 0x200 || leAt b 8 2 ≠ leAt ksd 0 2 || leAt b 0x0B 1 ≠ leAt ksd 4 1 then .RANGE
  else if part b 0x10 0x30 ≠ p.digest then .STATE
  else
    match keyCheck qx qy with
    | .OK =>
      match sigCheck (b.take 0x100) (part b 0x100 0x160) qx qy with
      | .OK =>
        match s.keyDigest p ksd dirBytes dir [] with
        | (.OK, d) => if d = part b 0x30 0x60 then .OK else .BAD_SIGNATURE
        | (st, _) => st
      | st => st
    | st => st

/-- KSET_LOAD after its directory has been read: the set becomes current with STATE 0, and a good bundle makes it STATE 1. -/
def Tx.ksetCurrent (t : Tx s) (b dirBytes : List Byte) (dir : List DirEntry) : Tx s × Status × List Byte :=
  let id := leAt b 0 2
  let t := t.putKsets id (ksdOf b (t.now.ksetsAt id).gen dir)
  let r := t.now.readRange .sec (leAt b 0x40 8) 512
  let t := t.when (r.2 ≠ .OK) fun t => t.logRead .sec (leAt b 0x40 8) 512
  let st := if r.2 = .OK then t.now.bundleCheck r.1 b dirBytes dir (leAt b 0x48 4) else r.2
  if st = .OK then
    let key := (beNat (part r.1 0x60 0x90), beNat (part r.1 0x90 0xC0))
    ((t.modKsets id fun k => { k with state := 1 }).putSec { t.now.sec with clientKeys := mapInsert t.now.sec.clientKeys id key },
      .OK, natLe 4 1)
  else (t, st, natLe 4 0)

/-- KSET_LOAD (R104, R436): the reply carries the set's STATE. -/
def execKsetLoad (o : MboxFrom) (s : State) : Host.Outcome State Fault Refusal :=
  done ((begin s).mailbox o 0x0020 fun k m t =>
    let b := msgPayload m
    let p := t.now.psetsAt (leAt b 0x04 1 % 64)
    match t.now.ksdCheck b with
    | .OK =>
      match t.now.readRange .sec (leAt b 0x18 8) (16 * leAt b 0x14 2) with
      | (bs, .OK) =>
        match dirOf bs (leAt b 0x14 2) with
        | none => (t, .RANGE, [])
        | some dir =>
          match t.now.dirCheck k p dir with
          | .OK => t.ksetCurrent b bs dir
          | st => (t, st, [])
      | (_, .POISON) => (t, t.now.dirPoisoned k p (leAt b 0x18 8) (leAt b 0x14 2), [])
      | (_, st) => (t.logRead .sec (leAt b 0x18 8) (16 * leAt b 0x14 2), st, [])
    | st => (t, st, []))

/-- KSET_REMOVE (R415). -/
def execKsetRemove (o : MboxFrom) (s : State) : Host.Outcome State Fault Refusal :=
  done ((begin s).mailbox o 0x0021 fun _ m t =>
    let id := leAt m 0x10 2
    let v := t.now.ksetsAt id
    if !v.live || v.state = 2 then (t, .STATE, [])
    else ((t.putKsets id {}).putSec { t.now.sec with clientKeys := mapErase t.now.sec.clientKeys id }, .OK, []))

end Sys2Proof.Machine
end

