-- ==== Sys2Proof/Machine/Shapes.lean ====
section
/-!
DEFINITION. Shape descriptors (R272, R273): how a global tensor is cut into parts, where an element of it lies, and what a part resolves
to in a stream program.
-/

namespace Sys2Proof.Machine

/-- A shape: bytes of an element, per axis its extent, part count and whether it is CYCLIC, and the global address of each part. -/
structure Shape where
  esize : Nat
  ext : List Nat
  parts : List (Nat × Bool)
  addrs : List Nat
  deriving DecidableEq, Repr

/-- Part count of axis `a`. -/
def Shape.count (h : Shape) (a : Nat) : Nat := (h.parts.getD a (1, false)).1

/-- Indices per part of axis `a`: w_a of R273. -/
def Shape.per (h : Shape) (a : Nat) : Nat := ceilDiv (h.ext.getD a 1) (h.count a)

/-- Part and local index of global index `i` of axis `a`, under BLOCK or CYCLIC. -/
def Shape.place (h : Shape) (a i : Nat) : Nat × Nat :=
  if (h.parts.getD a (1, false)).2 then (i % h.count a, i / h.count a) else (i / h.per a, i % h.per a)

/-- The pitch of axis `a`: bytes of all that lies below the next axis. -/
def Shape.pitch (h : Shape) : Nat → Nat
  | 0 => ceilDiv (h.per 0 * h.esize) 64 * 64
  | a + 1 => h.pitch a * h.per (a + 1)

/-- The number of a part by its coordinates (R272). -/
def Shape.entry (h : Shape) (p : Nat → Nat) : Nat := p 0 + h.count 0 * (p 1 + h.count 1 * (p 2 + h.count 2 * p 3))

/-- The coordinates of part number `k`. -/
def Shape.coords (h : Shape) (k a : Nat) : Nat :=
  match a with
  | 0 => k % h.count 0
  | 1 => k / h.count 0 % h.count 1
  | 2 => k / (h.count 0 * h.count 1) % h.count 2
  | _ => k / (h.count 0 * h.count 1 * h.count 2)

/-- Parts of the shape. -/
def Shape.total (h : Shape) : Nat := h.count 0 * h.count 1 * h.count 2 * h.count 3

/-- The global address of the element at global indices `i`. -/
def Shape.address (h : Shape) (i : Nat → Nat) : Nat :=
  h.addrs.getD (h.entry fun a => (h.place a (i a)).1) 0 + (h.place 0 (i 0)).2 * h.esize +
    ((List.range 3).map fun a => (h.place (a + 1) (i (a + 1))).2 * h.pitch a).sum

/-- Indices of axis `a` that part number `k` holds: of a BLOCK axis the last part may hold fewer. -/
def Shape.held (h : Shape) (k a : Nat) : Nat :=
  let p := h.coords k a
  ((List.range (h.per a)).filter fun l =>
    if (h.parts.getD a (1, false)).2 then p + h.count a * l < h.ext.getD a 1 else p * h.per a + l < h.ext.getD a 1).length

/-- What part number `k` resolves to on device `dev`: on this module an affine entry over the part, on another a block list. -/
def Shape.resolve (h : Shape) (dev k : Nat) : StreamEntry :=
  let g := h.addrs.getD k 0
  if g / 2 ^ 44 = dev then
    { kind := 1, esize := h.esize, base := g, lim := (List.range 4).map (h.held k), off := [0, 0, 0, 0]
      astr := 0 :: (List.range 3).map fun a => h.pitch a / 64
      dims := (List.range 4).map fun a => { rank := a, m := 1, axis := a, t := h.per a, e := h.per a } }
  else { kind := 5, esize := h.esize, blocks := [(h.pitch 3 / 64, g)] }

/-- Read the shape descriptor at byte `o` of a module; none where it breaks a range of R272 or R273, or its parts run past the module. -/
def shapeAt (m : List Byte) (o : Nat) : Option Shape :=
  let b (k n : Nat) : Nat := leNat ((m.drop (o + k)).take n)
  let h : Shape := {
    esize := 2 ^ b 1 1, ext := (List.range 4).map fun a => b (8 + 4 * a) 4
    parts := (List.range 4).map fun a => (bits (b (0x18 + 2 * a) 2) 14 0, bit (b (0x18 + 2 * a) 2) 15)
    addrs := [] }
  if b 0 1 ≠ 0 || b 3 5 ≠ 0 || 3 < b 1 1 || b 2 1 = 0 || 4 < b 2 1 || h.ext.any (· = 0) || h.parts.any (·.1 = 0) ||
      (List.range 4).any (fun a => b 2 1 ≤ a && (h.ext.getD a 1 ≠ 1 || h.count a ≠ 1)) ||
      65536 < h.total || m.length < o + 32 + 16 * h.total then none
  else
    let es := (List.range h.total).map fun k => b (32 + 16 * k) 16
    if es.any fun e => bits e 127 60 ≠ 0 then none else some { h with addrs := es }

end Sys2Proof.Machine
end

