-- ==== Sys2Proof/Machine/GraphLoad.lean ====
section
/-!
DEFINITION. Graph loads (R209, R218 to R222, R433), the configuration record (R220, R504), the translation cache, and
GRAPH_UNLOAD (R415).
-/

namespace Sys2Proof.Machine

variable {s : State}

/-! ### The configuration record (R220, R499) -/

/-- Is a cluster enabled: the EN of its CLUSTER page and of its eight TILE pages, and not retired (R483, R499)? -/
def State.enabled (s : State) (cl : Nat) : Bool :=
  s.flag (HDR.BLK_CTRL.EN .CLUSTER) cl && !bit (s.fld ERRSYS.STATE.RETIRED) cl &&
  (List.range 8).all fun p => s.flag (HDR.BLK_CTRL.EN .TILE) (8 * cl + p)

/-- The mask of enabled clusters of the configuration record. -/
def State.enabledMask (s : State) : Nat := ((List.range 8).filter s.enabled).foldl (fun m cl => m + 2 ^ cl) 0

/-- The mask of enabled tiles of the configuration record: those of a retired or disabled cluster are not enabled. -/
def State.tileMask (s : State) : Nat :=
  ((List.range 64).filter fun i => s.flag (HDR.BLK_CTRL.EN .TILE) i && s.flag (HDR.BLK_CTRL.EN .CLUSTER) (i / 8) &&
    !bit (s.fld ERRSYS.STATE.RETIRED) (i / 8)).foldl (fun m i => m + 2 ^ i) 0

/-- Words of the routing table that are not zero. -/
def State.routes (s : State) : List (Nat × Nat) :=
  (s.regs.filter fun kv => (Page.ROUTE).base 0 ≤ kv.1 && kv.1 < (Page.ROUTE).base 0 + 0x40000).map fun kv => (kv.1, kv.2.toNat)

/-- The configuration hash: SHA-256 over the configuration record in effect. CHIP.CFGHASH reads it (R504). -/
def State.configHash (s : State) : List Byte :=
  let ctl := (s.regEff (EPOCH.CTL.LEN.addr 0 0)).toNat
  sha256 (Config.configRecord s.fw.boot.modules s.devId s.routes (bits ctl 16 0, bit ctl 31) (s.tileMask, s.enabledMask)
    (s.fld FWC.PATCHVER.SVN 2))

/-! ### Checks (R209, R210, R219) -/

/-- Is a descriptor list entry legal for batch width `w`: reserved bits, alignment, DIR, slots of LANEREL entries? -/
def descLegal (w d : Nat) : Bool :=
  bits d 127 124 = 0 && bits d 47 11 = 0 && bits d 68 64 = 0 && bits d 9 8 < 2 && !(bit d 10 && 256 < bits d 7 0 + w)

/-- Slots that a LOAD fills, at its graph epoch. -/
def loadSlots (w d : Nat) : List (Nat × Nat) :=
  if bits d 9 8 ≠ 0 then []
  else (List.range (if bit d 10 then w else 1)).map fun n => (bits d 63 48, bits d 7 0 + n)

/-- Are the descriptor lists legal, with no two LOADs of one slot at one boundary on a cluster? -/
def Graph.descsOk (g : Graph) : Bool :=
  g.descs.all (fun d => descLegal g.width d.2) &&
  (List.range 8).all fun cl =>
    let xs := (g.descs.filter (·.1 = cl)).flatMap fun d => loadSlots g.width d.2
    xs.eraseDups.length = xs.length

/-- Is a noise descriptor legal (R318)? -/
def noiseLegal (d : Nat) : Bool :=
  let p := bits d 69 64
  (match bits d 71 70 with
    | 0 => p = 0
    | 1 => 1 ≤ p && p ≤ 32
    | 2 => p ≤ 60
    | _ => false) && bits d 63 39 % 64 = 0 && bits d 34 0 = 0

/-- The instructions of a segment, in order: word and operand word (0 where EXT is 0). -/
def instrPairs : Nat → List Nat → List (Nat × Nat)
  | 0, _ => []
  | f + 1, w :: ws => if bit w 111 then (w, ws.headD 0) :: instrPairs f (ws.drop 1) else (w, 0) :: instrPairs f ws
  | _, [] => []

/-- The execute stream of a tile from graph epoch `e` on. -/
def Graph.executes (g : Graph) (tile e : Nat) : List (Nat × Nat) :=
  (List.range (g.epochs - e)).flatMap fun k =>
    (g.segments.filter fun v => v.tile = tile && v.side = .execute && v.epoch = e + k).flatMap fun v => instrPairs v.words.length v.words

/-- Is the instruction a raw-mode CADD in stream form that adds the landing area at `land` into another operand (R179, R207, R211)? -/
def addsLanding (land : Nat) (p : Nat × Nat) : Bool :=
  bits p.1 127 112 = 0x4450 && bit p.1 111 && !bit p.1 86 &&
  ((bits p.2 75 50 = land && bits p.2 127 102 = bits p.2 101 76) || (bits p.2 101 76 = land && bits p.2 127 102 = bits p.2 75 50))

/-- Does a descriptor-mode instruction read a slot (R208): its first source, and the second of CADD, CSUB and TENS? -/
def readsSlot (slot : Nat) (p : Nat × Nat) : Bool :=
  bits p.1 115 112 ≠ 0 && 2 ≤ bits p.1 127 124 && (bits p.1 102 95 = slot ||
    ([0x445, 0x446, 0x216].contains (bits p.1 127 116) && bits p.1 94 87 = slot))

/-- Is each landing area added once, before any read of the slot (R320)? At position 0, which has a limb of every ciphertext, exactly once;
on the other tiles, which may have none, at most once. The scratchpad place of polynomial 0 is not in the binary: log entry 41. -/
def Graph.noiseAdded (g : Graph) (cl d : Nat) : Bool :=
  (List.range 8).all fun p =>
    let ins := g.executes (8 * cl + p) (bits d 95 80)
    let adds := ins.filter (addsLanding (bits d 63 39))
    adds.length ≤ 1 && (p ≠ 0 || adds.length = 1) &&
    (adds = [] || !((ins.takeWhile fun v => !addsLanding (bits d 63 39) v).any (readsSlot (bits d 79 72))))

/-- Are the noise steps legal (R318, R320)? -/
def Graph.noiseOk (g : Graph) : Bool :=
  g.noise.all (fun d => noiseLegal d.2 && g.noiseAdded d.1 d.2) &&
  (g.noise.map fun d => bits d.2 127 96).eraseDups.length = g.noise.length

/-- Step 3 of R219: reserved fields, LENGTH, NOPS, operations, descriptor lists, noise steps, shapes, live parameter sets. -/
def State.moduleOk (s : State) (m : List Byte) (length : Nat) (x : Translation) : Bool :=
  zeroBytes m 0x10 0x20 && leAt m 6 2 < 2 && leAt m 8 4 = length && 64 ≤ length && length ≤ 2 ^ 30 && length % 64 = 0 &&
  1 ≤ leAt m 0x0C 4 && leAt m 0x0C 4 ≤ 2 ^ 24 && x.legal && x.native.descsOk && x.native.noiseOk &&
  x.shapes.all (fun o => (shapeAt m o).isSome) && x.native.psets.all fun n => (s.psetsAt n).live

/-- Step 4 of R219 (R433): clusters enabled; a SEALED graph on clusters of one domain that lists its program hash, any other on no
sealed cluster. -/
def State.placementOk (s : State) (isSealed : Bool) (prog : List Byte) (x : Translation) : Bool :=
  let cls := clustersOf x.native.clusters
  let doms := cls.map s.domainOfCluster
  x.placed && cls.all s.enabled &&
  (if isSealed then
    match doms.head? with
    | some (some d) => doms.all (· = some d) && (s.domainsAt d).hashes.contains prog
    | _ => false
  else doms.all (· = none))

/-- Step 5 of R219: segments of at most 4,096 words, and scratchpad within the usable size of every tile. -/
def State.sizesOk (s : State) (x : Translation) : Bool :=
  x.native.segments.all (fun v => v.words.length ≤ 4096) &&
  (clustersOf x.native.clusters).all fun cl => (List.range 8).all fun p => x.native.spad ≤ s.spadEnd (8 * cl + p)

/-- Is the cache entry's graph loaded (R222)? -/
def State.entryLoaded (s : State) (g : Graph) : Bool := s.graphs.any fun k => k.2.live && k.2.prog = g.prog && k.2.cfg = g.cfg

/-- Bytes of a native binary: its words and its 16-byte descriptors (R199, R209, R253, R318). -/
def Graph.bytes (g : Graph) : Nat :=
  16 * ((g.segments.map (·.words.length)).sum + g.descs.length + g.reds.length + g.noise.length)

/-- Bytes of the translation cache's region (R222). -/
def cacheRegion : Nat := 2 ^ 31

/-- The cache with room for one more entry of `n` bytes: least recently used entries of graphs that are not loaded leave until it has
fewer than 1,024 entries and the region has the bytes; none where no such entry is left. Fuel bounds the evictions. -/
def State.cacheRoom (s : State) (n : Nat) : Nat → List Graph → Option (List Graph)
  | 0, _ => none
  | f + 1, c =>
    if c.length < 1024 && (c.map (·.bytes)).sum + n ≤ cacheRegion then some c
    else
      match c.find? fun g => !s.entryLoaded g with
      | some g => s.cacheRoom n f (c.erase g)
      | none => none

/-- The checks of R219 after the module has been read, and the cache with the entry as its most recently used one, whether it was a
hit, and the graph. -/
def State.graphCheck (s : State) (id length : Nat) (m : List Byte) (x : Translation) : Except Status (List Graph × Bool × Graph) :=
  let prog := sha256 m
  let cfg := s.configHash
  let isSealed := bit (leAt m 6 2) 0
  if leAt m 0 4 ≠ 0x32495642 || leAt m 5 1 ≠ 2 || 3 < leAt m 4 1 then .error .VERSION
  else if (s.graphsAt id).live then .error .STATE
  else if !s.moduleOk m length x then .error .RANGE
  else if !s.placementOk isSealed prog x then .error .RANGE
  else if !s.sizesOk x then .error .RANGE
  else
    match s.fw.cache.find? fun g => g.prog = prog && g.cfg = cfg with
    | some g => .ok (s.fw.cache.erase g ++ [g], true, g)
    | none =>
      match s.cacheRoom x.native.bytes (s.fw.cache.length + 1) s.fw.cache with
      | none => .error .BUSY
      | some c =>
        let parts := (x.shapes.filterMap (shapeAt m)).flatMap fun h => (List.range h.total).map (h.resolve s.devId)
        let g := { x.native with live := true, prog := prog, cfg := cfg, isSealed := isSealed, shapes := parts }
        .ok (c ++ [g], false, g)

/-- The translation of a module: the one made before for equal hashes, whatever is told now (R220). -/
def State.translation (s : State) (m : List Byte) (x : Translation) : Translation :=
  ((s.fw.translated.find? fun k => k.1 = sha256 m && k.2.1 = s.configHash).map (·.2.2)).getD x

/-- Remember a translation. -/
def Firmware.remember (f : Firmware) (prog cfg : List Byte) (x : Translation) : Firmware :=
  if f.translated.any fun k => k.1 = prog && k.2.1 = cfg then f else { f with translated := f.translated ++ [(prog, cfg, x)] }

/-- GRAPH_LOAD (R219): the graph becomes loaded in one step, from the cache where it holds it. -/
def execGraphLoad (o : MboxFrom) (x : Translation) (s : State) : Host.Outcome State Fault Refusal :=
  done ((begin s).mailbox o 0x0030 fun _ m t =>
    let id := leAt m 0x10 4
    let length := leAt m 0x14 4
    match t.now.readRange .fw (leAt m 0x18 8) length with
    | (b, .OK) =>
      let x := t.now.translation b x
      match t.now.graphCheck id length b x with
      | .ok (c, hit, g) =>
        ((t.putFw ({ t.now.fw with cache := c }.remember g.prog g.cfg x)).putGraphs id g, .OK, natLe 8 (bnat hit) ++ g.prog ++ g.cfg)
      | .error st => (t, st, [])
    | (_, st) => (t.logRead .fw (leAt m 0x18 8) length, st, []))

/-- GRAPH_UNLOAD (R415). -/
def execGraphUnload (o : MboxFrom) (s : State) : Host.Outcome State Fault Refusal :=
  done ((begin s).mailbox o 0x0031 fun _ m t =>
    let id := leAt m 0x10 4
    let used := t.now.records.any fun r => r.2.stage ≠ .none && r.2.opcode = 1 && r.2.graph = id
    if !(t.now.graphsAt id).live || used then (t, .STATE, [])
    else (t.putGraphs id {}, .OK, []))

end Sys2Proof.Machine
end

