-- ==== Sys2Proof/Machine/Patches.lean ====
section
/-!
DEFINITION. Firmware patches (R404 to R407) and the hard repair of memory rows (R301).
-/

namespace Sys2Proof.Machine

variable {s : State}

/-! ### Verification (R404, R405) -/

/-- The FWC page that stands for a core type: SEC 0, PMC 1, SCH 2, CCC 3. -/
def typePages (k : Nat) : List Nat := if k = 3 then (List.range 8).map (3 + ·) else [k]

/-- The SVN of an image. -/
def imageSvn (b : List Byte) : Nat := leAt b 8 4

/-- Patch verification for core type `k` with fuse floor `floor` (R405). -/
def State.patchCheck (s : State) (k floor : Nat) (b : List Byte) : Status :=
  let n := leAt b 0x0C 4
  if leAt b 0 4 ≠ 0x50544348 || leAt b 4 1 ≠ k || leAt b 5 1 ≠ s.fld FWC.STAT.ROMREV k || leAt b 0x10 1 ≠ 1 then .VERSION
  else if !zeroBytes b 6 8 || !zeroBytes b 0x12 0x20 || !zeroBytes b 0x50 0xA0 || n < 64 || 131072 < n || n % 64 ≠ 0 ||
      b.length ≠ 256 + n then .RANGE
  else if imageSvn b < floor then .VERSION
  else
    match sigCheck (b.take 0xA0) (part b 0xA0 0x100) (natBe 48 Config.patchKey.1) (natBe 48 Config.patchKey.2) with
    | .OK => if sha384 (b.drop 0x100) = part b 0x20 0x50 then .OK else .BAD_SIGNATURE
    | st => st

/-- The patches of a core type. -/
def State.patches (s : State) (k : Nat) : Patches := s.fw.types.getD k {}

/-- Change the patches of a core type. -/
def Tx.modPatches (t : Tx s) (k : Nat) (f : Patches → Patches) : Tx s :=
  t.modFw fun w => { w with types := w.types.set k (f (w.types.getD k {})) }

/-- An image in a bank (0 A, 1 B). -/
def Patches.bank (p : Patches) (i : Nat) : List Byte := if i = 0 then p.a else p.b

/-- Replace the image of a bank. -/
def Patches.put (p : Patches) (i : Nat) (b : List Byte) : Patches := if i = 0 then { p with a := b } else { p with b := b }

/-- The bank that did not boot; A where the ROM runs alone (log entry 49). -/
def Patches.spare (p : Patches) : Nat := if p.booted = 0 then 1 else 0

/-! ### Staging (R407) -/

/-- An image is written into the bank that did not boot and verified: erased where that fails, else staged, and with COMMIT the
fuse floor rises where the booted bank runs the same SVN. The bank written, with the status. -/
def Tx.patchStage (t : Tx s) (b : List Byte) (commit : Bool) : Tx s × Status × Nat :=
  let k := leAt b 4 1
  if 3 < k then (t, .VERSION, 0)
  else
    let p := t.now.patches k
    let i := p.spare
    match t.now.patchCheck k p.floor b with
    | .OK =>
      let svn := imageSvn b
      let floor := if commit && p.booted ≠ 0xFF && imageSvn p.running = svn then max p.floor svn else p.floor
      (t.modPatches k fun p => { p.put i b with staged := i, floor := floor }, .OK, i)
    | st => (t.modPatches k fun p => { p.put i [] with staged := 0xFF }, st, i)

/-- PATCH_STAGE (R407). -/
def execPatchStage (o : MboxFrom) (s : State) : Host.Outcome State Fault Refusal :=
  done ((begin s).mailbox o 0x0050 fun _ m t =>
    match t.now.readRange .sec (leAt m 0x10 8) (leAt m 0x18 4) with
    | (b, .OK) =>
      let r := t.patchStage b (bit (leAt m 6 1) 1)
      (r.1, r.2.1, if r.2.1 = .OK then natLe 4 r.2.2 else [])
    | (_, st) => (t.logRead .sec (leAt m 0x10 8) (leAt m 0x18 4), st, []))

/-- The twelve bytes of a core type in a PATCH_STATUS reply (R414). -/
def Patches.report (p : Patches) : List Byte :=
  natLe 1 p.booted ++ natLe 1 p.staged ++ natLe 2 0 ++ natLe 4 (if p.booted = 0xFF then 0 else imageSvn p.running) ++ natLe 4 p.floor

/-- PATCH_STATUS (R414). -/
def execPatchStatus (o : MboxFrom) (s : State) : Host.Outcome State Fault Refusal :=
  done ((begin s).mailbox o 0x0051 fun _ _ t => (t, .OK, (List.range 4).flatMap fun k => (t.now.patches k).report))

/-! ### Hard repairs (R301, R415) -/

/-- The controller of a unit: 0 to 11 stacks, 16 to 31 far groups. -/
def unitController (u : Nat) : Option Nat := if u < 12 then some u else if 16 ≤ u && u < 32 then some (u - 4) else none

/-- MEM_REPAIR (R301): one more hard repair of a unit in MAINT, recorded in the life log; how many the unit has left is its
device's to say. -/
def execMemRepair (o : MboxFrom) (s : State) : Host.Outcome State Fault Refusal :=
  done ((begin s).mailbox o 0x0040 fun _ m t =>
    let u := leAt m 0x10 1
    match unitController u with
    | none => (t, .RANGE, [])
    | some c =>
      if t.fld MEMC.INFO.CHAN c ≤ leAt m 0x11 1 then (t, .RANGE, [])
      else if t.fld MEMC.STAT.STATE c ≠ 4 then (t, .STATE, [])
      else
        let t := (t.modFw fun w => { w with repairs := addCount w.repairs u 1 }).bump MEMC.RPR.HARD 1 c
        let left := Config.draw t.now.fresh % 256
        ((t.freshen.lifeCount 126).lifeNote, .OK, natLe 4 left))

end Sys2Proof.Machine
end

