-- ==== Sys2Proof/Machine/Gloaming.lean ====
section
/-!
DEFINITION. The Gloaming monitor (R464 to R470): sensors, filter channels, curves, the state machine and its actions, the
vendor tables, and the trip.
-/

namespace Sys2Proof.Machine

variable {s : State}

/-! ### Tables (R466 to R468, R470) -/

/-- A filter channel entry from its fields. -/
def filtEntry (agg lo hi s0 s1 s2 : Nat) : Nat :=
  1 <<< 63 + agg <<< 61 + lo <<< 54 + hi <<< 47 + s0 <<< 41 + s1 <<< 35 + s2 <<< 29

/-- A transition entry from its fields; the threshold is not negative. -/
def transEntry (src dst chan op thresh hold act : Nat) : Nat :=
  1 <<< 63 + src <<< 59 + dst <<< 55 + chan <<< 49 + op <<< 46 + thresh <<< 20 + hold <<< 12 + act

/-- A state output entry from its fields. -/
def soutEntry (therm alert brake cappct : Nat) : Nat := 1 <<< 31 + therm <<< 30 + alert <<< 29 + brake <<< 28 + cappct <<< 20

/-- A table set: filter channels, transitions, state outputs and curve points by their index. -/
structure GlmTables where
  filt : List (Nat × Nat) := []
  trans : List (Nat × Nat) := []
  sout : List (Nat × Nat) := []
  curve : List (Nat × Nat) := []
  deriving DecidableEq, Repr

/-- The vendor tables (R470); transitions in the order of the table's rows (log entry 33). -/
def vendorTables : GlmTables where
  filt := [(0, filtEntry 1 0 63 0x11 0 0), (1, filtEntry 0 65 0 0 0 0), (2, filtEntry 0 67 0 0 0 0),
    (3, filtEntry 1 72 83 0x12 0 0)]
  trans := [(0, transEntry 0 1 0 1 6400 2 0), (1, transEntry 0 4 1 0 10000 1 10), (2, transEntry 0 4 2 0 10000 1 10),
    (3, transEntry 0 0 0 4 0 0 1), (4, transEntry 0 0 0 4 1 0 1), (5, transEntry 0 0 0 4 4 0 1),
    (6, transEntry 1 2 0 1 6720 2 2), (7, transEntry 1 0 0 2 6208 16 0), (8, transEntry 1 4 1 0 10000 1 10),
    (9, transEntry 1 4 2 0 10000 1 10), (10, transEntry 2 3 0 1 7040 1 7), (11, transEntry 2 1 0 2 6528 16 0),
    (12, transEntry 2 4 1 0 10000 1 10), (13, transEntry 2 4 2 0 10000 1 10), (14, transEntry 3 1 0 2 5760 255 3)]
  sout := [(0, soutEntry 0 0 0 0), (1, soutEntry 0 1 0 85), (2, soutEntry 1 1 1 0), (3, soutEntry 1 1 1 0),
    (4, soutEntry 1 0 0 0)]

/-- An entry of a table, zero where it is invalid. -/
def tableEntry (m : List (Nat × Nat)) (k : Nat) : Nat := ((m.find? (·.1 = k)).map (·.2)).getD 0

/-- Load a table set into the GLM windows; the state machine starts in state 0 (R468). -/
def Tx.loadTables (t : Tx s) (g : GlmTables) : Tx s :=
  let b := (Page.GLM).base 0
  let t := t.forEach (List.range 64) fun t k =>
    (t.putSpan (b + 0x800 + 8 * k) 2 (tableEntry g.filt k)).putSpan (b + 0xA00 + 8 * k) 2 (tableEntry g.trans k)
  let t := t.forEach (List.range 16) fun t k => t.putSpan (b + 0xC00 + 4 * k) 1 (tableEntry g.sout k)
  let t := t.forEach (List.range 128) fun t k => t.putSpan (b + 0xD00 + 4 * k) 1 (tableEntry g.curve k)
  (t.setFld GLM.STAT.STATE 0).putGlm { t.now.glm with first := true, stages := [], holds := [] }

/-! ### Channels and curves -/

/-- 32-bit signed arithmetic. -/
def wrap32 (x : Int) : Int := signed (x % 2 ^ 32).toNat 32

/-- One stage: its mode and K, its last output and input, and its input now; the output. On the first scan y = x. -/
def stageOut (mode k : Nat) (first : Bool) (y xp x : Int) : Int :=
  if first then x
  else if mode = 1 then wrap32 (y + (wrap32 (x - y)) / 2 ^ k)
  else if mode = 2 then wrap32 (x - xp)
  else x

/-- A chain of stages: their new (output, input) pairs and the chain's value. Mode 0 ends the chain. -/
def runStages (first : Bool) : List (Nat × (Int × Int)) → Int → List (Int × Int) × Int
  | [], x => ([], x)
  | (code, (y, xp)) :: rest, x =>
    if code / 16 = 0 then ((y, xp) :: rest.map (·.2), x)
    else
      let v := stageOut (code / 16) (code % 16) first y xp x
      let r := runStages first rest v
      ((v, x) :: r.1, r.2)

/-- Clamp to signed 16 bits. -/
def clamp16 (x : Int) : Int := max (-32768) (min 32767 x)

/-- The input of a channel. -/
def State.chanInput (s : State) (c : Nat) : Int :=
  let lo := s.fld GLM.FILT.LO 0 c
  let hi := s.fld GLM.FILT.HI 0 c
  let xs := (List.range (hi + 1 - lo)).map fun k => s.sensor (lo + k)
  match s.fld GLM.FILT.AGG 0 c with
  | 0 => s.sensor lo
  | 1 => xs.foldl max (-32768)
  | _ => wrap32 (xs.foldl (· + ·) 0)

/-- A channel is updated from the sensors of this scan; an invalid one reads 0. -/
def Tx.channel (t : Tx s) (c : Nat) : Tx s :=
  if t.fld GLM.FILT.VALID 0 c = 0 then t.setFld GLM.CHAN.VALUE 0 0 c
  else
    let st := mapGet [] t.now.glm.stages c
    let codes := [t.fld GLM.FILT.STAGE0 0 c, t.fld GLM.FILT.STAGE1 0 c, t.fld GLM.FILT.STAGE2 0 c]
    let r := runStages t.now.glm.first (codes.zipIdx.map fun k => (k.1, st.getD k.2 (0, 0))) (t.now.chanInput c)
    (t.putGlm { t.now.glm with stages := mapInsert t.now.glm.stages c r.1 }).setFld GLM.CHAN.VALUE
      ((clamp16 r.2) % 2 ^ 16).toNat 0 c

/-- A channel's value. -/
def State.chan (s : State) (c : Nat) : Int := signed (s.fld GLM.CHAN.VALUE 0 c) 16

/-- Linear interpolation on the points of a curve, x strictly ascending; the result rounds toward minus infinity (R467). -/
def glmCurveAt : List (Int × Int) → Int → Int
  | [], _ => 0
  | [p], _ => p.2
  | (x0, y0) :: (x1, y1) :: r, x =>
    if x ≤ x0 then y0
    else if x < x1 then y0 + (y1 - y0) * (x - x0) / (x1 - x0)
    else glmCurveAt ((x1, y1) :: r) x

/-- The points of a curve. -/
def State.curvePoints (s : State) (k : Nat) : List (Int × Int) :=
  (List.range 16).map fun p =>
    (signed (s.fld GLM.CURVE.X 0 (16 * k + p)) 16, signed (s.fld GLM.CURVE.Y 0 (16 * k + p)) 16)

/-! ### The state machine -/

/-- The condition of a transition in this scan. -/
def State.transCond (s : State) (k : Nat) (events : List Nat) : Bool :=
  let x := s.chan (s.fld GLM.TRANS.CHAN 0 k)
  let th := if s.flag GLM.TRANS.CURV 0 k then
      glmCurveAt (s.curvePoints (s.fld GLM.TRANS.CURVE 0 k)) (s.chan (s.fld GLM.TRANS.XCHAN 0 k))
    else signed (s.fld GLM.TRANS.THRESH 0 k) 16
  match s.fld GLM.TRANS.OP 0 k with
  | 0 => th < x
  | 1 => th ≤ x
  | 2 => x < th
  | 3 => x ≤ th
  | 4 => events.contains (s.fld GLM.TRANS.THRESH 0 k % 16)
  | _ => false

/-- The hold counts after this scan's evaluation, and the first transition that fires. -/
def State.evaluate (s : State) (events : List Nat) : List (Nat × Nat) × Option Nat :=
  let live := (List.range 64).filter fun k => s.flag GLM.TRANS.VALID 0 k && s.fld GLM.TRANS.FROM 0 k = s.fld GLM.STAT.STATE
  let holds := live.map fun k => (k, if s.transCond k events then mapGet 0 s.glm.holds k + 1 else 0)
  (holds.filter (·.2 ≠ 0), live.find? fun k =>
    s.transCond k events && (s.fld GLM.TRANS.OP 0 k = 4 || max 1 (s.fld GLM.TRANS.HOLD 0 k) ≤ mapGet 0 holds k))

/-! ### Actions (R464, R469) -/

/-- The Gloaming log record (R474): transition, state entered, channel value, and whether it is a CUT or TRIP. -/
def Tx.glmLog (t : Tx s) (k state chan : Nat) (cut : Bool) : Tx s :=
  t.logError .GLM 0 { status := if cut then .ABORTED else .OK, cls := if cut then 3 else 1,
                      detail := k + state <<< 8 + (chan % 2 ^ 16) <<< 16 + (bnat cut) <<< 32 }

/-- Power is removed from both dies and both tiers' controllers until POR (R464): every domain is destroyed (R426), and what
was gathered for the life log since its last write is lost (R485). -/
def Tx.trip (t : Tx s) (cut : Bool) (k state chan : Nat) : Tx s :=
  if t.now.tripped then t
  else
    let t := t.putLife { t.now.life with counts := [], hists := [], events := [], writing := none, waiting := [] }
    let t := ((t.setFld GLM.STAT.TRIP 1).glmLog k state chan true).lifeCount (if cut then 6 else 5)
    let t := t.putGlm { t.now.glm with cut := cut }
    let t := t.forEach (List.range 8) fun t cl => t.cutTiles cl 3
    let t := t.forEach (t.now.records.map (·.1)) fun t r => t.putRecords r {}
    let t := t.forEach (List.range 24) fun t l => t.setFld LINK.STAT.STATE 1 l
    (t.putPower { t.now.power with trans := none, waking := 0, leaving := false }).eraseDomains

/-- THERMAL_TRIP (R464): a comparator at 115 °C trips. -/
def execThermalTrip (s : State) : Host.Outcome State Fault Refusal :=
  done ((begin s).pins fun t => t.trip false 0 (s.fld GLM.STAT.STATE) 0)

/-- EMERG (R469): held clusters are wiped, records there complete ABORTED, and power is removed from every tile island. An
entry to SLUMBER in progress stops (R471). -/
def Tx.emerg (t : Tx s) : Tx s :=
  let t := (t.lifeCount 7).lifeNote
  let t := t.when (t.now.power.trans.any (·.1 = 3)) fun t => (t.setFld PWR.REQSTAT.STATUS Status.ABORTED.code).endTrans
  let t := t.forEach (List.range 8) fun t cl => if t.now.clusterPower cl = 3 then t else (t.wipeCluster cl).cutTiles cl 3
  t.putPower { t.now.power with emerg := true }

/-- A state is entered whose transition carries no EMERG and that has BRAKE = 0: the tiles' clusters return to DOZE. -/
def Tx.endEmerg (t : Tx s) : Tx s :=
  if t.now.power.emerg && !t.flag GLM.SOUT.BRAKE 0 (t.fld GLM.STAT.STATE) then
    (t.forEach (List.range 8) fun t cl => t.enterDoze cl).putPower { t.now.power with emerg := false }
  else t

/-- WAKE (R469): in SLUMBER, exit starts. -/
def Tx.wake (t : Tx s) : Tx s :=
  if t.now.slumber then t.putPower { t.now.power with leaving := true } else t

/-- A transition fires (R468): its actions, the state it enters, and no hold count remains. Channel 3 is logged on entry to each
state (R470), and a LOG action after it. -/
def Tx.fire (t : Tx s) (k : Nat) : Tx s :=
  let act := t.fld GLM.TRANS.ACT 0 k
  let dst := t.fld GLM.TRANS.TO 0 k
  let x := t.fld GLM.CHAN.VALUE 0 (t.fld GLM.TRANS.CHAN 0 k)
  let t := (t.setFld GLM.STAT.STATE dst).putGlm { t.now.glm with holds := [] }
  let t := t.when (t.flag GLM.FILT.VALID 0 3) fun t => t.glmLog k dst (t.fld GLM.CHAN.VALUE 0 3) false
  let t := t.when (bit act 1 && !bit act 3) fun t => t.glmLog k dst x false
  let t := t.when (bit act 0) fun t => t.wake
  let t := if bit act 2 then t.emerg else t.endEmerg
  t.when (bit act 3) fun t => t.trip true k dst x

/-- Sensors of islands that keep power in SLUMBER: module power, VAON, the Gloaming island, the brake pin, the substrate. -/
def aonSensor (n : Nat) : Bool := n = 84 || n = 85 || n = 86 || n = 92 || n = 95

/-- Take a scan's readings; while the dies have no power, unpowered islands' sensors keep their last value (R465). -/
def Tx.readSensors (t : Tx s) (xs : List (BitVec 16)) : Tx s :=
  t.forEach (List.range 96) fun t n =>
    if t.now.diesOff && !aonSensor n then t
    else t.setFld GLM.SENSOR.VALUE (if n = 92 then bnat t.now.power.brakePin else (xs.getD n 0).toNat) 0 n

/-- GLOAMING_SCAN (R465 to R469): sensors, channels, the state machine; at most one transition fires. -/
def Tx.scan (t : Tx s) (xs : List (BitVec 16)) : Tx s :=
  let t := (t.readSensors xs).forEach (List.range 64) fun t c => t.channel c
  let ev := t.now.glm.events
  let r := t.now.evaluate ev
  let t := t.putGlm { t.now.glm with first := false, events := [], holds := r.1 }
  let t := t.setFld GLM.STAT.SCANS ((t.fld GLM.STAT.SCANS + 1) % 2 ^ 16)
  match r.2 with
  | some k => t.pins fun t => t.brakeEdge fun t => t.fire k
  | none => t

@[inherit_doc Tx.scan] def execGloamingScan (xs : List (BitVec 16)) (s : State) : Host.Outcome State Fault Refusal :=
  done ((begin s).scan xs)

/-! ### Events (R468) -/

/-- GLM_EVENT_WRITE (R468): a write of GLM.EVENT.EV; the page is the PMC's (R423). -/
def Tx.eventWrite (t : Tx s) (ev : Bool) : Tx s := t.when ev fun t => t.glmEvent 4

@[inherit_doc Tx.eventWrite] def execGlmEventWrite (o : RegFrom) (ev : Bool) (s : State) : Host.Outcome State Fault Refusal :=
  done ((begin s).guarded o .GLM 0 fun t => t.eventWrite ev)

/-- HOST_LINK_WAKE (R457, R468): event 0. -/
def execHostLinkWake (s : State) : Host.Outcome State Fault Refusal := done ((begin s).glmEvent 0)

/-- MGMT_ADDRESS_MATCH (R468): event 1. -/
def execMgmtAddressMatch (s : State) : Host.Outcome State Fault Refusal := done ((begin s).glmEvent 1)

end Sys2Proof.Machine
end

