-- ==== Sys2Proof/Machine/Order.lean ====
section
/-!
DEFINITION. Late errors of posted peer writes, their log, and the fence of a firmware core (R338 to R341, R344).
-/

namespace Sys2Proof.Machine

variable {s : State}

/-- A late-error log entry (R339). -/
def lateEntry (seq gaddr q ridx st tile : Nat) (fw : Bool) (epoch : Nat) : Nat :=
  (seq % 2 ^ 32) <<< 224 + (gaddr % 2 ^ 60 / 64 * 64) <<< 164 + ((if fw then 0 else q) % 2 ^ 18) <<< 146
    + (ridx % 2 ^ 16) <<< 130 + (st % 256) <<< 122 + ((if fw then 0 else tile) % 64) <<< 116 + bnat fw <<< 115 + epoch % 2 ^ 64

/-- The sequence number of a late error that found no place in the log (R341). -/
def noSeq : Nat := 0xFFFFFFFF

/-- Is there a log, and room in it (R341)? -/
def State.lateRoom (s : State) : Bool :=
  s.fld ORDER.LQBASE.BASE ≠ 0 && (s.fld ORDER.LQPROD.PROD + 2 ^ 32 - s.fld ORDER.LQCONS.CONS) % 2 ^ 32 ≠ 4096

/-- The late-pending mark of a queue that is not DISABLED, or of a firmware core. -/
def Tx.markLate (t : Tx s) (core : Option Nat) (q st seq gaddr : Nat) : Tx s :=
  match core with
  | some k => t.modCores k fun c => { c with late := c.late ++ [(st, seq)] }
  | none => t.modQueues q fun x => if x.state = 0 then x else { x with late := x.late ++ [(st, seq, gaddr)] }

/-- A late error (R339, R341): it takes the next sequence number and its place in the log, or is counted as dropped; the
originator's mark is set either way. -/
def Tx.lateError (t : Tx s) (core : Option Nat) (q ridx gaddr tile : Nat) (st : Status) : Tx s :=
  if t.now.lateRoom then
    let seq := t.fld ORDER.LQPROD.PROD
    let a := t.fld ORDER.LQBASE.BASE * 2 ^ 17 + seq % 4096 * 32
    let t := t.writeRange .fw a (natLe 32 (lateEntry seq gaddr q ridx st.code tile core.isSome t.now.epochCount))
    ((t.setFld ORDER.LQPROD.PROD ((seq + 1) % 2 ^ 32)).markLate core q st.code seq gaddr).raiseIrq .ORDER 0 0
  else ((t.bump ORDER.LQDROP.DROP).markLate core q st.code noSeq gaddr).raiseIrq .ORDER 0 1

/-- A write of ORDER.LQBASE (R344): accepted only while PROD equals CONS. -/
def Tx.lqBase (t : Tx s) (v : Nat) : Tx s :=
  if t.fld ORDER.LQPROD.PROD ≠ t.fld ORDER.LQCONS.CONS then t.logStatus .ORDER 0 .STATE else t.setFld ORDER.LQBASE.BASE v

/-- LQBASE_WRITE (R344): bits [43:17] of the log's address. -/
def execLqbaseWrite (o : RegFrom) (v : BitVec 27) (s : State) : Host.Outcome State Fault Refusal :=
  done ((begin s).guarded o .ORDER 0 fun t => t.lqBase v.toNat)

/-- The requester as which a firmware core accesses memory: SEC, the PMC and the SCH alike, a CCC for its cluster. -/
def coreWho (k : Nat) : Who := if k = 0 then .sec else if k < 3 then .fw else .ccc (k - 3)

/-- Is an access of a core not yet performed: a line request that waits at a controller, or a posted peer write without a final
outcome? -/
def State.coreWrites (s : State) (k : Nat) : Bool :=
  (s.memctl.any fun q => q.2.waiting.any fun r => r.who = coreWho k) ||
  s.peers.any fun p => p.2.origin = .core k && hasOutcome p.2.packet.type

/-- FENCE (R333, R340): performed once every earlier access of the core has been performed, each posted peer write with its final
outcome; it reports the oldest pending late error with its SEQ and clears the mark. -/
def execFence (k : Fin 11) (s : State) : Host.Outcome State Fault Refusal :=
  let t := begin s
  if s.coreWrites k then done t
  else
    let c := t.coresAt k
    let r := (c.late.head?).getD (0, 0)
    done ((t.putCores k { c with late := [] }).emit (.reply (.core k) r.1 (natLe 4 r.2)))

end Sys2Proof.Machine
end

