-- ==== Sys2Proof/Machine/Links.lean ====
section
/-!
DEFINITION. Peer links (ch. 15): their states (R345 to R347), flits and retry (R348, R349), credits (R350), routing and
forwarding (R354, R355, R358, R359), violations and quarantine (R367, R368), and the router's registers (R357 to R360, R370, R516).
-/

namespace Sys2Proof.Machine

variable {s : State}

/-! ### States -/

/-- LINK.STAT.STATE values (R347). -/
def linkDisabled : Nat := 0
@[inherit_doc linkDisabled] def linkDOWN : Nat := 1
@[inherit_doc linkDisabled] def linkTRAINING : Nat := 2
@[inherit_doc linkDisabled] def linkUP : Nat := 3
@[inherit_doc linkDisabled] def linkQUAR : Nat := 4

/-- The state of a link. -/
def State.linkState (s : State) (l : Nat) : Nat := s.fld LINK.STAT.STATE l

/-- Does the link carry packets: UP and not in loopback? -/
def State.carries (s : State) (l : Nat) : Bool := l < 24 && s.linkState l = linkUP && !s.flag LINK.CTL.LOOP l

/-- Links of a bond group. -/
def State.bondLinks (s : State) (g : Nat) : List Nat := (List.range 24).filter (bit (s.fld ROUTER.BOND.MASK 0 g))

/-- UP members of a bond group by ascending number (R358), whatever their partners. -/
def State.bondUp (s : State) (g : Nat) : List Nat := (s.bondLinks g).filter s.carries

/-- Do the UP members reach one partner? -/
def State.bondAgrees (s : State) (g : Nat) : Bool :=
  let ps := (s.bondUp g).map fun l => s.fld LINK.STAT.PARTNER l
  ps.all fun p => some p = ps.head?

/-- The UP members of a group changed: its links pause (R359), and members with different partners are logged (R358). -/
def Tx.groupChanged (t : Tx s) (g : Nat) : Tx s :=
  let t := t.forEach (t.now.bondLinks g) fun t l => t.modLinks l fun x => { x with holding := true }
  if t.now.bondAgrees g then t else t.logStatus .ROUTER 0 .PROTO

/-- The groups of a link. -/
def Tx.linkChanged (t : Tx s) (l : Nat) : Tx s :=
  t.forEach ((List.range 12).filter fun g => bit (t.fld ROUTER.BOND.MASK 0 g) l) fun t g => t.groupChanged g

/-- A link takes a state; leaving UP is an interrupt source, and changes its groups. -/
def Tx.setLinkState (t : Tx s) (l st : Nat) : Tx s :=
  let was := t.now.linkState l
  let t := t.setFld LINK.STAT.STATE st l
  if was = linkUP && st ≠ linkUP then ((t.setFld LINK.STAT.WIDTH 0 l).raiseIrq .LINK l 1).linkChanged l else t

/-- A link starts over: what it had sent and not seen acknowledged is lost (R342), and a new partner exchange gives full credit. -/
def Link.fresh (x : Link) : Link :=
  { x with txSeq := 0, rxSeq := 0, retry := [], replays := 0, credits := List.replicate 8 512, holding := false }

/-- A link goes DOWN. -/
def Tx.linkDown (t : Tx s) (l : Nat) : Tx s := (t.setLinkState l linkDOWN).modLinks l Link.fresh

/-- A link retrains (R347, R349). -/
def Tx.retrain (t : Tx s) (l : Nat) : Tx s := (t.bump LINK.RETRY.RETRAIN 1 l).setLinkState l linkTRAINING

/-! ### Flits (R348, R349) -/

/-- The ACKSEQ a link sends: the highest FSEQ it has accepted. -/
def Link.ack (x : Link) : Nat := (x.rxSeq + 4095) % 4096

/-- Send an IDLE flit: acknowledgement, NAK, and a credit return. -/
def Tx.idleFlit (t : Tx s) (l : Nat) (nak : Bool) (vc cls credits : Nat) : Tx s :=
  if t.now.carries l then t.emit (.flit l 0 (t.linksAt l).ack nak true vc cls credits none 0) else t

/-- Send a packet's flits and keep them for replay. -/
def Tx.sendFlits (t : Tx s) (l : Nat) (p : Packet) : Tx s :=
  t.forEach (List.range p.flits) fun t k =>
    let x := t.linksAt l
    (t.putLinks l { x with txSeq := (x.txSeq + 1) % 4096, retry := x.retry ++ [⟨x.txSeq, p, k⟩] }).emit
      (.flit l x.txSeq x.ack false false 0 0 0 (some p) k)

/-- Replay every flit not yet acknowledged; after eight replays without progress the link retrains (R349). -/
def Tx.replay (t : Tx s) (l : Nat) : Tx s :=
  let x := t.linksAt l
  if x.retry.isEmpty then t
  else if 8 ≤ x.replays then (t.putLinks l { x with replays := 0 }).retrain l
  else
    let t := (t.putLinks l { x with replays := x.replays + 1 }).bump LINK.RETRY.REPLAY 1 l
    t.forEach x.retry fun t f => t.emit (.flit l f.fseq x.ack false false 0 0 0 (some f.packet) f.part)

/-- REPLAY_TIMEOUT (R349): no acknowledgement within 2 µs of sending. -/
def execReplayTimeout (l : Fin 24) (s : State) : Host.Outcome State Fault Refusal :=
  done ((begin s).when (s.carries l) fun t => t.replay l)

/-! ### Training -/

/-- LINK_TRAINED (R347): training of an enabled link ends with a width (0 none reached, 1 two lanes, 2 four lanes) and the partner
exchange. Two lanes need ALLOW2; a partner with this module's own device ID leaves it DOWN. A retrained link goes on with its
replays (R349); one that was DOWN starts over. -/
def Tx.linkTrained (t : Tx s) (l width partner : Nat) (pready : Bool) : Tx s :=
  let st := t.now.linkState l
  if !t.flag LINK.CTL.EN l || linkTRAINING < st || t.now.slumber || t.now.tripped then t
  else
    let again := st = linkTRAINING && !(t.linksAt l).retry.isEmpty
    let t := t.modFw fun f => { f with links := if bit f.links l then f.links - 2 ^ l else f.links }
    if width = 0 || (width = 1 && !t.flag LINK.CTL.ALLOW2 l) then t.linkDown l
    else
      let t := (t.setFld LINK.STAT.PARTNER partner l).setFld LINK.STAT.PREADY (bnat pready) l
      if partner = t.now.devId then (t.linkDown l).logStatus .LINK l .PROTO
      else
        let t := ((t.setFld LINK.STAT.WIDTH width l).setLinkState l linkUP).raiseIrq .LINK l 0
        (if again then t.replay l else t.modLinks l fun x => { x.fresh with rx := x.rx }).linkChanged l

/-- LINK_DOWN (R347): a link fails, or its retrain fails. -/
def execLinkDown (l : Fin 24) (s : State) : Host.Outcome State Fault Refusal :=
  done ((begin s).when (s.linkState l = linkUP || s.linkState l = linkTRAINING) fun t => t.linkDown l)

/-! ### Routing (R354, R358) -/

/-- Where a packet goes next: nowhere, nowhere yet, or over a link, with the entry's DL. -/
inductive Hop
  | none
  | wait
  | via (l : Nat) (dl : Bool)
  deriving DecidableEq, Repr

/-- The member of a group of `m` UP links that a packet takes (R358). -/
def bondMember (p : Packet) (m : Nat) : Nat :=
  (if p.vc = 0 ∨ p.vc = 2 then bits p.addr 21 6 ^^^ p.dst else p.tag ^^^ p.dst) % m

/-- The routing table entry of a device (R354). -/
def State.routeEntry (s : State) (dev : Nat) : Nat := (s.regsAt ((Page.ROUTE).base 0 + 4 * (dev % 65536))).toNat

/-- The next hop of a unicast packet (R354, R358, R359). -/
def State.hop (s : State) (p : Packet) : Hop :=
  let e := s.routeEntry p.dst
  let pri := bits e 29 25
  let dl := bit e 18
  let alt := bits e 23 19
  if !bit e 31 then .none
  else
    let up := if bit e 30 then (if pri < 12 && s.bondAgrees pri then s.bondUp pri else []) else if s.carries pri then [pri] else []
    match up with
    | [] => if bit e 24 && s.carries alt then .via alt dl else .none
    | l :: ls =>
      if bit e 30 && (s.bondLinks pri).any fun k => (s.linksAt k).holding then .wait
      else .via ((l :: ls).getD (bondMember p (ls.length + 1)) l) dl

/-- The credit counter of a VC and class. -/
def creditIx (vc cls : Nat) : Nat := 2 * vc + cls

/-- May a packet start on a link in a class: credit for the whole packet, and room to keep its flits (R349, R350)? -/
def State.canStart (s : State) (l : Nat) (p : Packet) (cls : Nat) : Bool :=
  s.carries l && p.units ≤ (s.linksAt l).credits.getD (creditIx p.vc cls) 0 && (s.linksAt l).retry.length + p.flits ≤ 256

/-- Start a packet on a link. -/
def Tx.launch (t : Tx s) (l : Nat) (p : Packet) (cls : Nat) : Tx s :=
  let k := creditIx p.vc cls
  (t.modLinks l fun x => { x with credits := x.credits.set k (x.credits.getD k 0 - p.units) }).sendFlits l { p with cls := cls }

/-- Answer a packet with NAK (R352). -/
def Tx.nak (t : Tx s) (p : Packet) (st : Status) (hint : Nat := 0) (reason : Nat := 0) : Tx s :=
  t.sendPacket { type := ptNAK, dst := p.src, tag := p.tag, aux := st.code + reason <<< 8, addr := hint % 65536 }

/-- A packet without a route is discarded, counted, and answered unless it is on RSP (R354). -/
def Tx.noRoute (t : Tx s) (p : Packet) : Tx s :=
  (t.bump ROUTER.DROP.NOROUTE).when (p.vc ≠ 1) fun t => t.nak p .RANGE

/-- The hop of a waiting packet: the link of a multicast copy, or its route. -/
def State.txHop (s : State) (x : TxPacket) : Hop :=
  match x.link with
  | some l => if s.carries l then .via l false else .none
  | none => s.hop x.packet

/-- PACKET_TRANSMIT (R350, R351): the `k`-th waiting packet starts on its link, unless an earlier one in its virtual channel takes
the same link. -/
def execPacketTransmit (k : Nat) (s : State) : Host.Outcome State Fault Refusal :=
  let t := begin s
  match s.txq[k]? with
  | none => done t
  | some x =>
    match s.txHop x with
    | .none => done ((t.putTxq (s.txq.eraseIdx k)).noRoute x.packet)
    | .wait => done t
    | .via l dl =>
      let cls := bnat (x.one || dl)
      let first := (s.txq.take k).all fun y => y.packet.vc ≠ x.packet.vc || !(match s.txHop y with | .via j _ => j = l | _ => false)
      if first && s.canStart l x.packet cls then done ((t.putTxq (s.txq.eraseIdx k)).launch l x.packet cls) else done t

/-! ### Receive buffers -/

/-- Is a packet for this module alone? -/
def State.isHere (s : State) (p : Packet) : Bool := !p.mc && p.dst = s.devId

/-- The packet at the head of a receive buffer. -/
def State.head (s : State) (l vc cls : Nat) : Option Packet := (s.linksAt l).rx.find? fun p => p.vc = vc && p.cls = cls

/-- Take a packet from its buffer; its room goes back to the partner as credit. -/
def Tx.takePacket (t : Tx s) (l : Nat) (p : Packet) : Tx s :=
  (t.modLinks l fun x => { x with rx := x.rx.erase p }).idleFlit l false p.vc p.cls p.units

/-- What an unready router does with a packet (R369). -/
def Tx.unready (t : Tx s) (p : Packet) : Tx s :=
  if p.vc = 0 || p.vc = 2 then t.nak p .NOT_READY (t.fld ROUTER.HINT.US) else t

/-- PACKET_FORWARD (R354, R355, R365): the packet at the head of a receive buffer is for another device, or a multicast: TTL 0 ends
it, logged with a status that the spec does not state (free), else it leaves with TTL one less once its next hop has credit, in class 1 if it came so or by the entry's DL. Of a multicast,
a copy goes to each link of the group and one stays here with LOCAL. -/
def execPacketForward (l : Fin 24) (vc : Fin 4) (cls : Fin 2) (s : State) : Host.Outcome State Fault Refusal :=
  let t := begin s
  match s.head l vc cls with
  | none => done t
  | some p =>
    if s.isHere p then done t
    else if !s.flag ROUTER.CTL.READY then done ((t.takePacket l p).unready p)
    else
      let q := { p with ttl := p.ttl - 1 }
      let expired (t : Tx s) : Tx s :=
        (t.freshen.bump ROUTER.DROP.TTL).logStatus .ROUTER 0 (statusOfCode (Config.draw t.now.fresh % 256))
      if p.mc then
        let g := s.groupOut p.dst
        let t := t.takePacket l p
        let t := t.when g.2 fun t => t.deliver p
        if g.1.isEmpty && !g.2 then done (t.noRoute p)
        else if p.ttl = 0 then done (t.when (!g.1.isEmpty) expired)
        else done (t.putTxq (t.now.txq ++ g.1.map fun j => { packet := q, one := p.cls = 1, link := some j }))
      else if p.ttl = 0 then done (expired (t.takePacket l p))
      else
        match s.hop p with
        | .none => done ((t.takePacket l p).noRoute p)
        | .wait => done t
        | .via j dl =>
          let c := bnat (p.cls = 1 || dl)
          if s.canStart j q c then done ((t.takePacket l p).launch j q c) else done t

/-! ### Violations (R367, R368) -/

/-- A link is quarantined: one QUAR packet to its partner, then it neither sends nor accepts; counted, and in the life log. -/
def Tx.quarantine (t : Tx s) (l : Nat) : Tx s :=
  let q : Packet := { type := ptQUAR, vc := 3, dst := t.fld LINK.STAT.PARTNER l, src := t.now.devId, ttl := t.fld ROUTER.CTL.TTL }
  let t := (t.sendFlits l q).modLinks l Link.fresh
  ((((t.setLinkState l linkQUAR).bump LINK.VIOLCNT.QUAR 1 l).raiseIrq .LINK l 2).lifeCount (100 + l)).lifeNote

/-- A violation at a time in ns: logged with its reason and its packet's SRC and TYPE (R475), and counted; the 16th within 1 ms
quarantines the link. -/
def Tx.violation (t : Tx s) (l reason time : Nat) (p : Packet := {}) : Tx s :=
  let t := (t.logError .LINK l { status := .PROTO, cls := 4,
                                 detail := reason + (p.src % 2 ^ 16) <<< 16 + (p.type % 256) <<< 32 }).bump LINK.VIOLCNT.VIOL 1 l
  let vs := (t.linksAt l).viols ++ [time]
  let vs := vs.drop (vs.length - 16)
  let t := t.modLinks l fun x => { x with viols := vs }
  if vs.length = 16 && time ≤ vs.headD 0 + 1000000 && t.now.linkState l = linkUP then t.quarantine l else t

/-- Payload lines a type may have (R352). -/
def lenLegal (ty n : Nat) : Bool :=
  if ty = ptWR ∨ ty = ptCONTRIB then 1 ≤ n ∧ n ≤ 16
  else if ty = ptATOM ∨ ty = ptATOMR ∨ ty = ptEPOCHSET then n = 1
  else if ty = ptRDATA then n ≤ 16
  else n = 0

/-- The first of reasons 1 to 3 that a packet gives. -/
def Packet.fault (p : Packet) : Option Nat :=
  match typeVc p.type with
  | none => some 1
  | some v =>
    if p.mc && 256 ≤ p.dst then some 1
    else if !lenLegal p.type p.len || p.payload.length ≠ 64 * p.len then some 2
    else if p.vc ≠ v || (p.mc && p.type ≠ ptWR && p.type ≠ ptCONTRIB && p.type ≠ ptEPOCHSET) then some 3
    else none

/-- Is a response that arrives here one that nothing outstanding expects (reason 5)? -/
def State.strayReply (s : State) (p : Packet) : Bool :=
  p.vc = 1 && s.isHere p && s.flag ROUTER.CTL.READY &&
  (let x := s.peersAt p.tag
   !x.live || (!x.packet.mc && x.packet.dst ≠ p.src))

/-- A packet that an accepted flit ends: kept in its receive buffer, or a violation. A discarded one that had credit gives it
back. -/
def Tx.arrive (t : Tx s) (l time : Nat) (p : Packet) : Tx s :=
  let p := { p with cls := p.cls % 2 }
  let x := t.linksAt l
  let used := ((x.rx.filter fun q => q.vc = p.vc && q.cls = p.cls).map (·.units)).sum
  let back (t : Tx s) : Tx s := t.idleFlit l false p.vc p.cls p.units
  match p.fault with
  | some r =>
    let known := bit (t.now.routeEntry p.src) 31 || p.src = t.now.devId
    ((back t).violation l r time p).when (known && p.vc ≠ 1 && typeVc p.type ≠ some 1) fun t => t.nak p .PROTO 0 r
  | none =>
    if 512 < used + p.units then t.violation l 4 time p
    else if t.now.strayReply p then (back t).violation l 5 time p
    else t.putLinks l { x with rx := x.rx ++ [p] }

/-- The acknowledgement and credits of a flit (R348, reason 6): acknowledged flits leave the retry buffer. -/
def Tx.acknowledge (t : Tx s) (l time : Nat) (f : Flit) : Tx s :=
  let x := t.linksAt l
  let behind := (x.txSeq + 8191 - f.ack.toNat) % 4096
  let k := creditIx f.cvc f.ccls
  let c := x.credits.getD k 0 + f.credits.toNat
  if x.retry.length < behind || 512 < c then (t.violation l 6 time).when (t.now.linkState l = linkUP) fun t =>
    if t.now.linkState l = linkUP then t.retrain l else t
  else t.putLinks l { x with
    retry := x.retry.drop (x.retry.length - behind), credits := x.credits.set k c,
    replays := if behind < x.retry.length then 0 else x.replays }

/-- FLIT_RECEIVE (R348, R349): a flit arrives at a time in ns. A bad CRC or an FSEQ that is not the next discards it and asks for a
replay; else it acknowledges, returns credit, replays what it asks for, and its packets are kept. -/
def Tx.flitReceive (t : Tx s) (l : Nat) (f : Flit) (time : Nat) : Tx s :=
  if !t.now.carries l then t
  else if !f.crc || (!f.idle && f.fseq.toNat ≠ (t.linksAt l).rxSeq) then t.idleFlit l true 0 0 0
  else
    let t := t.when (!f.idle) fun t => t.modLinks l fun x => { x with rxSeq := (x.rxSeq + 1) % 4096 }
    let t := t.acknowledge l time f
    let t := t.when (f.nak && t.now.carries l) fun t => t.replay l
    if f.idle then t
    else (t.forEach f.packets fun t p => if t.now.linkState l = linkQUAR then t else t.arrive l time p).idleFlit l false 0 0 0

@[inherit_doc Tx.flitReceive] def execFlitReceive (l : Fin 24) (f : Flit) (time : Nat) (s : State) :
    Host.Outcome State Fault Refusal :=
  done ((begin s).flitReceive l f time)

/-! ### Registers -/

/-- A write of LINK.CTL.RELEASE (R368). -/
def Tx.linkRelease (t : Tx s) (l : Nat) : Tx s :=
  if t.now.linkState l = linkQUAR then (t.modLinks l fun x => { x with viols := [] }).retrain l else t

/-- LINK_RELEASE (R368). -/
def execLinkRelease (o : RegFrom) (l : Fin 24) (s : State) : Host.Outcome State Fault Refusal :=
  done ((begin s).guarded o .LINK l fun t => t.linkRelease l)

/-- A write of LINK.CTL.RETRAIN (R347); a quarantined link leaves only by RELEASE, a disabled one not at all. -/
def Tx.linkRetrain (t : Tx s) (l : Nat) : Tx s :=
  let st := t.now.linkState l
  if st = linkUP || st = linkDOWN || st = linkTRAINING then t.retrain l else t

/-- LINK_RETRAIN (R347). -/
def execLinkRetrain (o : RegFrom) (l : Fin 24) (s : State) : Host.Outcome State Fault Refusal :=
  done ((begin s).guarded o .LINK l fun t => t.linkRetrain l)

/-- A write of LINK.CTL's stored fields: EN = 0 disables the link, EN = 1 takes it from DISABLED to DOWN (R347). -/
def Tx.linkCtl (t : Tx s) (l : Nat) (allow2 loop en : Bool) : Tx s :=
  let t := ((t.setFld LINK.CTL.ALLOW2 (bnat allow2) l).setFld LINK.CTL.LOOP (bnat loop) l).setFld LINK.CTL.EN (bnat en) l
  let st := t.now.linkState l
  if !en && st ≠ linkDisabled then (t.setLinkState l linkDisabled).modLinks l Link.fresh
  else if en && st = linkDisabled then t.setLinkState l linkDOWN
  else t

/-- Is the normal world's write to the router's tables refused: its OWNER secure-hold bit is set? -/
def Tx.routerHeld (t : Tx s) (o : RegFrom) : Bool := o.world = .normal && t.flag (HDR.OWNER.HOLD .ROUTER)

/-- A write that the hold of the ROUTER page refuses from the normal world (ch. 15, registers). -/
def Tx.routerWrite (t : Tx s) (o : RegFrom) (f : Tx s → Tx s) : Tx s :=
  if t.routerHeld o then t.logStatus .ROUTER 0 .DENIED else f t

/-- A write of ROUTER.CTL (R370, R516): READY may not be set before the ready declaration nor cleared again; DEVID changes only
while READY is 0. -/
def Tx.routerCtl (t : Tx s) (o : RegFrom) (dev ttl : Nat) (ready : Bool) : Tx s :=
  let was := t.flag ROUTER.CTL.READY
  if ready && !t.now.ready then t.logStatus .ROUTER 0 .NOT_READY
  else if was && !ready then t.logStatus .ROUTER 0 .STATE
  else if !was && dev ≠ t.now.devId && t.routerHeld o then t.logStatus .ROUTER 0 .DENIED
  else ((if was then t else t.setFld ROUTER.CTL.DEVID dev).setFld ROUTER.CTL.TTL ttl).setFld ROUTER.CTL.READY (bnat ready)

/-- ROUTER_CTL_WRITE (R516). -/
def execRouterCtlWrite (o : RegFrom) (dev : BitVec 16) (ttl : BitVec 6) (ready : Bool) (s : State) :
    Host.Outcome State Fault Refusal :=
  done ((begin s).guarded o .ROUTER 0 fun t => t.routerCtl o dev.toNat ttl.toNat ready)

/-- Does a routing entry in use name links and a bond group that exist (R7, R354)? -/
def routeNames (v : Nat) : Bool :=
  !bit v 31 || (bits v 29 25 < (if bit v 30 then 12 else 24) && (!bit v 24 || bits v 23 19 < 24))

/-- A write of the routing entry of device `dev`; an entry that names a link which does not exist is refused (R7). -/
def Tx.routeWrite (t : Tx s) (o : RegFrom) (dev v : Nat) : Tx s :=
  t.routerWrite o fun t =>
    if routeNames v then t.putSpan ((Page.ROUTE).base 0 + 4 * dev) 1 v else t.logStatus .ROUTER 0 .RANGE

/-- ROUTE_ENTRY_WRITE (R357): the routing table entry of a device. -/
def execRouteEntryWrite (o : RegFrom) (dev : BitVec 16) (v : Word) (s : State) : Host.Outcome State Fault Refusal :=
  done ((begin s).guarded o .ROUTE 0 fun t => t.routeWrite o dev.toNat v.toNat)

/-- Does a window lie in the near tier, the far tier or the tile scratchpads, whole? -/
def State.windowPlaced (s : State) (base size : Nat) : Bool :=
  s.inTier base size || (0x20000000000 ≤ base && base + size ≤ 0x20000000000 + 64 * spadBytes)

/-- A write of a PWIN entry (R360). -/
def Tx.pwinWrite (t : Tx s) (o : RegFrom) (n v : Nat) : Tx s :=
  let valid := bit v 127
  let old := t.now.pwin n
  let base := bits v 79 48 * 4096
  let size := bits v 47 20 * 4096
  if valid && o.world = .normal && (bit v 126 || bit old 126) then t.logStatus .ROUTER 0 .DENIED
  else if valid && (size = 0 || !t.now.windowPlaced base size) then t.logStatus .ROUTER 0 .RANGE
  else t.putSpan ((Page.PWIN).base 0 + 16 * n) 4 v

/-- PWIN_WRITE (R360): one 16-byte entry of the peer window table. -/
def execPwinWrite (o : RegFrom) (n : BitVec 8) (v : BitVec 128) (s : State) : Host.Outcome State Fault Refusal :=
  done ((begin s).guarded o .PWIN 0 fun t => t.pwinWrite o n.toNat v.toNat)

/-- A write of ROUTER.BOND (R358, R370): a link in two groups is refused. -/
def Tx.bondWrite (t : Tx s) (g mask : Nat) : Tx s :=
  if (List.range 12).any fun k => k ≠ g && t.fld ROUTER.BOND.MASK 0 k &&& mask ≠ 0 then t.logStatus .ROUTER 0 .RANGE
  else (t.setFld ROUTER.BOND.MASK mask 0 g).groupChanged g

/-- BOND_WRITE (R358). -/
def execBondWrite (o : RegFrom) (g : Fin 12) (mask : BitVec 24) (s : State) : Host.Outcome State Fault Refusal :=
  done ((begin s).guarded o .ROUTER 0 fun t => t.routerWrite o fun t => t.bondWrite g mask.toNat)

/-- BOND_CHANGE (R359): a paused group goes on, once every flit sent on it has been acknowledged or its link has gone DOWN. -/
def execBondChange (g : Fin 12) (s : State) : Host.Outcome State Fault Refusal :=
  let t := begin s
  if (s.bondLinks g).any fun l => (s.linkState l = linkUP || s.linkState l = linkTRAINING) && !(s.linksAt l).retry.isEmpty then done t
  else done (t.forEach (s.bondLinks g) fun t l => t.modLinks l fun x => { x with holding := false })

end Sys2Proof.Machine
end

