-- ==== Sys2Proof/Machine/Reset.lean ====
section
/-!
DEFINITION. Resets (R502, R505, R510 to R512, R519, R536), the removal of power (R454, R485), and SYSREF's arrival.
-/

namespace Sys2Proof.Machine

variable {s : State}

/-! ### What a reset returns -/

/-- Return every register word to its reset value, but for the bits that `keep` gives each word by its offset (R502). -/
def Tx.resetRegs (t : Tx s) (keep : Nat → Word) : Tx s :=
  t.forEach (t.now.regs.map (·.1)) fun t k => t.putRegs k ((t.regsAt k &&& keep k) ||| (resetWord k &&& ~~~keep k))

/-- The bits a WARM reset keeps (R502), and QE.MODE.SERVICE with SEC's copy of its fuse, which only a POR changes (R428). -/
def warmKeep (k : Nat) : Word :=
  match bar0 k with
  | some (.GLM, _, _) | some (.STRAP, _, _) | some (.RESET, _, 0x100) | some (.CHIP, _, 0x100) | some (.CHIP, _, 0x104) => 0xFFFFFFFF
  | some (.QE, _, 0x100) | some (.SEC, _, 0x100) => 1
  | _ => 0

/-- Records end without CQE and outstanding peer writes without late errors (R511). -/
def Tx.endRecords (t : Tx s) : Tx s :=
  let t := t.forEach (t.now.records.map (·.1)) fun t r => t.putRecords r {}
  t.forEach (t.now.peers.map (·.1)) fun t k => t.modPeers k fun x => { x with mute := true }

/-- Domains are destroyed (R426): each sealed cluster is wiped, and the regions' keys are erased. -/
def Tx.destroyDomains (t : Tx s) : Tx s :=
  (t.forEach ((List.range 8).filter fun cl => (t.now.domainOfCluster cl).isSome) fun t cl => t.wipeCluster cl).eraseDomains

/-- Compute tiles, of which `keep` says what stays, clusters, and the tables that firmware loads. -/
def Tx.clearCompute (t : Tx s) (keep : Tile → Tile) : Tx s :=
  let t := t.forEach (t.now.tiles.map (·.1)) fun t k => t.putTiles k (keep (t.tilesAt k))
  let t := t.forEach (t.now.clusters.map (·.1)) fun t k => t.putClusters k {}
  let t := t.forEach (t.now.psets.map (·.1)) fun t k => t.putPsets k {}
  let t := t.forEach (t.now.primes.map (·.1)) fun t k => t.putPrimes k 0
  let t := t.forEach (t.now.ksets.map (·.1)) fun t k => t.putKsets k {}
  let t := t.forEach (t.now.graphs.map (·.1)) fun t k => t.putGraphs k {}
  let t := t.forEach (t.now.contexts.map (·.1)) fun t k => t.putContexts k {}
  let t := t.forEach (t.now.landTag.map (·.1)) fun t k => t.putLandTag k 0
  (((t.putHash {}).putSerge {}).putTests {}).modFw fun f => { f with cache := [], links := 0 }

/-- SPTSTAT.SPARE and SPAD_SIZE.MAX show the repairs that outlast a WARM reset (R249; log entry 71). -/
def Tx.showRepairs (t : Tx s) : Tx s :=
  t.forEach (t.now.tiles.map (·.1)) fun t i =>
    let x := t.tilesAt i
    let t := t.setFld TILE.SPTSTAT.SPARE (16 - (x.spares.map (·.2)).foldl max 0) i
    t.when x.pinned.isSome fun t => t.setFld TILE.SPAD_SIZE.MAX 63 i

/-- Queues, sessions, the queue engine and the doorbell latches. -/
def Tx.clearQueues (t : Tx s) : Tx s :=
  let t := t.forEach (t.now.queues.map (·.1)) fun t k => t.putQueues k {}
  let t := t.forEach (t.now.sessions.map (·.1)) fun t k => t.putSessions k {}
  let t := t.forEach (t.now.doorbells.map (·.1)) fun t k => t.putDoorbells k (none, none)
  (t.putQe {}).putCxl {}

/-- Links, peer transactions and controllers. -/
def Tx.clearFabric (t : Tx s) : Tx s :=
  let t := t.forEach (t.now.links.map (·.1)) fun t k => t.putLinks k {}
  let t := t.forEach (t.now.peers.map (·.1)) fun t k => t.putPeers k {}
  let t := t.forEach (t.now.memctl.map (·.1)) fun t k => t.putMemctl k {}
  (t.putTxq []).putEpoch {}

/-- Firmware cores, mailboxes, SPDM connections; words held or waiting; error latches. -/
def Tx.clearFirmware (t : Tx s) : Tx s :=
  let t := t.forEach (t.now.cores.map (·.1)) fun t k => t.putCores k {}
  let t := t.forEach (t.now.mboxes.map (·.1)) fun t k => t.putMboxes k {}
  let t := t.forEach (t.now.spdm.map (·.1)) fun t k => t.putSpdm k {}
  let t := t.forEach (t.now.errPages.map (·.1)) fun t k => t.putErrPages k {}
  let t := t.forEach (t.now.deferred.map (·.1)) fun t k => t.putDeferred k none
  let t := t.forEach (t.now.held.map (·.1)) fun t k => t.putHeld k none
  t.putMgmt { t.now.mgmt with eid := 0 }

/-- The life log at a reset: a bank write in progress is given up, and no snapshot is held. -/
def Tx.lifeReset (t : Tx s) : Tx s :=
  (t.modLife fun l => { l with waiting := [], writing := none, snap := none }).showLife

/-! ### POR -/

/-- What a POR or the loss of every rail clears besides: both tiers, their regions and domains, the host's configuration, power
management and Gloaming, the test port. -/
def Tx.clearAll (t : Tx s) : Tx s :=
  let t := ((((t.resetRegs fun _ => 0).clearCompute fun _ => {}).clearQueues).clearFabric).clearFirmware
  let t := t.forEach (t.now.records.map (·.1)) fun t r => t.putRecords r {}
  let t := t.forEach (t.now.mem.map (·.1)) fun t a => t.act (.mem a [0])
  let t := t.forEach (t.now.poison.map (·.1)) fun t k => t.putPoison k false
  let t := t.forEach (t.now.regions.map (·.1)) fun t k => t.putRegions k {}
  let t := t.forEach (t.now.domains.map (·.1)) fun t k => t.putDomains k {}
  let t := t.forEach (t.now.pcie.map (·.1)) fun t k => t.putPcie k {}
  (((t.putSec {}).putPower { brakePin := t.now.power.brakePin }).putGlm {}).putMgmt {}

/-- The release of POR_N (R506, R510, R513): straps sampled, every page reset, boot from stage 0x10; SYSREF within its limits lets
it proceed (R536). -/
def Tx.por (t : Tx s) (straps : BitVec 7) (sysref : Bool) : Tx s :=
  t.pins fun t =>
    let was := t.now.tripped
    let svc := bnat t.now.fw.svc
    let t := ((t.clearAll.lifeReset).setFld RESET.CAUSE.POR 1).setFld RESET.CAUSE.TRIPPED (bnat was)
    let t := (t.putSpan ((Page.STRAP).base 0 + 0x100) 1 straps.toNat).putSpan ((Page.STRAP).base 0 + 0x104) 1 straps.toNat
    let t := t.when (bit straps.toNat 6) fun t => t.logStatus .STRAP 0 .RANGE
    let t := t.when (bits straps.toNat 1 0 = 3) fun t => t.logStatus .STRAP 0 .RANGE
    let t := (t.setFld QE.MODE.SERVICE svc).setFld SEC.STAT.SVC svc
    ((((t.loadTables vendorTables).setFld RESET.BOOT.STAGE (if sysref then 0x20 else 0x10)).lifeCount 1)).modFw fun f =>
      { f with afterPor := true }

/-- POR (R510). -/
def execPor (straps : BitVec 7) (sysref : Bool) (s : State) : Host.Outcome State Fault Refusal := done ((begin s).por straps sysref)

/-- A bank that loss of power finds half written is invalid (R489). -/
def LifeLog.cut (l : LifeLog) : LifeLog :=
  if l.writing.isNone then l
  else if l.newest = some false then { l with bank1 := {} }
  else { l with bank0 := {} }

/-- VAON is lost, with what was gathered there (R485). -/
def Tx.loseVaon (t : Tx s) : Tx s :=
  t.modLife fun l => { l.cut with counts := [], hists := [], events := [], waiting := [], writing := none, fatal := none,
                                  sinceRequest := none, snap := none, perturbed := 0 }

/-- VAON_BROWNOUT (R536): a power-on reset, with the straps sampled again. -/
def execVaonBrownout (straps : BitVec 7) (sysref : Bool) (s : State) : Host.Outcome State Fault Refusal :=
  done ((begin s).loseVaon.por straps sysref)

/-- SYSREF_ARRIVAL (R536): a boot that waits at stage 0x10 proceeds. -/
def execSysrefArrival (s : State) : Host.Outcome State Fault Refusal :=
  done ((begin s).when (s.fld RESET.BOOT.STAGE = 0x10) fun t => t.setFld RESET.BOOT.STAGE 0x20)

/-- POWER_REMOVAL (R454, R485): the module is OFF; package flash and fuses keep their contents. -/
def execPowerRemoval (s : State) : Host.Outcome State Fault Refusal :=
  done ((begin s).pins fun t => (t.loseVaon.clearAll).showLife)

/-! ### WARM -/

/-- The range lent when a WARM reset comes is kept, to be filled with zeros (R512). -/
def Tx.keepLent (t : Tx s) (old : Nat × Nat) : Tx s :=
  if old.1 < old.2 then
    (t.putRegions lentRegion { live := true, base := old.1, size := (old.2 - old.1) / 2 ^ 21, filling := true, releasing := true }).setFld
      MEMSYS.LEND.BUSY 1
  else t

/-- A WARM reset (R510 to R512): every page but those kept; both tiers keep their contents; boot from stage 0x20. A tripped module
stays so (R519). -/
def Tx.warm (t : Tx s) (cause : Fld) : Tx s :=
  if t.now.tripped then t
  else
    t.pins fun t =>
      let lent := t.now.lentRange
      let brake := t.now.brake
      let t := t.endRecords.destroyDomains
      let t := (((((t.resetRegs warmKeep).clearCompute Tile.worn).showRepairs).clearQueues).clearFabric).clearFirmware
      let t := (t.putSec { jtag := t.now.sec.jtag }).putPower { brakePin := t.now.power.brakePin, braking := brake }
      let t := t.forEach ((t.now.regions.map (·.1)).filter (· < 64)) fun t r => t.showRegion r
      let t := ((t.keepLent lent).setFld cause 1).setFld RESET.BOOT.STAGE 0x20
      (t.lifeReset.lifeCount 2).modFw fun f => { f with afterPor := false }

/-- WARM_RST_N (R510). -/
def execWarmRstN (s : State) : Host.Outcome State Fault Refusal := done ((begin s).warm RESET.CAUSE.WARM)

/-- A write of RESET.SWRST (R424, R505): GO with the key resets the module, unless a sealing domain exists and the normal world asks. -/
def Tx.swrst (t : Tx s) (o : RegFrom) (key : Nat) (go : Bool) : Tx s :=
  if !go then t
  else if key ≠ 0x5752 then t.logStatus .RESET 0 .RANGE
  else if o.world = .normal && t.now.anyDomain then
    ((t.logStatus .RESET 0 .DENIED).logStatus .SEC 0 .DENIED).bump SEC.DENYCNT.POWER
  else t.warm RESET.CAUSE.SWRST

/-- SWRST (R505): GO with a key. -/
def execSwrst (o : RegFrom) (key : BitVec 16) (s : State) : Host.Outcome State Fault Refusal :=
  done ((begin s).guardedOpen o .RESET 0 fun t => t.swrst o key.toNat true)

/-! ### PERST -/

/-- The bits of QE's page that PERST keeps: QE.MODE.SERVICE (R428). -/
def serviceKeep (off : Nat) : Word := if off = 0x100 then 1 else 0

/-- The release of PERST_N (R502, R510 to R512, R519): the host's side resets; records end without CQE, their tiles stop and are IDLE;
graphs, key sets, primes and parameter sets stay; sessions are FREE. -/
def Tx.perst (t : Tx s) : Tx s :=
  if t.now.tripped then t
  else
    let busy := (List.range 64).filter fun i => (t.tilesAt i).rec?.isSome
    let t := t.forEach ((t.now.sessions.filter (·.2.state ≠ 0)).map (·.1)) fun t v => t.freeSession v
    let t := t.endRecords
    let t := t.forEach busy fun t i =>
      (t.putTiles i (t.tilesAt i).worn).setFld TILE.RUNSTAT.STATE runIdle i
    let t := t.forEach ((List.range 8).filter fun cl => busy.any fun i => i / 8 = cl) fun t cl => t.loseCluster cl
    let t := t.forEach (t.now.contexts.map (·.1)) fun t k => t.putContexts k {}
    let t := t.destroyDomains.clearQueues.resetPage .QE 0 serviceKeep
    let t := t.forEach (List.range 64) fun t f => ((t.resetPage .FN f).resetPage .MBOX f).putMboxes f {}
    let t := t.forEach (List.range 64) fun t f => (t.resetPage .MSIX f).resetPage .PBA f
    let t := (((t.resetPage .MSIXPF 0).resetPage .PBAPF 0).resetPage .HWMAP 0).resetPage .BAR4MAP 0
    let t := t.forEach (t.now.pcie.map (·.1)) fun t f => t.putPcie f {}
    (t.putSpdm 0 {}).setFld RESET.CAUSE.PERST 1

/-- PERST_N (R510). -/
def execPerstN (s : State) : Host.Outcome State Fault Refusal := done ((begin s).perst)

end Sys2Proof.Machine
end

