-- ==== Sys2Proof/Machine/Boot.lean ====
section
/-!
DEFINITION. Boot (R295 to R297, R406, R437, R489, R513 to R516): patch verification, the end of training of memories and links, the
ready declaration; and the end of power transitions (R454 to R458).
-/

namespace Sys2Proof.Machine

variable {s : State}

/-! ### Patch verification (R406) -/

/-- The bank a core type boots: the valid image with the higher SVN, A for equal ones; none where neither is valid. -/
def State.bootBank (s : State) (k : Nat) : Option Nat :=
  let p := s.patches k
  let ok (b : List Byte) : Bool := s.patchCheck k p.floor b = .OK
  match ok p.a, ok p.b with
  | true, true => some (if imageSvn p.a < imageSvn p.b then 1 else 0)
  | true, false => some 0
  | false, true => some 1
  | false, false => none

/-- A core type boots a bank, or runs its ROM alone; `failed` logs that as UCF, with the status of bank A (log entry 50). -/
def Tx.bootType (t : Tx s) (k : Nat) (bank : Option Nat) (failed : Bool) : Tx s :=
  let b := match bank with
    | some i => (t.now.patches k).bank i
    | none => []
  let t := t.modPatches k fun p => { p with booted := bank.getD 0xFF, running := b, staged := 0xFF }
  let t := t.forEach (typePages k) fun t n =>
    let t := (t.setFld FWC.STAT.VERIFIED (bnat bank.isSome) n).setFld FWC.STAT.PATCHED (bnat bank.isSome) n
    let t := (t.setFld FWC.STAT.BANK (bank.getD 0) n).setFld FWC.STAT.STATE 3 n
    t.setFld FWC.PATCHVER.SVN (if bank.isSome then imageSvn b else 0) n
  t.when failed fun t => t.logError .FWC k { status := t.now.patchCheck k (t.now.patches k).floor (t.now.patches k).a, cls := 3 }

/-- The boot check of the life log (R489): a newest bank not written at an orderly shutdown counts an unclean loss. -/
def Tx.bootLife (t : Tx s) : Tx s :=
  let l := t.now.life
  match l.newest with
  | some k => if (l.bank k).reason = 1 then t else (t.lifeCount 4).lifeNote
  | none => t

/-- Training starts on every controller and on every enabled link (R295, R347). -/
def Tx.startTraining (t : Tx s) : Tx s :=
  let t := t.forEach (List.range 28) fun t m => t.setFld MEMC.STAT.STATE 1 m
  let ls := (List.range 24).filter fun l => t.flag LINK.CTL.EN l
  let t := t.forEach ls fun t l => t.setFld LINK.STAT.STATE linkTRAINING l
  t.modFw fun f => { f with links := ls.foldl (fun m l => m + 2 ^ l) 0 }

/-- PATCH_VERIFY (R406, R507, R513): stages 0x20 and 0x30 end. In a recovery boot no patch is loaded and nothing trains. -/
def Tx.patchVerify (t : Tx s) : Tx s :=
  let stage := t.fld RESET.BOOT.STAGE
  if (stage ≠ 0x20 && stage ≠ 0x30) || t.now.fatal || t.now.tripped then t
  else
    let banks := (List.range 4).map fun k => if t.now.recovery then none else t.now.bootBank k
    let t := t.forEach banks.zipIdx fun t b => t.bootType b.2 b.1 (b.1.isNone && !t.now.recovery)
    let t := (t.setFld FWC.STAT.ALLOK (bnat (banks.all (·.isSome)))).bootLife.setFld RESET.BOOT.STAGE 0x40
    if t.now.recovery then t
    else
      let v := t.now.fw.vendor
      let t := if v.signed then t.forEach v.primes fun t e => t.vendorPrime e else t.logStatus .FWC 2 .BAD_SIGNATURE
      t.startTraining

@[inherit_doc Tx.patchVerify] def execPatchVerify (s : State) : Host.Outcome State Fault Refusal := done ((begin s).patchVerify)

/-! ### Training -/

/-- Is a link's boot attempt still running? -/
def State.linksPending (s : State) : Bool := (List.range 24).any fun l => bit s.fw.links l && s.linkState l = linkTRAINING

/-- Have the controllers all reached READY or FAILED? -/
def State.memoryTrained (s : State) : Bool := (List.range 28).all fun m => s.fld MEMC.STAT.STATE m = 2 || s.fld MEMC.STAT.STATE m = 5

/-- Boot's stage after training has gone on (R513, R515): 0x50 once memory is trained, 0x60 once the links are too; with every stack
FAILED boot has failed, with a CAUSE the spec does not number. -/
def Tx.bootStage (t : Tx s) : Tx s :=
  let stage := t.fld RESET.BOOT.STAGE
  if (stage ≠ 0x40 && stage ≠ 0x50) || t.now.recovery || !t.now.memoryTrained then t
  else if (List.range 12).all fun m => t.fld MEMC.STAT.STATE m = 5 then
    let cause := Config.draw t.now.fresh % 256
    (t.freshen.setFld RESET.BOOT.STAGE 0xFE).fatal cause
  else t.setFld RESET.BOOT.STAGE (if t.now.linksPending then 0x50 else 0x60)

/-- A stack fails (R297): the near range of its half is OFFLINE. -/
def Tx.stackFails (t : Tx s) (m : Nat) : Tx s :=
  let b := m / 6
  let off := t.fld MEMSYS.HALFCTL.OFFLINE
  ((t.setFld MEMC.STAT.STATE 5 m).modMemctl m fun q => { q with failed := true }).setFld MEMSYS.HALFCTL.OFFLINE (if bit off b then off else off + 2 ^ b)

/-- The far tier as trained (R280, R297): the halves whose groups are all READY, and F, sixteen times the smallest capacity that any
package has. -/
def Tx.showFar (t : Tx s) : Tx s :=
  let ok (h : Nat) : Bool := (List.range 8).all fun k => t.fld MEMC.STAT.STATE (12 + 8 * h + k) = 2
  let caps := (List.range 16).map fun k => t.fld MEMC.INFO.CAP (12 + k)
  let t := t.setFld MEMSYS.FARCFG.HALFOK (bnat (ok 0) + 2 * bnat (ok 1))
  t.setFld MEMSYS.FARCFG.SIZE (16 * caps.foldl min 64)

/-- MEM_TRAINING_DONE (R295 to R297): training of a controller ends READY (0), READY at the derated rate (1) or FAILED (2); `cap` is the
capacity in GiB read from a far group's package. The status logged for a derated unit is free. -/
def Tx.trained (t : Tx s) (m outcome cap : Nat) : Tx s :=
  if t.fld MEMC.STAT.STATE m ≠ 1 then t
  else
    let t := t.modMemctl m fun q => { q with trainTemp := none, failed := false }
    let rates := if m < 12 then (100, 80) else (96, 85)
    let unit := if m < 12 then m else m + 4
    let t := (t.setFld MEMC.INFO.CAP (if m < 12 then 48 else cap) m).setFld MEMC.RPR.HARD (min 255 (mapGet 0 t.now.fw.repairs unit)) m
    let t := t.setFld MEMC.INFO.RATE (if outcome = 0 then rates.1 else rates.2) m
    let t :=
      if outcome = 0 then t.setFld MEMC.STAT.STATE 2 m
      else if outcome = 1 then
        let st := statusOfCode (Config.draw t.now.fresh % 256)
        ((t.freshen.setFld MEMC.STAT.STATE 2 m).setFld MEMC.STAT.DERATED 1 m).logStatus .MEMC m st
      else if m < 12 then t.stackFails m
      else (t.setFld MEMC.STAT.STATE 5 m).modMemctl m fun q => { q with failed := true }
    (t.when t.now.memoryTrained fun t => t.showFar).bootStage

@[inherit_doc Tx.trained] def execMemTrainingDone (m : Fin 28) (outcome : Fin 3) (cap : BitVec 8) (s : State) :
    Host.Outcome State Fault Refusal :=
  done ((begin s).when (!s.tripped && !s.fatal) fun t => t.trained m outcome cap.toNat)

/-- LINK_TRAINED (R347): width 0 none, 1 two lanes, 2 four lanes; the partner's device ID and READY. -/
def execLinkTrained (l : Fin 24) (width : Fin 3) (partner : BitVec 16) (pready : Bool) (s : State) :
    Host.Outcome State Fault Refusal :=
  done ((begin s).linkTrained l width partner.toNat pready).bootStage

/-! ### The ready declaration (R514, R516) -/

/-- May the module declare itself ready? -/
def State.mayReady (s : State) : Bool :=
  let stage := s.fld RESET.BOOT.STAGE
  !s.ready && !s.tripped && !s.fatal &&
  (if s.recovery then stage = 0x40 else stage = 0x60 || (stage = 0x50 && !s.linksPending))

/-- A fatal record kept on VAON goes into the life log with the boot write (R484, R489). -/
def Tx.bootWrite (t : Tx s) : Tx s :=
  let t := match t.now.life.fatal with
    | some r => ((t.modLife fun l => { l with fatal := none }).lifeEvent r).setFld RESET.CAUSE.FATALREC 1
    | none => t
  t.lifeWrite 2

/-- READY_DECLARE (R514): in one step the module leaves the first-light window. Vendor sets go live, Gloaming takes its tables from the
PMC's patch, the device ID of a valid boot configuration is applied, the doorbell latches are served. -/
def Tx.declareReady (t : Tx s) : Tx s :=
  let v := t.now.fw.vendor
  let b := t.now.fw.boot
  let t := t.when (!t.now.recovery && v.signed) fun t => t.forEach v.psets fun t e => t.vendorPset e
  let t := t.when (t.flag FWC.STAT.PATCHED 1) fun t => t.loadTables vendorTables
  let t := (t.setFld RESET.BOOT.READY 1).setFld RESET.BOOT.STAGE 0xF0
  let t := t.when (b.valid && b.signed) fun t => (t.setFld ROUTER.CTL.DEVID b.dev).setFld ROUTER.CTL.READY 1
  t.serveLatches.bootWrite

@[inherit_doc Tx.declareReady] def execReadyDeclare (s : State) : Host.Outcome State Fault Refusal :=
  done ((begin s).when s.mayReady fun t => t.declareReady)

/-! ### Power transitions (R454 to R458) -/

/-- A cluster has woken from DOZE (R455): ACTIVE; a follower acquires again when that ends the module's DOZE (R457). -/
def Tx.wokeCluster (t : Tx s) (cl : Nat) : Tx s :=
  let p := t.now.power
  if !bit p.waking cl then t
  else
    let t := t.putPower { p with waking := p.waking - 2 ^ cl }
    if t.now.clusterPower cl ≠ 2 then t
    else
      let dozed := t.fld PWR.STATE.MODULE = 2
      let t := t.setClusterPower cl 0
      t.when dozed fun t => t.reacquire

/-- SLUMBER's exit ends (R457, R536): the latched doorbells are served; a regulator write that keeps failing leaves the module in
SLUMBER, with UCF in the PWR page. -/
def Tx.slumberExit (t : Tx s) (fails : Bool) : Tx s :=
  if fails then (t.putPower { t.now.power with leaving := false }).logError .PWR 0 { status := .NOT_READY, cls := 3 }
  else t.leaveSlumber.serveLatches

/-- POWER_TRANSITION_DONE (R454, R458): a cluster has woken, or the module's transition ends: SLUMBER's exit, else that of PWR.REQ. -/
def execPowerTransitionDone (cl : Option (Fin 8)) (fails : Bool) (s : State) : Host.Outcome State Fault Refusal :=
  done ((begin s).when (!s.tripped && !s.fatal) fun t =>
    match cl with
    | some k => t.wokeCluster k
    | none => if s.slumber then t.when s.power.leaving fun t => t.slumberExit fails else t.finishTrans)

end Sys2Proof.Machine
end

