-- ==== Sys2Proof/Machine/Cores.lean ====
section
/-!
DEFINITION. Channels between firmware cores and their watchdogs (R417 to R420). Cores are numbered as their pages (R503): 0 SEC, 1
PMC, 2 SCH, 3 to 10 CCC0 to CCC7.
-/

namespace Sys2Proof.Machine

variable {s : State}

/-- The rank of a core (R403). -/
def coreRank (k : Nat) : Nat := 3 - min k 3

/-- Do the cores run (R464, R484)? -/
def State.coresRun (s : State) : Bool := !s.tripped && !s.fatal

/-- An idle core takes the oldest request of its inbox (R418). -/
def Tx.coreTake (t : Tx s) (k : Nat) : Tx s :=
  let c := t.now.coresAt k
  match c.handling, c.requests with
  | none, r :: rs => t.putCores k { c with handling := some r, requests := rs }
  | _, _ => t

/-- A send that breaks the rank rules (R418): refused, reported and counted. -/
def Tx.deadlock (t : Tx s) (k : Nat) : Tx s :=
  (t.bump FWC.CHCNT.DLKREF 1 k).emit (.reply (.core k) Status.DEADLOCK.code [])

/-- CORE_REQUEST (R417, R418): a request into the target's inbox. While handling, a core sends only to a higher rank. The sender
waits for a free slot in the inbox and one of its own reply slots. -/
def execCoreRequest (sender target : Fin 11) (seq : Word) (s : State) : Host.Outcome State Fault Refusal :=
  let a := s.coresAt sender
  done ((begin s).when s.coresRun fun t =>
    if a.handling.isSome && coreRank target ≤ coreRank sender then t.deadlock sender
    else if 16 ≤ (s.coresAt target).requests.length || 16 ≤ a.waiting.length then t
    else
      let t := t.modCores sender fun c => { c with waiting := c.waiting ++ [(target.val, seq.toNat)] }
      (t.modCores target fun c => { c with requests := c.requests ++ [(sender.val, seq.toNat)] }).coreTake target)

/-- A reply reaches the slot its requester keeps for it, or is discarded and counted where the request has timed out (R420). -/
def Tx.coreAnswer (t : Tx s) (k : Nat) (r : Nat × Nat) (st : Status) : Tx s :=
  let c := t.now.coresAt r.1
  if c.waiting.contains (k, r.2) then
    (t.putCores r.1 { c with waiting := c.waiting.erase (k, r.2) }).emit (.reply (.core r.1) st.code (natLe 4 r.2))
  else t.bump FWC.CHCNT.LATE 1 r.1

/-- CORE_REPLY (R417, R420): a core ends the request it handles, and takes the next. -/
def execCoreReply (core : Fin 11) (st : Status) (s : State) : Host.Outcome State Fault Refusal :=
  done ((begin s).when s.coresRun fun t =>
    match (s.coresAt core).handling with
    | none => t
    | some r => ((t.modCores core fun c => { c with handling := none }).coreAnswer core r st).coreTake core)

/-- The cores that a control message names: bits 0 to 7 CCC0 to CCC7, 8 SCH, 9 PMC (R419). -/
def controlTargets (mask : Nat) : List (Nat × Nat) :=
  ((List.range 10).filter (bit mask)).map fun b => (b, if b < 8 then 3 + b else if b = 8 then 2 else 1)

/-- CORE_CONTROL (R418, R419): posted to cores of strictly lower rank, it completes when each has acknowledged: OK, or the status
of the failing target with the lowest bit number. `acks` are the acknowledgements by bit number. -/
def execCoreControl (sender : Fin 11) (mask : BitVec 16) (acks : List Status) (s : State) : Host.Outcome State Fault Refusal :=
  let ts := controlTargets mask.toNat
  done ((begin s).when s.coresRun fun t =>
    if ts.any fun x => coreRank sender ≤ coreRank x.2 then t.deadlock sender
    else
      let bad := (ts.map fun x => acks.getD x.1 .OK).find? (· ≠ .OK)
      t.emit (.reply (.core sender) (bad.getD .OK).code []))

/-- CORE_REQUEST_TIMEOUT (R420): a core's `n`-th outstanding request completes with TIMEOUT. -/
def execCoreRequestTimeout (core : Fin 11) (n : Nat) (s : State) : Host.Outcome State Fault Refusal :=
  let c := s.coresAt core
  done ((begin s).when s.coresRun fun t =>
    match c.waiting[n]? with
    | none => t
    | some r => (t.putCores core { c with waiting := c.waiting.eraseIdx n }).emit (.reply (.core core) Status.TIMEOUT.code (natLe 4 r.2)))

/-- The pending requests of every mailbox are answered ABORTED (R420). -/
def Tx.abortMailboxes (t : Tx s) : Tx s :=
  t.forEach ((t.now.mboxes.filter (·.2.request ≠ [])).map (·.1)) fun t k => t.mboxReply k (t.now.mboxesAt k).request .ABORTED []

/-- CORE_WATCHDOG (R420): UCF in the core's page, ABORTED to the request it handles, a restart from ROM and patch. A CCC's restart
aborts the records of its cluster, the SCH's the mailbox requests; a restart of SEC or PMC is fatal (R484). -/
def Tx.coreWatchdog (t : Tx s) (k : Nat) : Tx s :=
  let t := ((t.logError .FWC k { status := .ABORTED, cls := 3 }).bump FWC.WDT.COUNT 1 k).lifeCount 127
  let t := match (t.now.coresAt k).handling with
    | none => t
    | some r => (t.modCores k fun c => { c with handling := none }).coreAnswer k r .ABORTED
  let t := t.coreTake k
  if k = 0 then t.fatal 1
  else if k = 1 then t.fatal 2
  else if k = 2 then t.abortMailboxes
  else t.forEach (t.now.recordsOn (k - 3)) fun t r => t.abortRecordOn r (k - 3)

@[inherit_doc Tx.coreWatchdog] def execCoreWatchdog (core : Fin 11) (s : State) : Host.Outcome State Fault Refusal :=
  done ((begin s).when s.coresRun fun t => t.coreWatchdog core)

end Sys2Proof.Machine
end

