-- ==== Sys2Proof/Machine/Streams.lean ====
section
/-!
DEFINITION. Stream programs (ch. 11): SPROG (R262, R277), the geometry of an entry (R263 to R268), buffers and counters
(R269), reductions and block lists (R270, R271), lanes (R274).
-/

namespace Sys2Proof.Machine

variable {s : State}

/-! ### Reading a program (R262) -/

/-- A little-endian field of a byte list. -/
def leBytes (bs : List Byte) (off n : Nat) : Nat := leNat ((bs.drop off).take n)

/-- An iteration dimension (R262). -/
def dimOf (x : Nat) : Dim :=
  { rank := bits x 42 40, m := signed (bits x 39 34) 6, axis := bits x 33 32, t := bits x 31 16, e := bits x 15 0 }

/-- An entry's 128 bytes, as far as they say it; its block list and tile count come after. -/
def entryOf (bs : List Byte) : StreamEntry :=
  let fmt := leBytes bs 1 1
  let dst := leBytes bs 2 1
  { kind := leBytes bs 0 1, esize := 2 ^ bits fmt 2 0, hilbert := bit fmt 3, queue := bits dst 2 0, toq := bit dst 3,
    nbuf := bits dst 5 4 + 1, fullctr := bits (leBytes bs 3 1) 3 0, freectr := bits (leBytes bs 3 1) 7 4,
    land := bits (leBytes bs 4 4) 24 0, base := leBytes bs 8 8, lim := (List.range 4).map fun a => leBytes bs (0x10 + 2 * a) 2,
    off := (List.range 4).map fun a => signed (leBytes bs (0x18 + 2 * a) 2) 16,
    astr := 0 :: (List.range 3).map fun a => leBytes bs (0x20 + 4 * a) 4, bufpitch := leBytes bs 0x2C 4,
    dims := (List.range (bits fmt 6 4)).map fun k => dimOf (leBytes bs (0x30 + 8 * k) 8),
    lane := bits (leBytes bs 0x60 1) 2 0, lanerel := bit (leBytes bs 0x60 1) 3 }

/-- Are the reserved bits of an entry zero? -/
def entryReserved (bs : List Byte) : Bool :=
  bits (leBytes bs 1 1) 7 7 = 0 && bits (leBytes bs 1 1) 2 2 = 0 && bits (leBytes bs 2 1) 7 6 = 0 && bits (leBytes bs 4 4) 31 25 = 0 &&
  bits (leBytes bs 0x60 1) 7 4 = 0 && leBytes bs 0x61 31 = 0 &&
  (List.range 6).all fun k => bits (leBytes bs (0x30 + 8 * k) 8) 63 43 = 0

/-- Kinds of an entry (R262). -/
def StreamEntry.isLoad (e : StreamEntry) : Bool := e.kind = 1 || e.kind = 4 || e.kind = 5
@[inherit_doc StreamEntry.isLoad] def StreamEntry.isBlocks (e : StreamEntry) : Bool := e.kind = 5 || e.kind = 6
@[inherit_doc StreamEntry.isLoad] def StreamEntry.isRed (e : StreamEntry) : Bool := e.kind = 3 || e.kind = 4

/-! ### Geometry (R263 to R268) -/

/-- Tiles along a dimension. -/
def Dim.count (d : Dim) : Nat := ceilDiv d.e d.t

/-- Points of a whole tile. -/
def StreamEntry.tilePoints (e : StreamEntry) : Nat := prod (e.dims.map (·.t))

/-- hilbert(d, k) of R266. -/
def hilbertAux : Nat → Nat → Nat → Nat → Nat → Nat × Nat
  | 0, _, _, x, y => (x, y)
  | f + 1, t, sz, x, y =>
    let rx := t / 2 % 2
    let ry := (t ^^^ rx) % 2
    let p := if ry = 0 then (if rx = 1 then (sz - 1 - y, sz - 1 - x) else (y, x)) else (x, y)
    hilbertAux f (t / 4) (2 * sz) (p.1 + sz * rx) (p.2 + sz * ry)

@[inherit_doc hilbertAux] def hilbert (d k : Nat) : Nat × Nat := hilbertAux k d 1 0 0

/-- The positions of the curve that lie in an nu by nv grid, in order (R266). -/
def hilbertVisits (nu nv : Nat) : List (Nat × Nat) :=
  let k := clog2 (max nu nv)
  ((List.range (4 ^ k)).map (hilbert · k)).filter fun p => p.1 < nu && p.2 < nv

/-- Dimension numbers by ascending rank. -/
def StreamEntry.byRank (e : StreamEntry) : List Nat :=
  (List.range 8).flatMap fun r => (e.dims.zipIdx.filter fun d => d.1.rank = r).map (·.2)

/-- Split a number into digits of the given radices, the first varying fastest. -/
def mixed : List Nat → Nat → List Nat
  | [], _ => []
  | r :: rs, k => k % r :: mixed rs (k / r)

/-- Tile `k`'s coordinate along every dimension, in dimension order (R266). -/
def StreamEntry.tileAt (e : StreamEntry) (k : Nat) : List Nat :=
  let order := e.byRank
  let cnt (d : Nat) : Nat := (e.dims.getD d {}).count
  let pick (vals : List (Nat × Nat)) : List Nat :=
    (List.range e.dims.length).map fun d => ((vals.find? (·.1 = d)).map (·.2)).getD 0
  if e.hilbert && 2 ≤ order.length then
    let low := order.take (order.length - 2)
    let v := order.getD (order.length - 2) 0
    let u := order.getD (order.length - 1) 0
    let inner := prod (low.map cnt)
    let p := (hilbertVisits (cnt u) (cnt v)).getD (k / inner) (0, 0)
    pick (low.zip (mixed (low.map cnt) (k % inner)) ++ [(u, p.1), (v, p.2)])
  else pick (order.zip (mixed (order.map cnt) k))

/-- One line of a tile: offset in its buffer, address of its first element relative to BASE, and which of its elements are
inbound and no excess (R264, R267). -/
structure SLine where
  off : Nat
  addr : Int
  ok : List Bool
  deriving DecidableEq, Repr

/-- Axis coordinates of an iteration point. -/
def StreamEntry.coord (e : StreamEntry) (cs : List Nat) (a : Nat) : Int :=
  e.off.getD a 0 + ((e.dims.zip cs).map fun dc => if dc.1.axis = a then dc.1.m * (dc.2 : Int) else 0).sum

/-- Line `j` of row `m` of the tile at `t` (R263): row `m` numbers the points of the dimensions above DIM0. -/
def StreamEntry.line (e : StreamEntry) (t : List Nat) (m j : Nat) : SLine :=
  let ep := 64 / e.esize
  let t0 := (e.dims.getD 0 {}).t
  let up := ((e.dims.drop 1).zip ((t.drop 1).zip (mixed ((e.dims.drop 1).map (·.t)) m))).map fun d =>
    d.2.1 * d.1.t + d.2.2
  let at_ (q : Nat) : List Nat := (t.getD 0 0 * t0 + j * ep + q) :: up
  let addr (cs : List Nat) : Int :=
    e.coord cs 0 * e.esize + ((List.range 3).map fun a => e.coord cs (a + 1) * (e.astr.getD (a + 1) 0 * 64 : Nat)).sum
  { off := (j * ep + t0 * m) * e.esize
    addr := addr (at_ 0)
    ok := (List.range ep).map fun q =>
      ((List.range 4).all fun a => 0 ≤ e.coord (at_ q) a && e.coord (at_ q) a < (e.lim.getD a 0 : Int)) &&
      ((e.dims.zip (at_ q)).all fun dc => dc.2 < dc.1.e) }

/-- The lines of tile `k` in delivery order; only DIM0 yields a short tile (R267). -/
def StreamEntry.tileLines (e : StreamEntry) (k : Nat) : List SLine :=
  let t := e.tileAt k
  let d0 := e.dims.getD 0 {}
  let len0 := min d0.t (d0.e - t.getD 0 0 * d0.t)
  (List.range (prod ((e.dims.drop 1).map (·.t)))).flatMap fun m =>
    (List.range (len0 * e.esize / 64)).map fun j => e.line t m j

/-- Where a tile's buffer starts in the scratchpad (R268). -/
def StreamEntry.buffer (e : StreamEntry) (k : Nat) : Nat := e.land + k % e.nbuf * e.bufpitch * 64

/-! ### Lanes (R274) -/

/-- The record bound to an entry's lane. -/
def Tile.laneRec (x : Tile) (e : StreamEntry) : Option Nat := (x.lanes.find? (·.1 = e.lane)).map (·.2)

/-- Does the entry stand for a void lane? -/
def Tile.void (x : Tile) (e : StreamEntry) : Bool := e.lanerel && !e.isRed && (x.laneRec e).isNone

/-- The lane pointer an entry adds (R274). -/
def State.lanePtr (s : State) (x : Tile) (e : StreamEntry) : Nat :=
  if e.lanerel && !e.isRed then
    match x.laneRec e with
    | some r => if e.isLoad then (s.recordsAt r).inPtr else (s.recordsAt r).outPtr
    | none => 0
  else 0

/-! ### SPROG (R262, R277) -/

/-- The checks of an affine entry (kinds 1 to 4): R263 to R268, R277. -/
def State.affineLegal (s : State) (i : Nat) (e : StreamEntry) : Bool :=
  let d0 := e.dims.getD 0 {}
  let bytes := e.tilePoints * e.esize
  1 ≤ e.dims.length && e.dims.length ≤ 6 &&
  (e.dims.all fun d => 1 ≤ d.t && d.t ≤ d.e && d.m ≠ 0) &&
  ((e.dims.map (·.rank)).eraseDups.length = e.dims.length) &&
  d0.axis = 0 && d0.m = 1 && d0.e * e.esize % 64 = 0 && d0.t * e.esize % 64 = 0 &&
  (e.toq || (bytes ≤ e.bufpitch * 64 && e.land + e.nbuf * e.bufpitch * 64 ≤ s.spadEnd i)) &&
  (if e.isRed then bits e.base 63 60 = 0 && bits e.base 43 43 = 0 && bits e.base 31 10 = 0
   else bits e.base 63 60 = 0 && ((s.tilesAt i).void e || (e.base + s.lanePtr (s.tilesAt i) e) / 2 ^ 44 = s.devId)) &&
  (e.kind ≠ 2 || (e.off.getD 0 0 = 0 && e.lim.getD 0 0 * e.esize % 64 = 0))

/-- Does the block list of a kind 5 or 6 entry lie on a poisoned row? -/
def State.blockListPoison (s : State) (i : Nat) (e : StreamEntry) : Bool :=
  let off := bits e.base 24 0
  let n := 16 * bits e.base 47 32
  e.isBlocks && off + n ≤ s.spadEnd i && s.poisoned (spadBase i + off) n

/-- The block list of a kind 5 or 6 entry (R271): none where it is past the scratchpad's end or an entry is illegal. -/
def State.blockList (s : State) (i : Nat) (e : StreamEntry) : Option (List (Nat × Nat)) :=
  let off := bits e.base 24 0
  let n := bits e.base 47 32
  if bits e.base 63 48 ≠ 0 || bits e.base 31 25 ≠ 0 || s.spadEnd i < off + 16 * n then none
  else
    let l := (List.range n).map fun k => leNat (s.read (spadBase i + off + 16 * k) 16)
    if l.all fun x => bits x 127 88 = 0 && bits x 63 60 = 0 && bits x 87 64 ≠ 0 && bits x 59 0 % 64 = 0 then
      some (l.map fun x => (bits x 87 64, bits x 59 0))
    else none

/-- Check one entry and complete it: its queue, lane and kind, then its geometry or its block list (R277). -/
def State.entryAt (s : State) (i w : Nat) (bs : List Byte) : Option StreamEntry :=
  let e := entryOf bs
  let x := s.tilesAt i
  let queueOk := !e.toq || (if e.isLoad then (x.inq.getD e.queue {}).opened
    else (x.outq.getD e.queue {}).opened && !(x.chans.any fun c => c.bound && c.sq = e.queue))
  if !entryReserved bs || e.kind = 0 || 6 < e.kind || e.land % 64 ≠ 0 || w ≤ e.lane || !queueOk then none
  else if e.isBlocks then
    if e.dims ≠ [] || leBytes bs 0x10 28 ≠ 0 || leBytes bs 0x30 48 ≠ 0 then none
    else
      match s.blockList i e with
      | some l =>
        if e.toq || e.land + 64 * (l.map (·.1)).sum ≤ s.spadEnd i then some { e with blocks := l, total := l.length }
        else none
      | none => none
  else if s.affineLegal i e then some { e with total := prod (e.dims.map (·.count)) }
  else none

/-- Bytes of an entry's whole iteration space. -/
def StreamEntry.spaceBytes (e : StreamEntry) : Nat := prod (e.dims.map (·.e)) * e.esize

/-- A CONTRIB to an open reduction of this module must cover its LEN lines (R270). -/
def State.contribFits (s : State) (e : StreamEntry) : Bool :=
  let r := (s.clustersAt (bits e.base 42 40)).reduction (bits e.base 39 32)
  e.kind ≠ 3 || bits e.base 59 44 ≠ s.devId || !r.isOpen || e.spaceBytes = 64 * r.len

/-- STRMSTAT shows the running program (R278). -/
def Tx.showStreams (t : Tx s) (i : Nat) : Tx s :=
  let es := ((t.tilesAt i).prog.map (·.entries)).getD []
  let mask (f : StreamEntry → Bool) : Nat := (es.zipIdx.map fun e => bnat (f e.1) * 2 ^ e.2).sum
  ((t.setFld TILE.STRMSTAT.ACTIVE (bnat (t.tilesAt i).prog.isSome) i).setFld TILE.STRMSTAT.RUN (mask (!·.ended)) i).setFld
    TILE.STRMSTAT.WAITING (mask (·.waiting)) i

/-- Does a store of the tile's program still await its acceptance? -/
def State.storesOut (s : State) (i : Nat) : Bool :=
  s.peers.any fun kv => kv.2.accepts ≠ 0 && (match kv.2.origin with | .store j => i = j | _ => false)

/-- The program ends when every entry has ended and its stores are accepted; SPROG's SIGNAL fires (R263). -/
def Tx.endProgram (t : Tx s) (i : Nat) : Tx s :=
  match (t.tilesAt i).prog with
  | some p =>
    if p.entries.all (·.ended) && !t.now.storesOut i then
      ((t.modTiles i fun x => { x with prog := none, progress := true }).signal i p.sig).showStreams i
    else t.showStreams i
  | none => t

/-- SPROG: copy, check and start (R262). -/
def sprogPlan (i : Nat) (w : NInstr) (t : Tx s) : AccessPlan s :=
  let off := bits w.a 24 0
  let x := t.tilesAt i
  let rd (a n : Nat) : List Byte := t.now.read (spadBase i + off + a) n
  let h := rd 0 64
  let n := leBytes h 0 1
  let width := (t.now.graphsAt (t.now.recordsAt (x.rec?.getD 0)).graph).width
  let es := (List.range n).map fun k => t.now.entryAt i width (rd (64 + 128 * k) 128)
  if bits w.a 50 25 ≠ 0 || w.opd.toNat ≠ 0 || t.now.spadEnd i < off + 64 then .refuse .RANGE
  else if x.prog.isSome then .wait
  else if t.now.poisoned (spadBase i + off) 64 then .refuse .POISON
  else if n = 0 || 8 < n || leBytes h 1 1 > 1 || leBytes h 2 2 ≠ 0 || leBytes h 8 56 ≠ 0 || t.now.spadEnd i < off + 64 + 128 * n then
    .refuse .RANGE
  else if t.now.poisoned (spadBase i + off) (64 + 128 * n) ||
      (List.range n).any fun k => t.now.blockListPoison i (entryOf (rd (64 + 128 * k) 128)) then .refuse .POISON
  else if es.all (fun e => e.any t.now.contribFits) then
    let es := (es.filterMap id).map fun e => { e with ended := e.total = 0 }
    .run fun t => (t.modTiles i fun x =>
      { x with prog := some { cache := leBytes h 1 1 = 1, pad := leBytes h 4 4, entries := es, sig := w.sig.toNat } }).endProgram i
  else .refuse .RANGE

/-- SPROG. -/
def execSprog (i : Fin 64) (d : Side) (w : NInstr) (s : State) : Host.Outcome State Fault Refusal :=
  done ((begin s).issueAccess i 0x03 d w (sprogPlan i w))

/-! ### Progress of an entry -/

/-- Change entry `k` of the running program. -/
def Tile.setEntry (x : Tile) (k : Nat) (e : StreamEntry) : Tile :=
  { x with prog := x.prog.map fun p => { p with entries := p.entries.set k e }, progress := true }

/-- R204's test of a counter against a value that may lie below zero. -/
def Tile.ctrReached (x : Tile) (c : Nat) (v : Int) : Bool :=
  ((x.ctrs.getD c 0 : Int) - v) % 0x10000 < 0x8000

/-- May the entry start its next tile (R269)? A load waits for a free buffer, a store for a full one; queues and the
blocks of a BLOAD need no counter. -/
def Tile.mayStart (x : Tile) (e : StreamEntry) : Bool :=
  if e.toq then true
  else if e.isLoad then e.isBlocks || e.next < e.nbuf || x.ctrReached e.freectr (e.next + 1 - e.nbuf)
  else x.ctrReached e.fullctr (e.next + 1)

/-- The entry has finished its next tile or block: counted, its counter increased, and the program ended with it. -/
def Tx.tileDone (t : Tx s) (i k : Nat) (e : StreamEntry) : Tx s :=
  let e := { e with next := e.next + 1, part := 0, waiting := false, unsealed := false, ended := e.total ≤ e.next + 1 }
  ((t.modTiles i fun x => addCtr (x.setEntry k e) (if e.isLoad then e.fullctr else e.freectr) 1).bump
    TILE.STRMTILES.TILES 1 i).endProgram i

/-- The entry stops on a failed line, and the tile with it (R277, R32). -/
def Tx.entryFails (t : Tx s) (i : Nat) (st : Status) (addr : Nat) : Tx s :=
  t.stopTile i { status := st, cls := st.cls, src := unitAccess, addr := t.now.globalLine addr }

/-- The PAD of one element (R262). -/
def StreamEntry.padElem (e : StreamEntry) (pad : Nat) : List Byte := (natLe 4 pad ++ natLe 4 pad).take e.esize

/-- The bytes of one line of a load: elements that count from memory, the others PAD (R264). `src` gives the `n` lines at
a line number. -/
def Tx.loadLine (t : Tx s) (e : StreamEntry) (pad base : Nat) (src : Tx s → Nat → Nat → Tx s × Gather) (l : SLine) :
    Tx s × Gather :=
  let padB := e.padElem pad
  let a (q : Nat) : Nat := ((base : Int) + l.addr + (q * e.esize : Nat)).toNat
  match (l.ok.zipIdx.filter (·.1)).map (·.2) with
  | [] => (t, .data (l.ok.flatMap fun _ => padB))
  | q0 :: qs =>
    let lo := a q0 / 64
    let hi := (a ((q0 :: qs).getLastD q0) + e.esize - 1) / 64
    match src t lo (hi + 1 - lo) with
    | (t, .data bs) =>
      (t, .data (l.ok.zipIdx.flatMap fun v =>
        if v.1 then (bs.drop (a v.2 - 64 * lo)).take e.esize else padB))
    | r => r

/-- The bytes of a load's lines, in order. -/
def Tx.loadLines (t : Tx s) (e : StreamEntry) (pad base : Nat) (src : Tx s → Nat → Nat → Tx s × Gather) :
    List SLine → Tx s × Gather
  | [] => (t, .data [])
  | l :: ls =>
    match t.loadLine e pad base src l with
    | (t, .data bs) =>
      match t.loadLines e pad base src ls with
      | (t, .data rest) => (t, .data (bs ++ rest))
      | r => r
    | r => r

/-- Words of the entry's tile or block enter its inbound queue as far as it has room (R201, R202); with the last of them the tile or
block is done. -/
def Tx.feedEntry (t : Tx s) (i k : Nat) (e : StreamEntry) (ws : List Nat) : Tx s :=
  let n := (t.tilesAt i).room e.queue
  let t := t.modTiles i fun x => x.feed e.queue ((ws.take n).map fun w => { w := w })
  if ws.length ≤ n then t.tileDone i k { e with held := [] }
  else if n = 0 && e.held ≠ [] then t
  else t.modTiles i (·.setEntry k { e with held := ws.drop n, waiting := false })

/-- Land a tile's bytes: in its buffer, each line at its offset, or on the inbound queue (R268). -/
def Tx.landTile (t : Tx s) (i k : Nat) (e : StreamEntry) (ls : List SLine) (bs : List Byte) : Tx s :=
  if e.toq then t.feedEntry i k e (bytesWords bs)
  else (t.forEach ls.zipIdx fun t l =>
    t.write (spadBase i + e.buffer e.next + l.1.off) ((bs.drop (64 * l.2)).take 64)).tileDone i k e

/-- An entry of the tile's program that has not ended, of the kinds given, on a running tile; on one that is being preempted a block
store that has begun its block goes on to the block's boundary (R276). -/
def State.entry (s : State) (i k : Nat) (kinds : List Nat) : Option (StreamProg × StreamEntry) :=
  match (s.tilesAt i).prog with
  | some p =>
    match p.entries[k]? with
    | some e =>
      let goes := if (s.tilesAt i).preempting then s.runState i = runSaving && e.kind = 6 && e.part ≠ 0 else s.runState i = runRunning
      if goes && kinds.contains e.kind && !e.ended then some (p, e) else none
    | none => none
  | none => none

/-- Start the entry's next tile, or show it waiting on its counter; `body` runs where it may start, and no word of a tile before it
still waits for room in the queue. -/
def Tx.startTile (t : Tx s) (i k : Nat) (e : StreamEntry) (body : Tx s → Tx s) : Tx s :=
  let x := t.tilesAt i
  if !x.mayStart e then (t.putTiles i { (x.setEntry k { e with waiting := true }) with progress := x.progress }).showStreams i
  else if e.held ≠ [] then t.feedEntry i k e e.held
  else body t

/-- One load tile from a source of lines (R264, R268, R269). An RREAD that waits for a seal underruns (R256), once; of a buffer on
another module the tile sees no seal, only an answer that has not come, and counts nothing: DESIGN CHOICE, log entry 68. -/
def Tx.loadTile (t : Tx s) (i k : Nat) (p : StreamProg) (e : StreamEntry) (base : Nat)
    (src : Tx s → Nat → Nat → Tx s × Gather) : Tx s :=
  t.startTile i k e fun t =>
    let ls := e.tileLines e.next
    let ls := if (t.tilesAt i).void e then ls.map fun l => { l with ok := l.ok.map fun _ => false } else ls
    match t.loadLines e p.pad base src ls with
    | (t, .data bs) =>
      (t.bump TILE.STRMCNT.PADDED (ls.filter fun l => l.ok.any (!·)).length i).landTile i k e ls bs
    | (t, .fail st a) => t.entryFails i st a
    | (t, .wait) =>
      if e.kind = 4 && bits e.base 59 44 = t.now.devId && !e.unsealed then
        ((t.bump TILE.STRCNT.UNDERRUN 1 i).perturb i).modTiles i (·.setEntry k { e with unsealed := true })
      else t

/-- STREAM_LOAD_TILE (R264, R269): the next tile of LOAD entry `k`; `ans` answers the lines it reads from the host window,
one after the other. -/
def Tx.streamLoadTile (t : Tx s) (i k : Nat) (ans : HostAnswer) : Tx s :=
  match t.now.entry i k [1] with
  | some (p, e) =>
    let base := e.base + t.now.lanePtr (t.tilesAt i) e
    t.loadTile i k p e base fun t l n => t.gather i p.cache (64 * l) n ans
  | none => t

@[inherit_doc Tx.streamLoadTile] def execStreamLoadTile (i : Fin 64) (k : Fin 8) (ans : HostAnswer) (s : State) :
    Host.Outcome State Fault Refusal :=
  done ((begin s).streamLoadTile i k ans)

/-! ### Reductions (R270) -/

/-- The key under which a tile keeps a line of a remote reduction it has read. -/
def redKey (base line : Nat) : Nat := 2 ^ 60 + ((bits base 59 44 * 8 + bits base 42 40) * 256 + bits base 39 32) * 2 ^ 17 + line

/-- A packet's ADDR for a line of a reduction (R352). -/
def redAddr (base line : Nat) : Nat := (bits base 42 40) <<< 40 + (bits base 39 32) <<< 32 + (line % 2 ^ 17) <<< 14

/-- Lines of a reduction of this module (R256). -/
def State.redLines (s : State) (base line : Nat) : Nat → Gather
  | 0 => .data []
  | n + 1 =>
    match ((s.clustersAt (bits base 42 40)).reduction (bits base 39 32)).readLine line with
    | none => .wait
    | some .poison => .fail .POISON 0
    | some (.refused st) => .fail st 0
    | some (.ok bs) =>
      match s.redLines base (line + 1) n with
      | .data rest => .data (bs ++ rest)
      | r => r

/-- Lines of a reduction elsewhere: those that have come, or a request for each that is missing. -/
def Tx.redFetch (t : Tx s) (i base line n : Nat) : Tx s × Gather :=
  let ks := (List.range n).map fun j => redKey base (line + j)
  let x := t.tilesAt i
  if ks.all fun k => x.fetched.any (·.1 = k) then
    (t.modTiles i fun x => { x with fetched := x.fetched.filter fun l => !ks.contains l.1 },
     .data (ks.flatMap fun k => ((x.fetched.find? (·.1 = k)).map (·.2)).getD []))
  else
    (t.forEach (List.range n) fun t j =>
      let k := redKey base (line + j)
      let x := t.tilesAt i
      if x.asked.contains k || x.fetched.any (·.1 = k) || !t.now.peerRoom i then t
      else (t.modTiles i fun x => { x with asked := x.asked ++ [k] }).request
        { type := ptRRD, dst := bits base 59 44, addr := redAddr base (line + j) } (.fetch i) x.rec? (64 * k) 0, .wait)

/-- STREAM_RREAD (R256, R270): the next tile of RREAD entry `k`. -/
def execStreamRread (i : Fin 64) (k : Fin 8) (s : State) : Host.Outcome State Fault Refusal :=
  let t := begin s
  match t.now.entry i k [4] with
  | some (p, e) =>
    done (t.loadTile i k p e 0 fun t l n =>
      if bits e.base 59 44 = t.now.devId then (t, t.now.redLines e.base l n) else t.redFetch i e.base l n)
  | none => done t

/-! ### Stores (R264, R265, R269, R270) -/

/-- What a store's tile holds: not there yet, a poisoned row, or its lines' bytes; a queue gives up its words. -/
def Tx.storeBytes (t : Tx s) (i : Nat) (e : StreamEntry) (ls : List SLine) : Tx s × Gather :=
  if e.toq then
    let q := (t.tilesAt i).outq.getD e.queue {}
    if q.words.length < 16 * ls.length then (t, .wait)
    else (t.modTiles i fun x => { x with outq := x.outq.set e.queue { q with words := q.words.drop (16 * ls.length) } },
          .data (wordsBytes ((q.words.take (16 * ls.length)).map (·.w))))
  else
    match ls.find? fun l => t.now.poisoned (spadBase i + e.buffer e.next + l.off) 64 with
    | some l => (t, .fail .POISON (spadBase i + e.buffer e.next + l.off))
    | none => (t, .data (ls.flatMap fun l => t.now.read (spadBase i + e.buffer e.next + l.off) 64))

/-- Write bytes of one line of a store to this module or through the host window; a part of a poisoned line fails (R342). -/
def Tx.storePart (t : Tx s) (i a : Nat) (bs : List Byte) : Tx s × Status :=
  if isHostWin a then
    if apertureAllows (t.now.aperture a) (t.now.tileFn i) true then (t.postHost (t.now.tileFn i) a bs, .OK) else (t, .DENIED)
  else
    match t.now.access (.tile i) a with
    | .OK => if bs.length < 64 && t.now.poisoned a bs.length then (t, .POISON) else (t.write a bs, .OK)
    | st => (t.logAccess a st true, st)

/-- Write up to 64 bytes of a store, which lie on one line, or on two where the address is none of a line (log entry 68). -/
def Tx.storeLine (t : Tx s) (i g : Nat) (bs : List Byte) : Tx s × Status :=
  let a := g % 2 ^ 44
  let n := 64 - a % 64
  if bs.length ≤ n then t.storePart i a bs
  else
    match t.storePart i a (bs.take n) with
    | (t, .OK) => t.storePart i ((a + n) % 2 ^ 44) (bs.drop n)
    | r => r

/-- The pieces of a store's line: the whole line, or of one that is only partly inbound its inbound elements (R264, log entry 68). -/
def StreamEntry.pieces (e : StreamEntry) (base : Nat) (l : SLine × List Byte) : List (Nat × List Byte) :=
  let g := (base : Int) + l.1.addr
  if l.1.ok.all id then [(g.toNat, l.2)]
  else (l.1.ok.zipIdx.filter (·.1)).map fun q => ((g + (q.2 * e.esize : Nat)).toNat, (l.2.drop (q.2 * e.esize)).take e.esize)

/-- Store pieces in order until one is refused. -/
def Tx.storePieces (t : Tx s) (i : Nat) : List (Nat × List Byte) → Tx s × Option (Status × Nat)
  | [] => (t, none)
  | p :: ps =>
    match t.storeLine i p.1 p.2 with
    | (t, .OK) => t.storePieces i ps
    | (t, st) => (t, some (st, p.1 % 2 ^ 44))

/-- Store lines in order until one is refused. -/
def Tx.storeLines (t : Tx s) (i : Nat) (e : StreamEntry) (base : Nat) (ls : List (SLine × List Byte)) :
    Tx s × Option (Status × Nat) := t.storePieces i (ls.flatMap (e.pieces base))

/-- Lines of a store that write nothing (R264). -/
def droppedLines (ls : List SLine) : Nat := (ls.filter fun l => l.ok.all (!·)).length

/-- What a contribution carries of a line: an element that is not inbound adds nothing, in its place 0 (log entry 68). -/
def StreamEntry.contribBytes (e : StreamEntry) (l : SLine × List Byte) : List Byte :=
  if l.1.ok.all id then l.2
  else l.1.ok.zipIdx.flatMap fun q => if q.1 then (l.2.drop (q.2 * e.esize)).take e.esize else List.replicate e.esize 0

/-- STREAM_STORE_TILE (R264, R265, R269): the next tile of STORE entry `k`. -/
def execStreamStoreTile (i : Fin 64) (k : Fin 8) (s : State) : Host.Outcome State Fault Refusal :=
  let t := begin s
  match t.now.entry i k [2] with
  | some (_, e) =>
    done (t.startTile i k e fun t =>
      let ls := e.tileLines e.next
      match t.storeBytes i e ls with
      | (t, .data bs) =>
        if (t.tilesAt i).void e then t.tileDone i k e
        else
          let base := e.base + t.now.lanePtr (t.tilesAt i) e
          match t.storeLines i e base (ls.zip (chunks 64 ls.length bs)) with
          | (t, none) => (t.bump TILE.STRMCNT.DROPPED (droppedLines ls) i).tileDone i k e
          | (t, some (st, a)) => t.entryFails i st a
      | (t, .fail st a) => if (t.tilesAt i).void e then t.tileDone i k e else t.entryFails i st a
      | (t, .wait) => t)
  | none => done t

/-- Contribute lines to a reduction of this module, in order; the first refusal ends it (R256). A line that lies across two lines of
the buffer is none that a slice takes: RANGE (log entry 68). -/
def Tx.contribLines (t : Tx s) (e : StreamEntry) : List (SLine × List Byte) → Tx s × Status
  | [] => (t, .OK)
  | l :: ls =>
    if l.1.ok.any id then
      if l.1.addr % 64 ≠ 0 then (t, .RANGE)
      else
        match t.contribute (bits e.base 42 40) (bits e.base 39 32) (bits e.base 9 0) (l.1.addr.toNat / 64)
            (some (bytesWords (e.contribBytes l))) with
        | (t, .OK) => t.contribLines e ls
        | r => r
    else t.contribLines e ls

/-- A poisoned line of a contribution to a reduction of this module poisons the result's line (R256). -/
def Tx.contribPoison (t : Tx s) (e : StreamEntry) (l : SLine) : Tx s :=
  (t.contribute (bits e.base 42 40) (bits e.base 39 32) (bits e.base 9 0) (l.addr.toNat / 64) none).1

/-- Send lines of a contribution to another module, a packet each, while the tile has room; how many lines went. -/
def Tx.contribSend (t : Tx s) (i : Nat) (e : StreamEntry) : List (SLine × List Byte) → Nat → Tx s × Nat
  | [], n => (t, n)
  | l :: ls, n =>
    if l.1.ok.all (!·) then t.contribSend i e ls (n + 1)
    else if !t.now.peerRoom i then (t, n)
    else
      (t.request { type := ptCONTRIB, len := 1, dst := bits e.base 59 44, addr := redAddr e.base (l.1.addr.toNat / 64),
                   aux := bits e.base 9 0, payload := e.contribBytes l } (.store i) (t.tilesAt i).rec? 0 0).contribSend i e ls (n + 1)

/-- STREAM_CONTRIB (R270): the next tile of CONTRIB entry `k`; a poisoned source poisons its line of the result and stops the tile. -/
def execStreamContrib (i : Fin 64) (k : Fin 8) (s : State) : Host.Outcome State Fault Refusal :=
  let t := begin s
  match t.now.entry i k [3] with
  | some (_, e) =>
    done (t.startTile i k e fun t =>
      let ls := e.tileLines e.next
      let dropped := droppedLines ls
      if bits e.base 59 44 = t.now.devId then
        match t.storeBytes i e ls with
        | (t, .data bs) =>
          match t.contribLines e (ls.zip (chunks 64 ls.length bs)) with
          | (t, .OK) => (t.bump TILE.STRMCNT.DROPPED dropped i).tileDone i k e
          | (t, st) => t.entryFails i st 0
        | (t, .fail st a) =>
          let bad := ls.filter fun l => l.ok.any id && l.addr % 64 = 0 && t.now.poisoned (spadBase i + e.buffer e.next + l.off) 64
          (t.forEach bad fun t l => t.contribPoison e l).entryFails i st a
        | (t, .wait) => t
      else
        let rest := ls.drop e.part
        let room := if t.now.peerRoom i then rest.take (96 - t.now.tileFlight i) else []
        if ls.any fun l => l.ok.any id && l.addr % 64 ≠ 0 then t.entryFails i .RANGE 0
        else
          match t.storeBytes i e room with
          | (t, .data bs) =>
            let r := t.contribSend i e (room.zip (chunks 64 room.length bs)) 0
            if rest.length ≤ r.2 then (r.1.bump TILE.STRMCNT.DROPPED dropped i).tileDone i k e
            else r.1.modTiles i (·.setEntry k { e with part := e.part + r.2, waiting := false })
          | (t, .fail st a) => t.entryFails i st a
          | (t, .wait) => t)
  | none => done t

/-! ### Block lists (R271) -/

/-- Where block `k` of an entry lies in the scratchpad: blocks pack contiguously from LAND. -/
def StreamEntry.blockOff (e : StreamEntry) (k : Nat) : Nat := e.land + 64 * ((e.blocks.take k).map (·.1)).sum

/-- STREAM_BLOAD (R271): the next block of BLOAD entry `k`; `ans` answers what it reads from the host window. -/
def Tx.streamBload (t : Tx s) (i k : Nat) (ans : HostAnswer) : Tx s :=
  match t.now.entry i k [5] with
  | some (p, e) =>
    t.startTile i k e fun t =>
      let b := e.blocks.getD e.next (0, 0)
      let void := (t.tilesAt i).void e
      let padded : List Byte := (List.replicate (64 * b.1 / e.esize) (e.padElem p.pad)).flatten
      let got := if void then (t, Gather.data padded)
        else t.gather i p.cache (b.2 + t.now.lanePtr (t.tilesAt i) e) b.1 ans
      match got with
      | (t, .data bs) =>
        let t := t.when void fun t => t.bump TILE.STRMCNT.PADDED b.1 i
        if e.toq then t.feedEntry i k e (bytesWords bs) else (t.write (spadBase i + e.blockOff e.next) bs).tileDone i k e
      | (t, .fail st a) => t.entryFails i st a
      | (t, .wait) => t
  | none => t

@[inherit_doc Tx.streamBload] def execStreamBload (i : Fin 64) (k : Fin 8) (ans : HostAnswer) (s : State) :
    Host.Outcome State Fault Refusal :=
  done ((begin s).streamBload i k ans)

/-- The next lines of a BSTORE's block: in the buffer, or words of the outbound queue. -/
def Tx.blockBytesOut (t : Tx s) (i : Nat) (e : StreamEntry) (part n : Nat) : Tx s × Gather :=
  if e.toq then
    let q := (t.tilesAt i).outq.getD e.queue {}
    if q.words.length < 16 * n then (t, .wait)
    else (t.modTiles i fun x => { x with outq := x.outq.set e.queue { q with words := q.words.drop (16 * n) } },
          .data (wordsBytes ((q.words.take (16 * n)).map (·.w))))
  else
    let a := spadBase i + e.blockOff e.next + 64 * part
    if t.now.poisoned a (64 * n) then (t, .fail .POISON a) else (t, .data (t.now.read a (64 * n)))

/-- Store a block's lines from `part` on: this module's memory and the host window a line at a time, a peer a packet at a
time while the tile has room. What has gone, or a failure. -/
def Tx.blockOut (t : Tx s) (i : Nat) (e : StreamEntry) (g lines : Nat) : Nat → Nat → Tx s × (Nat ⊕ (Status × Nat))
  | 0, part => (t, .inl part)
  | f + 1, part =>
    if lines ≤ part then (t, .inl part)
    else
      let a := g + 64 * part
      if a / 2 ^ 44 % 2 ^ 16 ≠ t.now.devId then
        let n := packetLines (a % 2 ^ 44) (lines - part)
        if !t.now.peerRoom i then (t, .inl part)
        else
          match t.blockBytesOut i e part n with
          | (t, .data bs) =>
            (t.request { type := ptWR, len := n, dst := a / 2 ^ 44 % 2 ^ 16, addr := a % 2 ^ 44, payload := bs } (.store i)
              (t.tilesAt i).rec? a 0).blockOut i e g lines f (part + n)
          | (t, .fail st x) => (t, .inr (st, x))
          | (t, .wait) => (t, .inl part)
      else
        match t.blockBytesOut i e part 1 with
        | (t, .data bs) =>
          match t.storeLine i a bs with
          | (t, .OK) => t.blockOut i e g lines f (part + 1)
          | (t, st) => (t, .inr (st, a % 2 ^ 44))
        | (t, .fail st x) => (t, .inr (st, x))
        | (t, .wait) => (t, .inl part)

/-- STREAM_BSTORE (R271): the next block of BSTORE entry `k`, as far as peers and its queue let it. -/
def execStreamBstore (i : Fin 64) (k : Fin 8) (s : State) : Host.Outcome State Fault Refusal :=
  let t := begin s
  match t.now.entry i k [6] with
  | some (_, e) =>
    done (t.startTile i k e fun t =>
      let b := e.blocks.getD e.next (0, 0)
      if (t.tilesAt i).void e then
        match t.blockBytesOut i e 0 b.1 with
        | (t, .wait) => t
        | (t, _) => t.tileDone i k e
      else
        match t.blockOut i e (b.2 + t.now.lanePtr (t.tilesAt i) e) b.1 b.1 e.part with
        | (t, .inl n) => if b.1 ≤ n then t.tileDone i k e
            else t.modTiles i (·.setEntry k { e with part := n, waiting := false })
        | (t, .inr (st, a)) => t.entryFails i st a)
  | none => done t

end Sys2Proof.Machine
end

