-- ==== Sys2Proof/Machine/Records.lean ====
section
/-!
DEFINITION. Records on their clusters (ch. 01, 09, 13, 14, 16): descriptor lists (R209, R210), noise steps (R318 to R320), the
dispatch of records at a boundary (R25, R26, R274, R325 to R328, R340, R393), what a boundary brings to a dispatched record (R199,
R253, R256, R314), and the end of a tile's part (R200).
-/

namespace Sys2Proof.Machine

variable {s : State}

/-! ### Graphs and lanes -/

/-- The words of a segment: none where the binary holds no segment of that stream for the graph epoch (R199). -/
def Graph.segLen (g : Graph) (tile : Nat) (side : Side) (e : Nat) : Nat :=
  ((g.segments.find? fun v => v.tile = tile && v.side = side && v.epoch = e).map (·.words.length)).getD 0

/-- The graph of a record. -/
def State.graphOf (s : State) (r : Nat) : Graph := s.graphsAt (s.recordsAt r).graph

/-- The bound lanes of a dispatched batch, as (lane, record), by its lane 0 record. -/
def State.lanesOf (s : State) (r : Nat) : List (Nat × Nat) :=
  (s.records.filter fun k => k.2.stage = .dispatched && k.2.opcode = 1 && k.2.leader = r).map fun k => (k.2.lane, k.1)

/-- The tiles of a cluster on which record `r` works. -/
def State.tilesOn (s : State) (r cl : Nat) : List Nat :=
  (clusterTiles cl).filter fun i => (s.tilesAt i).rec? = some r && s.working i

/-- A record fails for a reason on a cluster and no one tile: logged in the cluster's page, and its tiles stop with ABORTED
(R32, R232). -/
def Tx.failOnCluster (t : Tx s) (r cl : Nat) (st : Status) (addr : Nat := 0) : Tx s :=
  let t := t.logError .CLUSTER cl { status := st, cls := st.cls, addr := addr, rec? := some r }
  (t.failRecord (some r) cl st 0).abortOthers r (64 + cl) st

/-! ### Descriptor LOADs (R210) -/

/-- A loaded descriptor takes its slot on every tile of the cluster once the execute stream has entered the graph epoch. -/
def Tx.fillSlots (t : Tx s) (r cl e : Nat) (slots : List Nat) (d : Ctd) (raised : Bool) : Tx s :=
  t.forEach (t.now.tilesOn r cl) fun t i =>
    (t.modTiles i fun x => Tile.settle { x with pendCtds := x.pendCtds ++ slots.map fun k => (e, k, d) }).when raised fun t =>
      t.bump TILE.LDGCNT.RAISED 1 i

/-- A LOAD of lane `n` that has come takes effect in graph epoch `e`: an input descriptor (R36); a refused, poisoned or failed one
fails the record. Lane 0's descriptor fills the slots of void lanes too. -/
def Tx.takeLoad (t : Tx s) (r n e : Nat) (l : DescLoad) : Tx s :=
  match l.got with
  | none => t
  | some (none, st) => t.failOnCluster r l.cluster st l.addr
  | some (some bs, _) =>
    let d := ctdOfNat (leNat bs)
    match admitInput (t.psetsAt d.pset) d with
    | none => t.failOnCluster r l.cluster .RANGE l.addr
    | some (d, raised) =>
      let bound := t.now.lanesOf r
      let voids := if l.rel && n = 0 then (List.range (t.now.graphOf r).width).filter fun k => !(bound.any (·.1 = k)) else []
      t.fillSlots r l.cluster e (l.slot :: voids.map (l.slot + ·)) d raised

/-- Does a cluster still await a LOAD for a graph epoch that has started? -/
def State.awaitsLoad (s : State) (r cl : Nat) : Bool :=
  (s.lanesOf r).any fun k => (s.recordsAt k.2).loads.any fun l => l.cluster = cl && l.gep ≤ (s.recordsAt r).gep

/-- At the boundary that starts graph epoch `e`, the LOADs that have come take effect; a cluster that awaits one waits, and the
wait counts as an underrun on its tiles. -/
def Tx.boundaryLoads (t : Tx s) (r e : Nat) : Tx s :=
  let t := t.forEach (t.now.lanesOf r) fun t k =>
    let due := (t.recordsAt k.2).loads.filter fun l => l.gep = e && l.got.isSome
    let t := t.modRecords k.2 fun x => { x with loads := x.loads.filter fun l => l.gep ≠ e || l.got.isNone }
    t.forEach due fun t l => t.takeLoad r k.1 e l
  t.forEach ((clustersOf (t.recordsAt r).clusters).filter (t.now.awaitsLoad r)) fun t cl =>
    (t.modClusters cl fun c => { c with wait := true }).forEach (t.now.tilesOn r cl) fun t i =>
      (t.bump TILE.STRCNT.UNDERRUN 1 i).perturb i

/-- Start every lane's LOADs for a graph epoch. -/
def Tx.startEpochLoads (t : Tx s) (r e : Nat) : Tx s :=
  t.forEach (t.now.lanesOf r) fun t k =>
    t.startLoads k.2 (loadsFor (t.now.graphOf r) t.now.devId e (t.recordsAt k.2).inPtr k.1)

/-- LOAD `j` of record `k` comes: it is kept until its boundary, or takes effect at once where the boundary has passed, and the
cluster goes on once nothing of it is awaited. -/
def Tx.loadArrives (t : Tx s) (k j : Nat) (bs : Option (List Byte)) (st : Status) : Tx s :=
  let x := t.recordsAt k
  match x.loads[j]? with
  | none => t
  | some l =>
    let l := { l with got := some (bs, st) }
    if x.stage ≠ .dispatched || (t.recordsAt x.leader).gep < l.gep then t.modRecords k fun x => { x with loads := x.loads.set j l }
    else
      let t := (t.modRecords k fun x => { x with loads := x.loads.eraseIdx j }).takeLoad x.leader x.lane l.gep l
      t.when (!t.now.awaitsLoad x.leader l.cluster) fun t => t.modClusters l.cluster fun c => { c with wait := false }

/-- The LOADs of a cluster that the host has not answered, oldest record first, as (record, place in its list). -/
def State.hostLoads (s : State) (cl : Nat) : List (Nat × Nat) :=
  s.records.flatMap fun k => ((k.2.loads.zipIdx.filter fun l =>
    l.1.cluster = cl && l.1.asked && l.1.got.isNone && l.1.addr / 2 ^ 44 % 2 ^ 16 = s.devId).map fun l => (k.1, l.2))

/-- The host answers a LOAD of the cluster (R378). -/
def Tx.loadAnswered (t : Tx s) (cl k : Nat) (ans : HostAnswer) : Tx s :=
  match (t.now.hostLoads cl)[k]? with
  | none => t
  | some p =>
    match ans with
    | .data bs => if bs.length = 32 then t.loadArrives p.1 p.2 (some bs) .OK else t.loadArrives p.1 p.2 none .PROTO
    | a => t.loadArrives p.1 p.2 none a.status

/-- DESCRIPTOR_LOAD_ARRIVE (R210): the host answers the `k`-th LOAD that the cluster awaits of it. -/
def execDescriptorLoadArrive (cl : Fin 8) (k : Nat) (ans : HostAnswer) (s : State) : Host.Outcome State Fault Refusal :=
  done ((begin s).loadAnswered cl k ans)

/-! ### Descriptor STOREs (R210) -/

/-- Write the slot of one lane's STORE from the tile at cluster position 0 (R37). An empty slot has no content: free. Of a peer's
line, a packet of one line, the other 32 bytes are free. -/
def Tx.storeCtd (t : Tx s) (r cl d lane k : Nat) : Tx s :=
  let i := 8 * cl
  let g := if bit d 10 then t.now.devId <<< 44 + (t.recordsAt k).outPtr + bits d 123 64 else bits d 123 64
  let a := g % 2 ^ 44
  let free := natLe 32 (Config.draw t.now.fresh % 2 ^ 256)
  let slot := bits d 7 0 + (if bit d 10 then lane else 0)
  let src := (t.tilesAt i).ctds.find? (·.1 = slot)
  let bs := (src.map fun c => natLe 32 (ctdToNat c.2)).getD free
  let dev := g / 2 ^ 44 % 2 ^ 16
  let t := t.when (src.isNone || dev ≠ t.now.devId) fun t => t.freshen
  let fail (t : Tx s) (st : Status) : Tx s :=
    t.stopTile i { status := st, cls := st.cls, src := unitAccess, addr := t.now.globalLine a }
  if dev ≠ t.now.devId then
    t.request { type := ptWR, len := 1, dst := dev, addr := a / 64 * 64,
                payload := if a % 64 = 0 then bs ++ free else free ++ bs } (.store i) (some r) (g / 64 * 64) 0
  else if isHostWin a then
    if apertureAllows (t.now.aperture a) (t.now.tileFn i) true then t.postHost (t.now.tileFn i) a bs else fail t .DENIED
  else
    match t.now.access (.tile i) a with
    | .OK => if t.now.poisoned a 32 then fail t .POISON else t.write a bs
    | st => fail (t.logAccess a st true) st

/-- Write the STOREs of a cluster that are due. -/
def Tx.writeStores (t : Tx s) (r cl : Nat) (due : Nat → Bool) : Tx s :=
  let x := t.recordsAt r
  let go := x.stores.filter fun d => d.1 = cl && due d.2
  let t := t.modRecords r fun x => { x with stores := x.stores.filter fun d => !(d.1 = cl && due d.2) }
  t.forEach go fun t d =>
    if bit d.2 10 then t.forEach (t.now.lanesOf r) fun t k => t.storeCtd r cl d.2 k.1 k.2
    else t.storeCtd r cl d.2 0 r

/-- At the boundary that ends graph epoch `e`, the STOREs of epochs that the position-0 tile's execute stream has finished. -/
def Tx.boundaryStores (t : Tx s) (r e : Nat) : Tx s :=
  t.forEach (clustersOf (t.recordsAt r).clusters) fun t cl =>
    let x := t.tilesAt (8 * cl)
    let past (k : Nat) : Bool := k < x.exe.seg || (x.exe.seg = k && (x.exe.atEnd || x.exe.ended))
    if x.rec? = some r && t.now.working (8 * cl) then
      t.writeStores r cl fun d => bits d 63 48 ≠ 0xFFFF && bits d 63 48 ≤ e && past (bits d 63 48)
    else t

/-! ### Noise steps (R318 to R320) -/

/-- SD of R320 in Q16.16. -/
def noiseSd (dist param : Nat) : Int :=
  match dist with
  | 0 => q16 (-74)
  | 1 => q16 ((clog2 (param ^ 128) : Int) - 128)
  | _ => q16 (256 * (param : Int) - 202)

/-- The integer of one 64-bit draw (R319). -/
def noiseValue (dist param w : Nat) : Int :=
  let ones (x : Nat) : Nat := ((List.range param).filter (bit x)).length
  match dist with
  | 0 => (w % 3 : Nat) - 1
  | 1 => (ones w : Int) - ones (w / 2 ^ 32)
  | _ => (w % 2 ^ (param + 1) : Nat) - (2 ^ param : Nat)

/-- The noise polynomial of a step (R319), and its limb modulo `q`. -/
def noisePoly (seed : List Byte) (nsid dist param n : Nat) : List Int :=
  let nonce := natLe 4 nsid ++ natLe 1 0 ++ natLe 1 dist ++ natLe 2 param ++ natLe 4 2
  (List.range (n / 8)).flatMap fun blk => (chunks 8 8 (chachaBlock seed blk nonce)).map fun v => noiseValue dist param (leNat v)

@[inherit_doc noisePoly] def noiseLimb (seed : List Byte) (nsid dist param n q : Nat) : List Nat :=
  (noisePoly seed nsid dist param n).map fun e => (e % (q : Int)).toNat

/-- Fields of a noise descriptor (R318). -/
def noiseDist (d : Nat) : Nat := bits d 71 70
@[inherit_doc noiseDist] def noiseParam (d : Nat) : Nat := bits d 69 64
@[inherit_doc noiseDist] def noiseSlot (d : Nat) : Nat := bits d 79 72

/-- A tile updates its copy of the descriptor that receives noise, and evaluates R46 (R320). -/
def Tx.noiseTile (t : Tx s) (i slot : Nat) (sd : Int) : Tx s :=
  match t.now.srcCtd i slot with
  | none => t.stopTile i { status := .RANGE, cls := 5 }
  | some d =>
    let c := t.now.psetCtx d.pset
    let v := ctdVals d
    let o := storeVals d { v with noise := la c.ps v.noise sd }
    match failingChecks c o.1 { saturated := o.2 } with
    | [] => t.modTiles i (·.putCtd slot o.1)
    | code :: _ =>
      if traps c.ps (t.flagEff TILE.LDGCTL.FORCE_TRAP i) then
        t.stopTile i { status := .LEDGER, cls := 5, detail := ledgerDetail code 0 slot d.tag }
      else (t.modTiles i (·.putCtd slot { o.1 with ovr := true })).when (i % 8 = 0) fun t => t.bump TILE.LDGCNT.OVER 1 i

/-- The noise steps of a cluster for graph epoch `e` start: one for each bound lane. -/
def Tx.startNoise (t : Tx s) (r e : Nat) : Tx s :=
  t.forEach ((t.now.graphOf r).noise.filter fun d => bits d.2 95 80 = e) fun t d =>
    t.forEach (t.now.lanesOf r) fun t k =>
      let slot := noiseSlot d.2 + k.1
      let run := (t.now.srcCtd (8 * d.1) slot).map fun c =>
        { desc := d.2, lane := k.1, seed := (t.recordsAt k.2).seed, pset := c.pset, level := c.level : NoiseRun }
      let t := t.forEach (t.now.tilesOn r d.1) fun t i => t.noiseTile i slot (noiseSd (noiseDist d.2) (noiseParam d.2))
      match run with
      | some v => t.modClusters d.1 fun c => { c with noise := c.noise ++ [v] }
      | none => t

/-- The cluster's first noise step lands its next limb on the tile that R17 gives it, and the tile's counter goes up by one; a
landing area past the scratchpad's end stops the tile. -/
def Tx.landNoise (t : Tx s) (cl : Nat) (v : NoiseRun) (rest : List NoiseRun) : Tx s :=
  let c := t.now.psetCtx v.pset
  let n := c.ps.n
  let j := v.landed
  let i := 8 * cl + j % 8
  let size := 4 * n
  let off := bits v.desc 63 39 + (v.lane * (tileLimbs c v.level .chain (j % 8)).length + j / 8) * size
  let t := t.when (j = 0) fun t => t.bump MUSLIN.BLOCKS.BLOCKS (n / 8) cl
  let t := t.modClusters cl fun x => { x with noise := if v.level ≤ j then rest else { v with landed := j + 1 } :: rest }
  if t.now.spadEnd i < off + size then t.stopTile i { status := .RANGE, cls := 5 }
  else
    (t.writeWords (spadBase i + off)
      (noiseLimb v.seed (bits v.desc 127 96) (noiseDist v.desc) (noiseParam v.desc) n (c.q.getD j 1))).modTiles i fun x =>
        addCtr x (bits v.desc 38 35) 1

/-- NOISE_LIMB_LANDED (R319, R320): served as a key stream, so it waits while one runs on the cluster (R115). -/
def execNoiseLimbLanded (cl : Fin 8) (s : State) : Host.Outcome State Fault Refusal :=
  let t := begin s
  match (t.clustersAt cl).noise with
  | v :: rest =>
    if (clusterTiles cl).any fun i => s.keyWaits i && (s.tilesAt i).kstream.isSome then done t else done (t.landNoise cl v rest)
  | [] => done t

/-! ### Reductions (R253, R256) -/

/-- Close a record's reductions on a cluster. -/
def Tx.closeReds (t : Tx s) (cl : Nat) (p : Nat → Bool) : Tx s :=
  t.forEach (((t.clustersAt cl).reds.map (·.1)).filter p) fun t rid => t.putRed cl rid {}

/-- At the boundary that starts graph epoch `e`: reductions close, then open; an illegal open fails the record. -/
def Tx.boundaryReds (t : Tx s) (r e : Nat) : Tx s :=
  let plans := (t.now.graphOf r).reds
  let t := t.forEach (plans.filter (·.closes = some e)) fun t p => t.closeReds p.cluster (· = bits p.desc 127 120)
  t.forEach (plans.filter (·.opens = e)) fun t p =>
    if t.now.redLegal p.cluster p.desc then t.openRed p.cluster p.desc (some r) else t.failOnCluster r p.cluster .RANGE

/-- Seal what is due of a record's reductions. -/
def Tx.sealReds (t : Tx s) (r : Nat) : Tx s :=
  t.forEach (clustersOf (t.recordsAt r).clusters) fun t cl =>
    t.forEach ((t.clustersAt cl).reds.filter fun k => k.2.rec? = some r) fun t k => t.trySeal cl k.1 (t.recordsAt r).gep

/-! ### Segments (R199, R314) -/

/-- Has the stream reached the end of its segment, or ended? -/
def StreamState.atStop (v : StreamState) : Bool := v.atEnd || v.ended

/-- Segments up to graph epoch `e` become executable. -/
def StreamState.unlock (v : StreamState) (g : Graph) (i : Nat) (d : Side) (e : Nat) : StreamState :=
  let top := v.seg + v.more.length
  { v with more := v.more ++ (List.range (e - top)).map fun k => g.segLen i d (top + 1 + k) }

/-- Both streams of a tile. -/
def Tile.unlock (x : Tile) (g : Graph) (i e : Nat) : Tile :=
  { x with acc := x.acc.unlock g i .access e, exe := x.exe.unlock g i .execute e }

/-- Segment `e` becomes executable on a running or halted tile. The epoch is perturbed when a stream slips or still runs a segment
that the tile resumed in (R229, R314), for work in flight at a skipped boundary (R311), and with DET = 0 (R316). -/
def Tx.tileBoundary (t : Tx s) (i e : Nat) (g : Graph) : Tx s :=
  let x := t.tilesAt i
  let slip := !(x.acc.atStop && x.exe.atStop)
  let t := (t.setFld TILE.RUNSTAT.PERTURBED 0 i).putTiles i { (x.unlock g i e).settle with ptbNext := false }
  t.when (slip || x.ptbNext || !t.det) fun t => t.perturb i

/-! ### Dispatch (R25, R200) -/

/-- The clusters on which a tile works for a record and is not saved. -/
def State.busyCluster (s : State) (cl : Nat) : Bool :=
  (clusterTiles cl).any fun i => (s.tilesAt i).rec?.isSome && s.runState i ≠ runSaved

/-- A tile that can take a record: idle, saved, or stopped by a record that is done. -/
def State.tileFree (s : State) (i : Nat) : Bool :=
  let st := s.runState i
  st = runIdle || st = runSaved || (st = runStopped && (s.tilesAt i).rec?.isNone)

/-- The stream of a tile at the start of segment 0. -/
def streamStart (g : Graph) (i : Nat) (d : Side) : StreamState :=
  let n := g.segLen i d 0
  { len := n, atEnd := n = 0 }

/-- A tile as dispatch leaves it (R200): flags, counters, queues, channels and descriptor slots as R200 and R209 say; what its
engines hold stays, but for a tile that stopped on an error, whose engines the CCC resets (R482). -/
def Tile.start (x : Tile) (g : Graph) (r i : Nat) (lanes : List (Nat × Nat)) (reset : Bool) : Tile :=
  let y : Tile := { rec? := some r, acc := streamStart g i .access, exe := streamStart g i .execute, lanes := lanes,
                    sptUnit := x.sptUnit, sptOn := x.sptOn, spares := x.spares, pinned := x.pinned }
  if reset then y
  else { y with acc0 := x.acc0, acc1 := x.acc1, accWide := x.accWide, lastLift := x.lastLift, dacc := x.dacc, iacc := x.iacc,
                shown := x.shown,
                wbrs := x.wbrs, pbrs := x.pbrs, wslots := x.wslots, trs := x.trs, ocache := x.ocache, ocBad := x.ocBad }

/-- Dispatch on one tile; a saved record of another session has its scratchpad saved first (R230). -/
def Tx.startOn (t : Tx s) (r i : Nat) (g : Graph) (lanes : List (Nat × Nat)) : Tx s :=
  let c := t.now.contextsAt (t.now.ctxBase i)
  let other := c.live && (t.recordsAt (c.tile.rec?.getD 0)).sid ≠ (t.recordsAt r).sid
  let t := t.when other fun t => t.saveScratch i g.spad
  let stopped := t.now.runState i = runStopped
  let t := t.modTiles i fun x => x.start g r i lanes stopped
  let t := (t.setFld TILE.RUNSTAT.STATE runRunning i).setFld TILE.RUNSTAT.PERTURBED 0 i
  let t := (t.setFld TILE.STRMLANE.BOUND ((lanes.map fun k => 2 ^ k.1).sum) i).showStreams i
  let t := t.when (!t.det) fun t => t.perturb i
  t.when (t.flag TILE.RUNCTL.HALT i) fun t => (t.setFld TILE.RUNSTAT.STATE runHalted i).levelIrq .TILE i 4 true

/-- What a cluster keeps of its running record moves to the record saved on it, if there is one. -/
def Tx.parkHeads (t : Tx s) (cl : Nat) : Tx s :=
  let c := t.clustersAt cl
  let t := match (clusterTiles cl).findSome? fun i => if t.now.runState i = runSaved then (t.tilesAt i).rec? else none with
    | some k => t.modRecords k fun x => { x with heads := mapInsert x.heads cl ⟨c.kheads, c.wheads, c.gzHeads, c.noise⟩ }
    | none => t
  t.putClusters cl { c with kheads := [], wheads := [], wblocks := [], gzHeads := [], wait := false, noise := [] }

/-- Reductions, seals, LOADs and noise of the graph epoch `e` that starts, and the LOADs of the one after it. -/
def Tx.enterEpoch (t : Tx s) (r e : Nat) : Tx s :=
  ((((t.boundaryReds r e).boundaryLoads r e).startNoise r e).startEpochLoads r (e + 1)).sealReds r

/-- Is the record's batch start possible: are the LOADs of graph epoch 0 there? -/
def RunRec.loaded (x : RunRec) (relOnly : Bool) : Bool := x.loads.all fun l => (relOnly && !l.rel) || l.got.isSome

/-- The checks at dispatch that complete a record without effects: a retired cluster (R483), a sealed cluster without a context
region (R432) or for a session without SEALED (R433), a noise step without a seed (R319), the session's cluster-epochs (R399). -/
def State.dispatchCheck (s : State) (r : Nat) : Status :=
  let x := s.recordsAt r
  let g := s.graphOf r
  let cls := clustersOf x.clusters
  let doms := cls.filterMap s.domainOfCluster
  let v := s.sessionsAt x.sid
  if s.fld ERRSYS.STATE.RETIRED &&& x.clusters ≠ 0 then .NOT_READY
  else if doms.any fun d => !(s.regions.any fun k => k.2.live && k.2.ctx && k.2.dom = d && !k.2.filling) then .STATE
  else if !doms.isEmpty && !v.isSealed then .DENIED
  else if g.noise ≠ [] && x.seedPtr = 0 then .RANGE
  else if v.qepoch.any (· < g.epochs * cls.length) then .DENIED
  else .OK

/-- A record takes its place in a batch: dispatched, and the session's cluster-epochs deducted (R399). -/
def Tx.bind (t : Tx s) (r leader lane : Nat) : Tx s :=
  let g := t.now.graphOf r
  let n := g.epochs * (clustersOf (t.recordsAt r).clusters).length
  let t := t.modSessions (t.recordsAt r).sid fun v => { v with qepoch := v.qepoch.map (· - n) }
  t.modRecords r fun x =>
    { x with stage := .dispatched, leader := leader, lane := lane, gep := 0,
             loads := if lane = 0 then x.loads
               else (x.loads.filter (·.rel)).map fun l => { l with slot := l.slot + lane } }

/-- Has the deadline passed (R25)? -/
def State.past (s : State) (x : RunRec) : Bool := x.deadline ≠ 0 && x.deadline < s.epochCount

/-- A record expires (R25). -/
def Tx.expireRec (t : Tx s) (r : Nat) : Tx s := t.finish r .EXPIRED (t.now.epochCount % 2 ^ 32)

/-- WR flags (R383). -/
def RunRec.independent (x : RunRec) : Bool := bit x.flags 1
@[inherit_doc RunRec.independent] def RunRec.fence (x : RunRec) : Bool := bit x.flags 2

/-- An earlier admitted record of the queue that has not been dispatched. -/
def State.waitsBehind (s : State) (r : Nat) : Bool :=
  let x := s.recordsAt r
  s.records.any fun k => k.1 < r && k.2.stage = .admitted && k.2.qid = x.qid

/-- An earlier record of the queue without a CQE (R325). -/
def State.earlierOpen (s : State) (r : Nat) : Bool :=
  let x := s.recordsAt r
  s.records.any fun k => k.1 < r && k.2.stage ≠ .none && k.2.qid = x.qid

/-- May records of the queue be dispatched (R391, R392)? -/
def State.queueRuns (s : State) (q : Nat) : Bool := (s.queuesAt q).state = 1 || (s.queuesAt q).state = 3

/-- Bind further records to lanes of a batch, in queue order (R274, R328); expired ones complete. -/
def Tx.fillLanes (t : Tx s) (leader width : Nat) : List Nat → Nat → Tx s
  | [], _ => t
  | r :: rs, n =>
    let x := t.recordsAt r
    if width ≤ n || !x.independent || x.fence || t.now.waitsBehind r || !t.now.queueRuns x.qid || !x.loaded true then
      t.fillLanes leader width rs n
    else if t.now.past x then (t.expireRec r).fillLanes leader width rs n
    else
      match t.now.dispatchCheck r with
      | .OK => (t.bind r leader n).fillLanes leader width rs (n + 1)
      | st => (t.finish r st).fillLanes leader width rs n

/-- Dispatch a record with the lanes that its graph can fill. -/
def Tx.startRecord (t : Tx s) (r : Nat) : Tx s :=
  let x := t.recordsAt r
  let g := t.now.graphOf r
  let t := t.bind r r 0
  let more := (t.now.records.filter fun k =>
    k.2.stage = .admitted && k.2.opcode = 1 && k.2.graph = x.graph && k.2.sid = x.sid).map (·.1)
  let t := t.fillLanes r g.width more 1
  let t := t.modRecords r fun x => { x with stores := g.descs.filter fun d => bits d.2 9 8 = 1 }
  let lanes := t.now.lanesOf r
  let t := t.forEach (clustersOf x.clusters) fun t cl =>
    let t := (t.parkHeads cl).setClusterPower cl 0
    let t := t.modClusters cl fun c => { c with idleEpochs := 0, gated := false }
    t.forEach (clusterTiles cl) fun t i => t.startOn r i g lanes
  t.enterEpoch r 0

/-- The oldest late error of a record's queue surfaces at its fence (R340): the record completes with its status, and its error
record carries its SEQ. -/
def Tx.failFence (t : Tx s) (r : Nat) (late : Nat × Nat × Nat) (st : Status) : Tx s :=
  let x := t.recordsAt r
  let t := t.logError .FN x.fn { status := st, cls := st.cls, addr := late.2.2, detail := late.2.1, rec? := some r }
  (t.modQueues x.qid fun q => { q with late := [] }).finish r st late.2.1

/-- What the CCCs do with one admitted record at a boundary (R25, R26, R393): the clusters it blocks for later records, none once
it is dispatched or complete. -/
def Tx.consider (t : Tx s) (r blocked : Nat) (skipped : Bool) : Tx s × Nat :=
  let x := t.recordsAt r
  let cls := clustersOf x.clusters
  let stay := (t, blocked ||| x.clusters)
  let q := t.queuesAt x.qid
  if blocked &&& x.clusters ≠ 0 || !t.now.queueRuns x.qid || t.now.waitsBehind r ||
      ((!x.independent || x.fence) && t.now.earlierOpen r) then stay
  else if cls.any fun cl => 2 ≤ t.now.clusterPower cl || (bit t.now.tests.resets cl) || (t.now.tests.test = 1 && bit t.now.tests.target cl)
      then stay
  else if cls.all t.now.busyCluster then stay
  else if t.now.past x then (t.expireRec r, blocked)
  else if skipped || cls.any t.now.busyCluster || (x.fence && t.now.outstanding x.qid ≠ 0) then stay
  else
    match (if x.fence then q.late else []) with
    | l :: _ => (t.failFence r l (statusOfCode l.1), blocked)
    | [] =>
      let spans := 1 < (t.now.graphOf r).modules
      let synced := t.fldEff EPOCH.CTL.ROLE = 1 || (t.flag EPOCH.STAT.LOCKED && t.now.epoch.adopted)
      if (x.tiles.any fun i => !t.now.tileFree i) || !x.loaded false || (spans && !synced) then stay
      else
        match t.now.dispatchCheck r with
        | .OK => (t.startRecord r, blocked)
        | st => (t.finish r st, blocked)

/-- The CCCs go through the admitted records in admission order. -/
def Tx.considerAll (t : Tx s) (skipped : Bool) : List Nat → Nat → Tx s
  | [], _ => t
  | r :: rs, blocked =>
    if (t.recordsAt r).stage = .admitted then
      let v := t.consider r blocked skipped
      v.1.considerAll skipped rs v.2
    else t.considerAll skipped rs blocked

/-- Records to dispatch: admitted ones with a graph. -/
def Tx.dispatchAll (t : Tx s) (skipped : Bool) : Tx s :=
  t.considerAll skipped ((t.now.records.filter fun k => k.2.stage = .admitted && k.2.opcode = 1).map (·.1)) 0

/-! ### A boundary for dispatched records -/

/-- Lane 0 records of the batches that run. -/
def State.leaders (s : State) : List Nat :=
  (s.records.filter fun k => k.2.stage = .dispatched && k.2.opcode = 1 && k.2.leader = k.1).map (·.1)

/-- Does a tile of the record run or stand halted? -/
def State.goesOn (s : State) (r : Nat) : Bool :=
  (s.recordsAt r).tiles.any fun i => (s.tilesAt i).rec? = some r && (s.runState i = runRunning || s.runState i = runHalted)

/-- A boundary that is not skipped starts the record's next graph epoch: due STOREs, segments, then what the epoch brings. -/
def Tx.advanceRecord (t : Tx s) (r : Nat) : Tx s :=
  if !t.now.goesOn r then t
  else
    let e := (t.recordsAt r).gep + 1
    let g := t.now.graphOf r
    let t := (t.boundaryStores r (e - 1)).modRecords r fun x => { x with gep := e }
    let t := t.forEach (t.recordsAt r).tiles fun t i =>
      if (t.tilesAt i).rec? = some r && (t.now.runState i = runRunning || t.now.runState i = runHalted) then t.tileBoundary i e g
      else t
    t.enterEpoch r e

/-- Restored tiles go on once every tile of the record that was preempted has restored (R229): the segments reached meanwhile are
executable, and the epoch is perturbed. -/
def Tx.resumeRecord (t : Tx s) (r : Nat) : Tx s :=
  let x := t.recordsAt r
  let mine := x.tiles.filter fun i => (t.tilesAt i).rec? = some r && t.now.working i
  let back := mine.filter fun i => t.now.runState i = runRestoring && (t.tilesAt i).restored
  if back.isEmpty || mine.any (fun i => t.now.runState i = runSaved || t.now.runState i = runSaving ||
      (t.now.runState i = runRestoring && !(t.tilesAt i).restored)) then t
  else t.forEach back fun t i =>
    let y := ((t.tilesAt i).unlock (t.now.graphOf r) i x.gep).settle
    let t := (t.putTiles i { y with restored := false }).setFld TILE.RUNSTAT.STATE runRunning i
    let t := (t.setFld TILE.RUNSTAT.PERTURBED 0 i).perturb i
    (t.pumpAll i).when (t.flag TILE.RUNCTL.HALT i) fun t => (t.setFld TILE.RUNSTAT.STATE runHalted i).levelIrq .TILE i 4 true

/-- A record that has failed on one tile stops on all the others (R32, R232), by the failure its CQE will carry. -/
def Tx.stopFailed (t : Tx s) (r : Nat) : Tx s :=
  match (t.recordsAt r).worst with
  | none => t
  | some f =>
    let cause := ((t.recordsAt r).tiles.find? fun i => i / 8 = f.cluster && t.now.runState i = runStopped &&
      t.fld TILE.RUNSTAT.STATUS i = f.status.code).getD (64 + f.cluster)
    t.abortOthers r cause f.status

/-! ### The end of a part (R200) and of a record -/

/-- A tile's part is over: it is idle, or saved again where a preempted record's context waits in its area; a stopped tile shows
its stop until its next dispatch. -/
def Tx.releaseTile (t : Tx s) (r i : Nat) : Tx s :=
  let b := t.now.ctxBase i
  let c := t.now.contextsAt b
  let t := if c.live && c.tile.rec? = some r then t.putContexts b {} else t
  let c := t.now.contextsAt b
  if c.live && c.tile.rec?.isSome then
    (t.modTiles i fun x => { x.worn with rec? := c.tile.rec?, saved := true }).setFld
      TILE.RUNSTAT.STATE runSaved i
  else
    let t := t.modTiles i fun x => { x with rec? := none, lanes := [], kstream := none, wstreams := [], transfers := [], prog := none }
    if t.now.runState i = runStopped then t else t.setFld TILE.RUNSTAT.STATE runIdle i

/-- What a cluster kept for the record saved on it comes back. -/
def Tx.unparkHeads (t : Tx s) (cl : Nat) : Tx s :=
  match (clusterTiles cl).findSome? fun i => if t.now.runState i = runSaved then (t.tilesAt i).rec? else none with
  | some k =>
    match (t.recordsAt k).heads.find? (·.1 = cl) with
    | some h => t.modClusters cl fun c => { c with kheads := h.2.kheads, wheads := h.2.wheads, gzHeads := h.2.gzHeads, noise := h.2.noise, wblocks := [] }
    | none => t
  | none => t

/-- Every part of the batch is over: its reductions close, and each of its records has its outcome. -/
def Tx.endBatch (t : Tx s) (r : Nat) : Tx s :=
  let x := t.recordsAt r
  let t := t.forEach (x.tiles.filter fun i => (t.now.contextsAt (t.now.ctxBase i)).tile.rec? = some r) fun t i =>
    t.putContexts (t.now.ctxBase i) {}
  let t := t.forEach (clustersOf x.clusters) fun t cl =>
    let t := t.closeReds cl fun rid => ((t.clustersAt cl).reduction rid).rec? = some r
    (t.modClusters cl fun c => { c with noise := [], wait := false }).unparkHeads cl
  t.forEach (t.now.lanesOf r) fun t k =>
    t.modRecords k.2 fun v => { v with stage := .finished, failures := x.failures, loads := [] }

/-- Does a write of the tile still await its acceptance? -/
def State.writesOut (s : State) (i : Nat) : Bool :=
  s.peers.any fun k => k.2.accepts ≠ 0 && hasOutcome k.2.packet.type && (match k.2.origin with
    | .transfer j _ | .store j => i = j | _ => false)

/-- A batch ends once the part of each of its tiles is over and none of its writes is left to be accepted: none is performed after
its CQE (R31, R329, R342). -/
def Tx.batchOver (t : Tx s) (r : Nat) : Tx s :=
  let x := t.recordsAt r
  if x.stage = .dispatched && x.tiles.all (fun i => x.tilesDone.contains i && !t.now.writesOut i) then t.endBatch r else t

/-- A tile's part of its record is over. -/
def Tx.partOver (t : Tx s) (r i : Nat) : Tx s :=
  ((t.releaseTile r i).modRecords r fun x => { x with tilesDone := insertSorted x.tilesDone i }).batchOver r

/-- Have both streams issued END, with every result visible and nothing left that the access stream is to write? Reads and streams
into the tile that nothing has taken end with the part. -/
def Tile.finished (x : Tile) : Bool :=
  x.acc.ended && x.exe.ended && x.engines.isEmpty && x.transfers.all (fun v => !v.out) && (match x.prog with
    | some p => p.entries.all (·.isLoad)
    | none => true)

/-- TILE_RECORD_DONE (R200, R210): a tile whose streams have ended writes the STOREs left to it, at position 0, and its part is
over once its writes are acknowledged; so is that of a tile stopped on an error. -/
def Tx.tileDoneWith (t : Tx s) (i : Nat) : Tx s :=
  match (t.tilesAt i).rec? with
  | none => t
  | some r =>
    let x := t.recordsAt r
    if x.stage ≠ .dispatched || x.tilesDone.contains i then t
    else if t.now.runState i = runStopped then (if x.aborting || t.now.writesOut i then t else t.partOver r i)
    else if (t.now.runState i ≠ runRunning && t.now.runState i ≠ runHalted) || !(t.tilesAt i).finished then t
    else
      let t := t.when (i % 8 = 0) fun t => t.writeStores r (i / 8) fun _ => true
      if t.now.writesOut i || t.now.runState i = runStopped then t else t.partOver r i

@[inherit_doc Tx.tileDoneWith] def execTileRecordDone (i : Fin 64) (s : State) : Host.Outcome State Fault Refusal :=
  done ((begin s).tileDoneWith i)

/-! ### Reads of host memory without an answer (R378) -/

/-- HOST_READ_TIMEOUT (R378): a read of host memory gets no completion within the completion timeout and ends with TIMEOUT. -/
def Tx.hostReadTimeout (t : Tx s) (w : HostReadOf) : Tx s :=
  match w with
  | .transfer i k => if ((t.tilesAt i).transfers[k]?).any (·.host ≠ []) then t.transferSignal i k .none else t
  | .stream i k => (t.streamLoadTile i k .none).streamBload i k .none
  | .record q => t.fetchRecord q.toNat .none
  | .seed => t.recordAdmit .none
  | .control r => t.runOpen r .none
  | .load cl k => t.loadAnswered cl k .none

@[inherit_doc Tx.hostReadTimeout] def execHostReadTimeout (w : HostReadOf) (s : State) : Host.Outcome State Fault Refusal :=
  done ((begin s).hostReadTimeout w)

/-- The abort of a function's dispatched records at a boundary (R380, R342): its tiles stop at once; it completes ABORTED, with its
CQE, once every write of its batch that was sent has been accepted or has failed, and this is looked at again at each boundary. -/
def Tx.abortRecord (t : Tx s) (r : Nat) : Tx s :=
  let x := t.recordsAt r
  let tiles := (t.recordsAt x.leader).tiles
  let t := t.when (x.leader = r) fun t =>
    t.forEach (tiles.filter fun i => (t.tilesAt i).rec? = some r && t.now.working i) fun t i => t.abortTile i (64 + i / 8) .ABORTED
  if tiles.any t.now.writesOut then t
  else
    let t := t.when (x.leader = r) fun t =>
      let t := t.forEach (tiles.filter fun i => (t.tilesAt i).rec? = some r) fun t i => t.partOver r i
      t.when ((t.recordsAt r).stage = .dispatched) fun t => t.endBatch r
    (t.finish r .ABORTED).cqeWrite r

/-- The resets of functions that have no record left end (R380). -/
def Tx.endFlrs (t : Tx s) : Tx s :=
  t.forEach ((List.range 64).filter fun f => (t.now.pcieAt f).flr && (t.now.fnRecords f).isEmpty) fun t f => t.flrEnd f

end Sys2Proof.Machine
end

