-- ==== Sys2Proof/Machine/Peer.lean ====
section
/-!
DEFINITION. Packets of the peer link protocol that this module takes (ch. 14, 15): requests from peers (R337, R338, R361 to R363),
the answers to its own (R338, R339, R353, R364), the epoch count (R366), and the time limits of peer writes.
-/

namespace Sys2Proof.Machine

variable {s : State}

/-! ### Taking a packet -/

/-- Take the packet of a type at the head of a receive buffer, if it is for this module; a router that is not READY answers as R369
says. Link 24 holds the packets this module sends itself. -/
def Tx.takeTyped (t : Tx s) (l : Fin 25) (cls : Fin 2) (ty : Nat) (f : Tx s → Packet → Tx s) : Tx s :=
  match t.now.head l ((typeVc ty).getD 0) cls with
  | none => t
  | some p =>
    if p.type ≠ ty || !(l.val = selfLink || t.now.isHere p) then t
    else
      let t := t.takePacket l p
      if t.flag ROUTER.CTL.READY then f t p else t.unready p

/-- Answer a packet: its TAG goes back to its source. -/
def Tx.answerPeer (t : Tx s) (p : Packet) (ty : Nat) (st : Status) (bs : List Byte := []) : Tx s :=
  t.sendPacket { type := ty, dst := p.src, tag := p.tag, aux := st.code, len := bs.length / 64, payload := bs }

/-! ### Requests (R361 to R363) -/

/-- Does a window hold the line at `a`? -/
def windowHolds (w a : Nat) : Bool := bits w 79 48 * 4096 ≤ a && a + 64 ≤ (bits w 79 48 + bits w 47 20) * 4096

/-- The window a request falls under: the lowest-numbered VALID one that holds its first line. -/
def State.windowOf (s : State) (a : Nat) : Option Nat :=
  ((List.range 256).map s.pwin).find? fun w => bit w 127 && windowHolds w a

/-- Steps 2 to 5 of the window checks for `n` lines at `a`: the window, or the status of the NAK. -/
def State.windowCheck (s : State) (p : Packet) (a n : Nat) : Except Status Nat :=
  match s.windowOf (a / 64 * 64) with
  | none => .error .WINDOW
  | some w =>
    if !windowHolds w (a / 64 * 64 + 64 * (n - 1)) then .error .WINDOW
    else if p.src < bits w 95 80 || bits w 111 96 < p.src then .error .DENIED
    else if !bit w (if p.type = ptRD then 125 else if p.type = ptWR then 124 else 123) then .error .DENIED
    else .ok w

/-- Write the lines of an accepted WR (R338): lines that may not be written stay as they are; the first failure. -/
def Tx.peerWrite (t : Tx s) (a : Nat) (bs : List Byte) : Tx s × Status :=
  let st := t.now.writeStatus .peer a bs.length
  (t.writeRange .peer a bs, st)

/-- Count the lines of a performed WR at its window's tile (R363). -/
def Tx.arrivalCount (t : Tx s) (w n : Nat) : Tx s :=
  let i := bits w 121 116
  if !bit w 122 then t
  else if (t.tilesAt i).rec?.isNone then t.bump ROUTER.NTFLOST.LOST
  else t.modTiles i (addCtr · (bits w 115 112) n)

/-- Send FAIL, and log it in the ROUTER page (R361). -/
def Tx.sendFail (t : Tx s) (p : Packet) (st : Status) : Tx s :=
  (t.logError .ROUTER 0 { status := st, cls := st.cls, addr := t.now.globalLine p.addr }).answerPeer p ptFAIL st

/-- PLP_WR (R337, R338, R361, R363). -/
def execPlpWr (l : Fin 25) (cls : Fin 2) (s : State) : Host.Outcome State Fault Refusal :=
  done ((begin s).takeTyped l cls ptWR fun t p =>
    match t.now.windowCheck p p.addr p.len with
    | .error st => t.nak p st
    | .ok w =>
      match (t.answerPeer p ptACCEPT .OK).peerWrite (p.addr / 64 * 64) p.payload with
      | (t, .OK) => (t.arrivalCount w p.len).answerPeer p ptDONE .OK
      | (t, st) => t.sendFail p st)

/-- PLP_RD (R361): RDATA with the lines, or with the status of the first that cannot be read. -/
def execPlpRd (l : Fin 25) (cls : Fin 2) (s : State) : Host.Outcome State Fault Refusal :=
  done ((begin s).takeTyped l cls ptRD fun t p =>
    let n := p.aux % 32 + 1
    match t.now.windowCheck p p.addr n with
    | .error st => t.nak p st
    | .ok _ =>
      let r := t.now.readRange .peer (p.addr / 64 * 64) (64 * n)
      (t.logRead .peer (p.addr / 64 * 64) (64 * n)).answerPeer p ptRDATA r.2 r.1)

/-- The operation of an ATOM packet (R352). -/
def State.packetAtom (s : State) (bs : List Byte) : Option AtomOp :=
  let b (k : Nat) : Nat := leNat ((bs.drop k).take 1)
  match b 0 with
  | 0 => some .add
  | 1 => some .swap
  | 2 => some (.cas (leNat ((bs.drop 16).take 8)))
  | 3 => s.maddOp (b 1) (b 2)
  | _ => none

/-- PLP_ATOM (R243, R352, R361): only a scratchpad operand; `restarts` counts the engine writes to it meanwhile (R244). -/
def execPlpAtom (l : Fin 25) (cls : Fin 2) (restarts : Nat) (s : State) : Host.Outcome State Fault Refusal :=
  done ((begin s).takeTyped l cls ptATOM fun t p =>
    let n := leNat ((p.payload.drop 1).take 1)
    let reply (t : Tx s) (st : Status) (old : Nat) : Tx s :=
      let v := t.freeBytes 56
      v.1.answerPeer p ptATOMR st (natLe 8 old ++ v.2)
    match t.now.windowCheck p p.addr 1 with
    | .error st => t.nak p st
    | .ok _ =>
      if !isSpad p.addr then t.nak p .RANGE
      else
        match t.now.packetAtom p.payload with
        | none => reply t .RANGE 0
        | some o =>
          let r := t.atomMem .peer o p.addr n (leNat ((p.payload.drop 8).take 8)) restarts
          reply r.1 r.2.1 r.2.2)

/-- Cluster, RID and first line of a CONTRIB or RRD. -/
def Packet.redAt (p : Packet) : Nat × Nat × Nat := (bits p.addr 42 40, bits p.addr 39 32, bits p.addr 30 14)

/-- PLP_CONTRIB (R256, R362): every line must be one that the open reduction takes; then they are added. -/
def execPlpContrib (l : Fin 25) (cls : Fin 2) (s : State) : Host.Outcome State Fault Refusal :=
  done ((begin s).takeTyped l cls ptCONTRIB fun t p =>
    let a := p.redAt
    let cidx := bits p.aux 9 0
    let r := (t.clustersAt a.1).reduction a.2.1
    if (List.range p.len).any fun k => r.refuses cidx (a.2.2 + k) then t.nak p .RANGE
    else
      let t := t.answerPeer p ptACCEPT .OK
      (t.forEach (List.range p.len) fun t k =>
        (t.contribute a.1 a.2.1 cidx (a.2.2 + k) (some (bytesWords ((p.payload.drop (64 * k)).take 64)))).1).answerPeer p ptDONE .OK)

/-- Lines of a reduction for an RRD: none while it has not sealed. -/
def Reduction.span (r : Reduction) (line : Nat) : Nat → Option (List Byte × Status)
  | 0 => some ([], .OK)
  | n + 1 =>
    match r.readLine line with
    | none => none
    | some .poison => some ([], .POISON)
    | some (.refused st) => some ([], st)
    | some (.ok bs) => (r.span (line + 1) n).map fun v => if v.2 = .OK then (bs ++ v.1, .OK) else ([], v.2)

/-- Answer an RRD, if its buffer has sealed; a closed buffer or lines outside it are refused (R256, R362). -/
def Tx.answerRrd (t : Tx s) (p : Packet) : Tx s × Bool :=
  let a := p.redAt
  let n := p.aux % 32 + 1
  let r := (t.clustersAt a.1).reduction a.2.1
  if !r.isOpen || r.len < a.2.2 + n then (t.nak p .RANGE, true)
  else
    match r.span a.2.2 n with
    | some v => (t.answerPeer p ptRDATA v.2 v.1, true)
    | none => (t, false)

/-- PLP_RRD (R362): answered, or waiting for the seal; the 257th that waits on a cluster is BUSY. -/
def execPlpRrd (l : Fin 25) (cls : Fin 2) (s : State) : Host.Outcome State Fault Refusal :=
  done ((begin s).takeTyped l cls ptRRD fun t p =>
    match t.answerRrd p with
    | (t, true) => t
    | (t, false) =>
      if 256 ≤ (t.clustersAt p.redAt.1).rrds.length then t.nak p .BUSY
      else t.modClusters p.redAt.1 fun c => { c with rrds := c.rrds ++ [p] })

/-- At a boundary, the RRDs of a cluster whose buffers have sealed or closed are answered. -/
def Tx.answerRrds (t : Tx s) (cl : Nat) : Tx s :=
  let ps := (t.clustersAt cl).rrds
  (t.modClusters cl fun c => { c with rrds := [] }).forEach ps fun t p =>
    match t.answerRrd p with
    | (t, true) => t
    | (t, false) => t.modClusters cl fun c => { c with rrds := c.rrds ++ [p] }

/-! ### Answers to this module's transactions -/

/-- The outstanding transaction that an answer names, if the answer can be its. -/
def State.answered (s : State) (p : Packet) : Option PeerTxn :=
  let x := s.peersAt p.tag
  if x.live && (x.packet.mc || x.packet.dst = p.src) then some x else none

/-- Keep a transaction, or end it once nothing is awaited. -/
def Tx.keepPeer (t : Tx s) (tag : Nat) (x : PeerTxn) : Tx s :=
  t.putPeers tag (if x.accepts = 0 && x.finals = 0 then {} else x)

/-- Does the tile still work for the transaction's record? -/
def State.originHere (s : State) (i : Nat) (x : PeerTxn) : Bool := (s.tilesAt i).rec? = x.rec? && s.working i

/-- The status's own error of a tile's access unit. -/
def peerErr (st : Status) (g : Nat) : Err := { status := st, cls := st.cls, src := unitAccess, addr := g / 64 * 64 }

/-- The lines of a read that a tile awaits, by the number under which it keeps them. -/
def PeerTxn.keys (x : PeerTxn) : List Nat := (List.range (x.packet.aux % 32 + 1)).map (x.gaddr / 64 + ·)

/-- The load that a descriptor read fetches: its place in the record's list. -/
def State.loadOf (s : State) (cl : Nat) (x : PeerTxn) : Option (Nat × DescLoad) :=
  ((s.recordsAt (x.rec?.getD 0)).loads.zipIdx.find? fun v =>
    v.1.cluster = cl && v.1.asked && v.1.got.isNone && v.1.addr / 64 * 64 = x.gaddr).map fun v => (v.2, v.1)

/-- A transaction fails in its own record (R337, R364): the transfer, program or load that issued it, or the core. -/
def Tx.failOrigin (t : Tx s) (x : PeerTxn) (st : Status) : Tx s :=
  match x.origin with
  | .transfer i id => if t.now.originHere i x then t.failTransfer i id st x.gaddr else t
  | .fetch i =>
    if t.now.originHere i x then
      (t.modTiles i fun y => { y with asked := y.asked.filter fun k => !x.keys.contains k }).stopTile i (peerErr st x.gaddr)
    else t
  | .store i => if t.now.originHere i x then t.stopTile i (peerErr st x.gaddr) else t
  | .descriptor cl =>
    match t.now.loadOf cl x with
    | some v => t.loadArrives (x.rec?.getD 0) v.1 none st
    | none => t
  | .core k => t.emit (.reply (.core k) st.code [])

/-- A request has been accepted by all that answer it (R332, R353): its tile goes on. -/
def Tx.acceptedAll (t : Tx s) (x : PeerTxn) : Tx s :=
  match x.origin with
  | .transfer i id =>
    if t.now.originHere i x then
      t.modTiles i fun y =>
        match y.transfer id with
        | some v => y.setTransfer { v with waiting := v.waiting - 1 }
        | none => y
    else t
  | .store i => if t.now.originHere i x then t.endProgram i else t
  | _ => t

/-- PLP_ACCEPT (R353). -/
def execPlpAccept (l : Fin 25) (cls : Fin 2) (s : State) : Host.Outcome State Fault Refusal :=
  done ((begin s).takeTyped l cls ptACCEPT fun t p =>
    match t.now.answered p with
    | none => t
    | some x =>
      if x.accepts = 0 then t
      else
        let x := { x with accepts := x.accepts - 1 }
        let t := t.keepPeer p.tag x
        t.when (x.accepts = 0) fun t => t.acceptedAll x)

/-- PLP_DONE (R338). -/
def execPlpDone (l : Fin 25) (cls : Fin 2) (s : State) : Host.Outcome State Fault Refusal :=
  done ((begin s).takeTyped l cls ptDONE fun t p =>
    match t.now.answered p with
    | none => t
    | some x => t.keepPeer p.tag { x with finals := x.finals - 1 })

/-- The tile of a transaction. -/
def Origin.tile : Origin → Nat
  | .transfer i _ | .fetch i | .store i => i
  | .descriptor cl => 8 * cl
  | .core _ => 0

/-- A final outcome is a failure (R338, R339): before the CQE of its record the record fails with it, else and for a firmware core it
is a late error, unless a reset ended the record (R511). The records of a batch that ended together fail together while they have no CQE. -/
def Tx.failedOutcome (t : Tx s) (x : PeerTxn) (st : Status) : Tx s :=
  let i := x.origin.tile
  if x.mute then t
  else match x.origin, x.rec? with
  | .core k, _ => t.lateError (some k) 0 0 x.gaddr 0 st
  | _, none => t.lateError none x.qid x.ridx x.gaddr i st
  | _, some r =>
    let log (t : Tx s) : Tx s := t.logError .TILE i { peerErr st x.gaddr with rec? := some r }
    if (t.recordsAt r).stage = .dispatched then (log t).failRecord (some r) (i / 8) st 0
    else
      match (t.now.records.filter fun k => k.2.stage = .finished && k.2.leader = r).map (·.1) with
      | [] => t.lateError none x.qid x.ridx x.gaddr i st
      | rs => (log t).forEach rs fun t k => t.failRecord (some k) (i / 8) st 0

/-- PLP_FAIL (R338, R339). -/
def execPlpFail (l : Fin 25) (cls : Fin 2) (s : State) : Host.Outcome State Fault Refusal :=
  done ((begin s).takeTyped l cls ptFAIL fun t p =>
    match t.now.answered p with
    | none => t
    | some x => (t.keepPeer p.tag { x with finals := x.finals - 1 }).failedOutcome x (statusOfCode (p.aux % 256)))

/-- PLP_NAK (R337, R364): NOT_READY and BUSY are sent again after the hint, anything else fails the transaction. -/
def execPlpNak (l : Fin 25) (cls : Fin 2) (s : State) : Host.Outcome State Fault Refusal :=
  done ((begin s).takeTyped l cls ptNAK fun t p =>
    match t.now.answered p with
    | none => t
    | some x =>
      let st := statusOfCode (p.aux % 256)
      if st = .NOT_READY || st = .BUSY then t.putPeers p.tag { x with retry := x.retry ++ [p.src] }
      else
        (t.keepPeer p.tag { x with accepts := x.accepts - 1, finals := x.finals - 1 }).failOrigin x st)

/-- NAK_RESEND (R364): the hint of a refused request is over; it goes again to those that refused it, or, once `past` says that
ORDER.PWTMO from its first send has passed, fails with TIMEOUT. -/
def execNakResend (tag : BitVec 16) (past : Bool) (s : State) : Host.Outcome State Fault Refusal :=
  let t := begin s
  let x := t.peersAt tag.toNat
  if x.retry = [] then done t
  else
    let t := t.putPeers tag.toNat { x with retry := [] }
    if past then done ((t.putPeers tag.toNat {}).failOrigin x .TIMEOUT)
    else done (t.forEach x.retry fun t d => t.sendPacket { x.packet with dst := d, mc := false, tag := tag.toNat })

/-- PEER_WRITE_TIMEOUT (R338, R342): ORDER.PWTMO has passed. Of an accepted write each missing answer is a TIMEOUT outcome; a
request without its acceptance or its data fails in its own record. -/
def execPeerWriteTimeout (tag : BitVec 16) (s : State) : Host.Outcome State Fault Refusal :=
  let t := begin s
  let x := t.peersAt tag.toNat
  if !x.live then done t
  else
    let t := t.putPeers tag.toNat {}
    if hasOutcome x.packet.type && x.accepts = 0 then
      done (t.forEach (List.range x.finals) fun t _ => t.failedOutcome x .TIMEOUT)
    else done (t.failOrigin x .TIMEOUT)

/-- Read lines of a transaction reach what asked for them. -/
def Tx.landRead (t : Tx s) (x : PeerTxn) (bs : List Byte) : Tx s :=
  match x.origin with
  | .transfer i id =>
    if t.now.originHere i x then
      let t := t.acceptedAll x
      t.forEach (List.range (bs.length / 64)) fun t j => t.landLine i id (x.pos + j) (some ((bs.drop (64 * j)).take 64))
    else t
  | .fetch i =>
    if t.now.originHere i x then
      t.modTiles i fun y =>
        let mine := x.keys.filter y.asked.contains
        { y with
          asked := y.asked.filter fun k => !mine.contains k
          fetched := y.fetched ++ mine.map fun k => (k, (bs.drop (64 * (k - x.gaddr / 64))).take 64) }
    else t
  | .store _ => t
  | .descriptor cl =>
    match t.now.loadOf cl x with
    | some v => t.loadArrives (x.rec?.getD 0) v.1 (some ((bs.drop (v.2.addr % 64)).take 32)) .OK
    | none => t
  | .core k => t.emit (.reply (.core k) 0 bs)

/-- A read that gives POISON poisons the rows it would have filled (R342), and fails. -/
def Tx.poisonedRead (t : Tx s) (x : PeerTxn) : Tx s :=
  match x.origin with
  | .transfer i id =>
    if t.now.originHere i x then
      (t.forEach (List.range (x.packet.aux % 32 + 1)) fun t j => t.landLine i id (x.pos + j) none).failTransfer i id .POISON x.gaddr
    else t
  | _ => t.failOrigin x .POISON

/-- PLP_RDATA (R338, R352): the lines asked for, or a status; a reply of another length is PROTO. -/
def execPlpRdata (l : Fin 25) (cls : Fin 2) (s : State) : Host.Outcome State Fault Refusal :=
  done ((begin s).takeTyped l cls ptRDATA fun t p =>
    match t.now.answered p with
    | none => t
    | some x =>
      let t := t.putPeers p.tag {}
      match statusOfCode (p.aux % 256) with
      | .OK => if p.len = x.packet.aux % 32 + 1 then t.landRead x p.payload else t.failOrigin x .PROTO
      | .POISON => t.poisonedRead x
      | st => t.failOrigin x st)

/-- PLP_ATOMR (R352): the old value, or a status, for the core that asked. -/
def execPlpAtomr (l : Fin 25) (cls : Fin 2) (s : State) : Host.Outcome State Fault Refusal :=
  done ((begin s).takeTyped l cls ptATOMR fun t p =>
    match t.now.answered p with
    | none => t
    | some x =>
      let t := t.putPeers p.tag {}
      match x.origin, statusOfCode (p.aux % 256) with
      | .core k, st => t.emit (.reply (.core k) st.code (p.payload.take 8))
      | _, .OK => t
      | _, st => t.failOrigin x st)

/-! ### Control packets (R366, R368) -/

/-- EPOCH_SET (R366): `since` is the reference cycles since the module's last boundary. Within its interval at a locked follower the
count is set at the next boundary; any other is counted as late. -/
def execEpochSet (l : Fin 25) (cls : Fin 2) (since : Nat) (s : State) : Host.Outcome State Fault Refusal :=
  done ((begin s).takeTyped l cls ptEPOCHSET fun t p =>
    let len := t.fldEff EPOCH.CTL.LEN
    if t.flag EPOCH.STAT.LOCKED && len ≤ 2 * (since + 384) && since + 384 ≤ len then
      t.modEpoch fun e => { e with setTo := some ((leNat (p.payload.take 8) + 1) % 2 ^ 64) }
    else t.bump ROUTER.ESET.LATE)

/-- QUAR (R368): the partner has quarantined the link, which takes it down here. -/
def execQuar (l : Fin 25) (cls : Fin 2) (s : State) : Host.Outcome State Fault Refusal :=
  done ((begin s).takeTyped l cls ptQUAR fun t _ =>
    if t.now.linkState l = linkUP then t.linkDown l else t)

end Sys2Proof.Machine
end

