-- ==== Sys2Proof/Machine/Epoch.lean ====
section
/-!
DEFINITION. Epochs and synchronisation (ch. 13): the epoch boundary with everything that happens at it (R303, R311 and the rules that
name a boundary), captures and misses of a follower (R305 to R308), and the writes and reads of the EPOCH page (R304, R321, R366).
-/

namespace Sys2Proof.Machine

variable {s : State}

/-! ### Synchronisation (R305 to R308) -/

/-- The role in effect: 0 standalone, 1 root, 2 follower. -/
def Tx.role (t : Tx s) : Nat := t.fldEff EPOCH.CTL.ROLE

/-- Does the generator judge SYNC_IN: a follower, not in SLUMBER or module DOZE? -/
def Tx.follows (t : Tx s) : Bool :=
  t.role = 2 && !t.now.tripped && t.fld PWR.STATE.MODULE ≠ 2 && t.fld PWR.STATE.MODULE ≠ 3

/-- A pulse is captured with error `e` (R306 to R308): the epoch is slewed by `e` clamped to ±64, and the fourth capture in a row
with |e| ≤ 16 locks the follower. -/
def Tx.capture (t : Tx s) (e : Int) : Tx s :=
  let good := if e.natAbs ≤ 16 then t.now.epoch.good + 1 else 0
  let t := t.modEpoch fun x => { x with taken := true, slew := max (-64) (min 64 e), good := good }
  let t := (t.setFld EPOCH.STAT.ERR (e % 2 ^ 11).toNat).setFld EPOCH.STAT.MISS 0
  let t := t.when (64 < e.natAbs) fun t => t.bump EPOCH.SYNCCNT.CLAMP
  if 4 ≤ good && !t.flag EPOCH.STAT.LOCKED then (t.setFld EPOCH.STAT.LOCKED 1).raiseIrq .EPOCH 0 0 else t

/-- The error of a pulse that arrives `at_` cycles after the module's own boundary: it is expected DELAY cycles after it (R306). -/
def State.syncError (s : State) (at_ : Int) : Int := at_ - (begin s).fldEff EPOCH.SYNCDLY.DELAY

/-- SYNC_IN_PULSE (R305, R306): a pulse arrives `at_` cycles after the own boundary to which it belongs (before it where negative).
In acquisition it places the following boundary LEN − DELAY cycles after itself, so the epoch is longer than LEN by the whole error,
and capture begins; else it is captured within ±512, once an epoch. -/
def execSyncInPulse (at_ : Int) (s : State) : Host.Outcome State Fault Refusal :=
  let t := begin s
  let e := s.syncError at_
  if !t.follows then done t
  else if t.flag EPOCH.STAT.ACQ then
    done (((t.setFld EPOCH.STAT.ACQ 0).setFld EPOCH.STAT.LOST 0).modEpoch fun x => { x with taken := true, good := 0, slew := e })
  else if s.epoch.taken || 512 < e.natAbs then done t
  else done (t.capture e)

/-- SYNC_LOST (R308): after the eighth miss the follower is no longer locked, and acquires again. The spec does not state the status
that is logged: free. -/
def Tx.syncLost (t : Tx s) : Tx s :=
  let st := statusOfCode (Config.draw t.now.fresh % 256)
  let t := (t.freshen.reacquire.setFld EPOCH.STAT.LOST 1).raiseIrq .EPOCH 0 1
  ((t.logStatus .EPOCH 0 st).bump EPOCH.SYNCCNT.LOSTCNT).lifeCount 9

/-- SYNC_MISS (R306 to R308): the window closes without a pulse, and the epoch stays at LEN. -/
def execSyncMiss (s : State) : Host.Outcome State Fault Refusal :=
  let t := begin s
  if !t.follows || t.flag EPOCH.STAT.ACQ || s.epoch.taken then done t
  else
    let t := (t.bump EPOCH.STAT.MISS).modEpoch fun x => { x with good := 0, slew := 0 }
    done (t.when (8 ≤ t.fld EPOCH.STAT.MISS) fun t => t.syncLost)

/-! ### The EPOCH page (R304, R321, R366) -/

/-- A write of EPOCH.CTL (R304, R305): from the next boundary; refused while a record is dispatched, or with a value out of range. -/
def Tx.epochCtl (t : Tx s) (len role : Nat) (det : Bool) : Tx s :=
  if len < 1024 || 65536 < len || role = 3 then t.logStatus .EPOCH 0 .RANGE
  else if t.now.dispatchedOn 0xFF then t.logStatus .EPOCH 0 .STATE
  else t.writeDeferred (EPOCH.CTL.LEN.addr 0 0) (BitVec.ofNat 32 (bnat det <<< 31 + role <<< 29 + len))

/-- EPOCH_CTL_WRITE (R304). -/
def execEpochCtlWrite (o : RegFrom) (len : BitVec 17) (role : BitVec 2) (det : Bool) (s : State) :
    Host.Outcome State Fault Refusal :=
  done ((begin s).guarded o .EPOCH 0 fun t => t.epochCtl len.toNat role.toNat det)

/-- EPOCH_COUNTLO_READ (R321, R401): a read of EPOCH.COUNTLO, or of FN.EPOCHLO of a function, latches the high word for the read of
it that follows. -/
def execEpochCountloRead (o : RegFrom) (fn : Option (Fin 64)) (s : State) : Host.Outcome State Fault Refusal :=
  let lo := s.fld EPOCH.COUNTLO.COUNT
  let latch (k : Nat) (t : Tx s) : Tx s := t.modEpoch fun x => { x with latch := mapInsert x.latch k (s.fld EPOCH.COUNTHI.COUNT) }
  done (match fn with
    | none => (begin s).readGuarded o .EPOCH 0 0x110 4 lo (latch 0)
    | some f => (begin s).readGuarded o .FN f 0x140 4 lo (latch (1 + f)))

/-- Send EPOCH_SET with the count (R366), from a root or from a locked follower whose count is adopted. -/
def Tx.sendEpochSet (t : Tx s) : Tx s :=
  if t.role = 1 || (t.flag EPOCH.STAT.LOCKED && t.now.epoch.adopted) then
    let v := t.freeBytes 56
    v.1.sendPacket { type := ptEPOCHSET, mc := t.flag ROUTER.ESETDST.MC, len := 1, dst := t.fld ROUTER.ESETDST.DST,
                     payload := natLe 8 t.now.epochCount ++ v.2 }
  else t

/-- A write of ROUTER.ESET.SEND: the packet leaves at the next half epoch, of this epoch or, past its half, of the next. -/
def Tx.esetSend (t : Tx s) (past : Bool) : Tx s :=
  if past then t.modEpoch fun x => { x with esetWaits := true } else t.sendEpochSet

/-- ESET_SEND (R366). -/
def execEsetSend (o : RegFrom) (past : Bool) (s : State) : Host.Outcome State Fault Refusal :=
  done ((begin s).guarded o .ROUTER 0 fun t => t.esetSend past)

/-! ### The boundary: count, registers, power -/

/-- EPOCH.COUNT goes up by one, or to the count that an EPOCH_SET gave, which is then adopted (R303, R366). -/
def Tx.countEpoch (t : Tx s) : Tx s :=
  let x := t.now.epoch
  let c := (x.setTo.getD (t.now.epochCount + 1)) % 2 ^ 64
  let t := (t.setFld EPOCH.COUNTLO.COUNT (c % 2 ^ 32)).setFld EPOCH.COUNTHI.COUNT (c / 2 ^ 32)
  t.putEpoch { x with setTo := none, adopted := x.adopted || x.setTo.isSome, taken := false, slew := 0, esetWaits := false }

/-- Registers whose written value waits for something else than a boundary: LEND its fill (R294), CECFG a patrol period (R493), CAP a
group's end (R472). -/
def waitsLonger (k : Nat) : Bool :=
  k = MEMSYS.LEND.BASE.addr 0 0 || k = ERRSYS.CECFG.CETHR.addr 0 0 || k = PWR.CAP.CAP.addr 0 0

/-- Written values take effect; the islands follow DET (R453), a follower starts to acquire (R305), and EPOCH.STAT shows what is then
so (R321). -/
def Tx.commitAll (t : Tx s) : Tx s :=
  let det := t.det
  let role := t.role
  let t := t.forEach ((t.now.deferred.map (·.1)).filter fun k => !waitsLonger k) fun t k => t.commitWord k
  let t := t.when (!det && t.det) fun t => t.detRaise
  let t := if t.role = role then t
    else if t.role = 2 then t.reacquire
    else ((t.setFld EPOCH.STAT.LOCKED 0).setFld EPOCH.STAT.ACQ 0).modEpoch fun x => { x with adopted := false, good := 0 }
  t.modEpoch fun x => { x with shown := (t.regsAt (EPOCH.STAT.ERR.addr 0 0)).toNat }

/-- Islands raised for a preemption that is over go back to their points (R462), and every island to the point it should have. -/
def Tx.boundaryClocks (t : Tx s) : Tx s :=
  (t.putPower { t.now.power with raised := t.now.power.raised.filter fun i =>
    (t.tilesAt i).preempting || t.now.runState i = runSaving }).dvfsApply

/-- The measured power of the wall epoch counts toward its group (R459). -/
def Tx.measure (t : Tx s) (power : Nat) : Tx s :=
  (t.setFld PWR.MEAS.POWER power).putPower { t.now.power with epochs := t.now.power.epochs + 1, sum := t.now.power.sum + power }

/-- Is this boundary, number `k` of its group, skipped (R460, R463)? -/
def Tx.skips (t : Tx s) (k : Nat) : Bool :=
  let n := t.fld PWR.CAPCTL.SKIP
  t.det && (t.now.power.braking || k * n / 16 < (k + 1) * n / 16)

/-- Has the tile an engine occupied or a transfer in flight: of its access stream, a key or weight stream, or a stream program? -/
def Tile.inFlight (x : Tile) : Bool :=
  !x.engines.isEmpty || !x.transfers.isEmpty || x.kstream.isSome || !x.wstreams.isEmpty || x.prog.isSome

/-- What a skipped boundary does (R311): it is counted, work in flight perturbs the next graph epoch, and the brake preempts the
tiles that have a record (R463). -/
def Tx.skipEpoch (t : Tx s) : Tx s :=
  let t := (t.bump EPOCH.SKIPCNT.SKIP).raiseIrq .EPOCH 0 2
  let busy := (List.range 64).filter fun i => (t.tilesAt i).inFlight
  let t := t.forEach busy fun t i => t.modTiles i fun x => { x with ptbNext := true }
  if t.now.power.braking then
    let go := (List.range 64).filter fun i => t.now.working i && t.now.runState i ≠ runSaved && !t.now.power.braked.contains i
    (t.putPower { t.now.power with braked := t.now.power.braked ++ go }).forEach go fun t i => t.preempt i
  else t

/-! ### The boundary: queues, tests, idle tiles -/

/-- Tokens of R387, written contexts (R390) and interrupt timers (R386) of every queue, and sessions that expire (R400). -/
def Queue.boundary (q : Queue) : Queue :=
  let q := q.takeCtx
  { q with tokens := if q.state = 0 then q.tokens else min (q.tokens + q.rate) (16 * q.burst), timer := q.timer.map (· - 1) }

@[inherit_doc Queue.boundary] def Tx.boundaryQueues (t : Tx s) : Tx s :=
  (t.forEach (t.now.queues.map (·.1)) fun t q => t.modQueues q Queue.boundary).forEach (t.now.sessions.map (·.1)) fun t k => t.expire k

/-- Clusters of a mask with nothing dispatched. -/
def State.quiet (s : State) (mask : Nat) : List Nat := (clustersOf mask).filter fun cl => (s.recordsOn cl).isEmpty

/-- At the first boundary with nothing dispatched on it a cluster leaves the enabled mask, is reset after a fault, or starts its LBIST
(R482, R483, R487). -/
def Tx.boundaryTests (t : Tx s) : Tx s :=
  let t := t.forEach (t.now.quiet t.now.tests.retiring) fun t cl =>
    let t := t.putTests { t.now.tests with retiring := t.now.tests.retiring - 2 ^ cl }
    let t := (t.setFld ERRSYS.STATE.RETIRED (t.fld ERRSYS.STATE.RETIRED ||| 2 ^ cl)).setFld (HDR.BLK_CAP.RETIRED .CLUSTER) 1 cl
    t.forEach (clusterTiles cl) fun t i => t.setFld (HDR.BLK_CAP.RETIRED .TILE) 1 i
  let t := t.forEach (t.now.quiet t.now.tests.resets) fun t cl =>
    let t := t.putTests { t.now.tests with resets := t.now.tests.resets - 2 ^ cl }
    (t.forEach (clusterTiles cl) fun t i => t.loseTile i).loseCluster cl
  let x := t.now.tests
  t.when (x.test = 1 && !x.started && (t.now.quiet x.target).length = (clustersOf x.target).length) fun t =>
    t.putTests { x with started := true }

/-- Is an engine occupied that does not stall on a queue? -/
def Tile.executes (x : Tile) : Bool := x.engines.any fun e => !x.stallQ.contains e.unit

/-- The progress watchdog of a running tile (R231): an epoch without progress counts, unless both streams wait at a segment's end. An
engine that is occupied is progress, unless it stalls on a queue. -/
def Tx.boundaryProgress (t : Tx s) : Tx s :=
  t.forEach ((List.range 64).filter fun i => t.now.runState i = runRunning) fun t i =>
    t.modTiles i fun x =>
      { x with idleEpochs := if x.progress || (x.acc.atStop && x.exe.atStop) || x.executes then 0 else x.idleEpochs + 1, progress := false }

/-- A cluster that stays IDLE gates its clocks again and counts an idle epoch (R454, R455). -/
def Tx.boundaryIdle (t : Tx s) : Tx s :=
  t.forEach (List.range 8) fun t cl =>
    if t.now.clusterPower cl = 1 then t.modClusters cl fun c => { c with gated := true, idleEpochs := c.idleEpochs + 1 }
    else t

/-! ### The boundary -/

/-- Records at a boundary: those a function's reset aborts (R380), those that have failed (R32), then the segments, reductions, loads
and noise of the next graph epoch (R199), resumed tiles (R229), and dispatch (R25). -/
def Tx.boundaryRecords (t : Tx s) (skipped : Bool) : Tx s :=
  let t := (t.forEach ((t.now.records.filter fun k => k.2.aborting && k.2.stage = .dispatched).map (·.1)) fun t r => t.abortRecord r).endFlrs
  let t := t.forEach t.now.leaders fun t r => (t.stopFailed r).batchOver r
  let t := t.forEach t.now.leaders fun t r => if skipped then t.sealReds r else t.advanceRecord r
  let t := t.forEach t.now.leaders fun t r => t.resumeRecord r
  t.dispatchAll skipped

/-- EPOCH_BOUNDARY (R303): the epoch generator starts a new epoch; `power` is the measured module power in W. -/
def Tx.epochBoundary (t : Tx s) (power : Nat) : Tx s :=
  if t.now.slumber || t.now.tripped then t
  else
    let send := t.now.epoch.esetWaits
    let k := t.now.power.epochs % 16
    let t := ((t.countEpoch.when send fun t => t.sendEpochSet).boundaryProgress.commitAll.boundaryClocks).measure power
    let skipped := t.skips k
    let t := (t.when skipped fun t => t.skipEpoch).boundaryQueues
    let t := (t.forEach (List.range 8) fun t cl => t.cacheBoundary cl).boundaryTests
    let t := (t.boundaryRecords skipped).boundaryIdle
    let t := t.forEach (List.range 8) fun t cl => if (t.clustersAt cl).rrds.isEmpty then t else t.answerRrds cl
    t.when (t.role = 1 || t.role = 2) fun t => (t.emit (.pin "SYNC_OUT" true)).emit (.pin "SYNC_OUT" false)

@[inherit_doc Tx.epochBoundary] def execEpochBoundary (power : BitVec 16) (s : State) : Host.Outcome State Fault Refusal :=
  done ((begin s).epochBoundary power.toNat)

end Sys2Proof.Machine
end

