-- ==== Sys2Proof/Machine/Hash.lean ====
section
/-!
DEFINITION. The hash unit (R440 to R442): jobs on its sixteen contexts, its two lanes, and digests.
-/

namespace Sys2Proof.Machine

variable {s : State}

/-- A context of the hash unit. -/
def HashUnit.ctx (h : HashUnit) (c : Nat) : HashCtx := mapGet {} h.ctxs c

/-- Replace a context. -/
def HashUnit.setCtx (h : HashUnit) (c : Nat) (x : HashCtx) : HashUnit := { h with ctxs := mapPut {} h.ctxs c x }

/-- Do the contexts 0 to 7 serve the secure world (R440)? -/
def hashSecure (c : Nat) : Bool := c < 8

/-- The requester of a context's source reads (R440). -/
def hashWho (c : Nat) : Who := if c < 8 then .sec else if c < 12 then .fw else .host

/-- Who may write a context: SEC and PMC any; SCH contexts 8 to 11; the PF 12 to 15 (R440). -/
def hashAllows (o : RegFrom) (c : Nat) : Bool :=
  match o with
  | .core k => k < 2 || (k = 2 && 8 ≤ c && c < 12)
  | .fn f => f = 0 && 12 ≤ c

/-- Put ready contexts on free lanes, those of the secure world first (R441); fuel 2. -/
def HashUnit.start : Nat → HashUnit → HashUnit
  | 0, h => h
  | f + 1, h =>
    match (h.ready.find? hashSecure).or h.ready.head? with
    | some c =>
      if h.lanes.length < 2 then HashUnit.start f { h with lanes := h.lanes ++ [c], ready := h.ready.erase c } else h
    | none => h

/-- The context leaves its lane or the queue, and the next ready context starts. -/
def HashUnit.leave (h : HashUnit) (c : Nat) : HashUnit :=
  HashUnit.start 2 { h with lanes := h.lanes.erase c, ready := h.ready.erase c }

/-- A write to a context: as a page of the normal world for one who may make it, else as a page of the secure world
(R423, R440). -/
def Tx.hashGuard (t : Tx s) (o : RegFrom) (c : Nat) (f : Tx s → Tx s) : Tx s :=
  if t.now.tripped then t
  else
    match t.now.gate o .HASH 0 with
    | .pass => if hashAllows o c then f t else (t.logStatus .HASH 0 .DENIED).bump SEC.DENYCNT.WRITE
    | _ => t.guarded o .HASH 0 f

/-- Start the job that a context's register describes (R440, R449). -/
def Tx.hashGo (t : Tx s) (c : Nat) : Tx s :=
  if t.flag HASH.CTX.BUSY 0 c then t.logStatus .HASH 0 .BUSY
  else
    let h := t.now.hash
    let h := if t.flag HASH.CTX.INIT 0 c then h.setCtx c { started := true, alg := t.fld HASH.CTX.ALG 0 c } else h
    (t.setFld HASH.CTX.BUSY 1 0 c).putHash (HashUnit.start 2 { h with ready := h.ready ++ [c] })

/-- Give a context's register its operands, then start the job: a write to a busy context is discarded (R449). -/
def Tx.hashJob (t : Tx s) (c alg : Nat) (init final : Bool) (src len : Nat) : Tx s :=
  if t.flag HASH.CTX.BUSY 0 c then t.logStatus .HASH 0 .BUSY
  else
    let t := ((t.setFld HASH.CTX.ALG alg 0 c).setFld HASH.CTX.INIT (bnat init) 0 c).setFld HASH.CTX.FINAL (bnat final) 0 c
    ((t.setFld HASH.CTX.SRC src 0 c).setFld HASH.CTX.LEN len 0 c).hashGo c

/-- HASH_GO (R440). -/
def execHashGo (o : RegFrom) (c : Fin 16) (alg : BitVec 2) (init final : Bool) (src : BitVec 64) (len : BitVec 40)
    (s : State) : Host.Outcome State Fault Refusal :=
  done ((begin s).hashGuard o c fun t => t.hashJob c alg.toNat init final src.toNat len.toNat)

/-- ABORT discards the message state and ends the context's job (R442). -/
def Tx.hashAbort (t : Tx s) (c : Nat) : Tx s :=
  let t := t.when (t.flag HASH.CTX.BUSY 0 c) fun t =>
    (t.setFld HASH.CTX.BUSY 0 0 c).setFld HASH.CTX.STATUS Status.ABORTED.code 0 c
  t.putHash ((t.now.hash.setCtx c {}).leave c)

/-- HASH_ABORT (R442). -/
def execHashAbort (o : RegFrom) (c : Fin 16) (s : State) : Host.Outcome State Fault Refusal :=
  done ((begin s).hashGuard o c fun t => t.hashAbort c)

/-- The digest of a context's message: the algorithm's where the job has the message's own algorithm from INIT on; a free
value otherwise, the spec naming none. -/
def Tx.hashDigest (t : Tx s) (c alg : Nat) : Tx s × List Byte :=
  let x := t.now.hash.ctx c
  if x.started && x.alg = alg then (t, hashAlg alg x.msg)
  else (t.freshen, natLe (if alg % 2 = 0 then 32 else 48) (Config.draw t.now.fresh))

/-- The register space of a context's digest: 64 bytes, zero after the digest. -/
def Tx.putDigest (t : Tx s) (c : Nat) (d : List Byte) : Tx s :=
  t.putSpan ((Page.HASH).base 0 + 0x400 + 64 * c) 16 (leNat d)

/-- End a running job: feed the source; FINAL writes the digest and zeroes the state; a source that cannot be read, or a
message over 2^40 bytes, leaves the state of ABORT (R440, R442). -/
def Tx.hashDone (t : Tx s) (c : Nat) : Tx s :=
  let src := t.fld HASH.CTX.SRC 0 c
  let len := t.fld HASH.CTX.LEN 0 c
  let alg := t.fld HASH.CTX.ALG 0 c
  let x := t.now.hash.ctx c
  let own := src / 2 ^ 44 = t.now.devId
  let rd := if own then t.now.readRange (hashWho c) (src % 2 ^ 44) len else ([], .RANGE)
  let st := if 2 ^ 40 < x.msg.length + len then .RANGE else rd.2
  let t := t.when own fun t => t.logRead (hashWho c) (src % 2 ^ 44) len
  let t := (t.setFld HASH.CTX.BUSY 0 0 c).setFld HASH.CTX.STATUS st.code 0 c
  if st ≠ .OK then t.putHash ((t.now.hash.setCtx c {}).leave c)
  else
    let t := t.putHash (t.now.hash.setCtx c { x with msg := x.msg ++ rd.1 })
    if t.flag HASH.CTX.FINAL 0 c then
      let r := t.hashDigest c alg
      (r.1.putDigest c r.2).putHash ((r.1.now.hash.setCtx c {}).leave c)
    else t.putHash (t.now.hash.leave c)

/-- HASH_JOB_DONE (R441): the job on a lane ends. -/
def execHashJobDone (c : Fin 16) (s : State) : Host.Outcome State Fault Refusal :=
  let t := begin s
  if t.now.hash.lanes.contains c then done (t.hashDone c) else done t

/-- HASH_LANE_PREEMPT (R441): at the block boundary of the normal job of context `c`, a ready secure job takes its lane; the
normal job waits in front of the others. -/
def execHashLanePreempt (c : Fin 16) (s : State) : Host.Outcome State Fault Refusal :=
  let t := begin s
  let h := t.now.hash
  match h.ready.find? hashSecure with
  | some d =>
    if h.lanes.contains c && !hashSecure c then
      done (t.putHash { h with lanes := h.lanes.erase c ++ [d], ready := c.val :: h.ready.erase d })
    else done t
  | none => done t

end Sys2Proof.Machine
end

