-- ==== Sys2Proof/Machine/Management.lean ====
section
/-!
DEFINITION. The management port's MCTP control messages and PLDM (R407, R408), its bus (R532), and PCIe configuration requests
(R371, R517).
-/

namespace Sys2Proof.Machine

variable {s : State}

/-! ### MCTP control (R408)

The spec names the messages and DSP0236 lays their replies out: completion code first (log entry 51). -/

/-- Answer an MCTP control message: from stage 0x20 (R517). -/
def Tx.mctpControl (t : Tx s) (f : Tx s → Tx s × List Byte) : Tx s :=
  if t.now.mgmtUp then (f t).1.emit (.reply .mgmt 0 (f t).2) else t

/-- SET_ENDPOINT_ID (R408): IDs 1 to 254 are assigned. -/
def execSetEndpointId (eid : BitVec 8) (s : State) : Host.Outcome State Fault Refusal :=
  done ((begin s).mctpControl fun t =>
    if eid = 0 || eid = 0xFF then (t, [2])
    else (t.putMgmt { t.now.mgmt with eid := eid.toNat }, [0, 0, eid, 0]))

/-- GET_ENDPOINT_ID (R408). -/
def execGetEndpointId (s : State) : Host.Outcome State Fault Refusal :=
  done ((begin s).mctpControl fun t => (t, [0] ++ natLe 1 t.now.mgmt.eid ++ [0, 0]))

/-- GET_MCTP_VERSION_SUPPORT (R408), for a message type. -/
def execGetMctpVersionSupport (ty : BitVec 8) (s : State) : Host.Outcome State Fault Refusal :=
  done ((begin s).mctpControl fun t => (t, [0] ++ Config.mctpVersions ty.toNat))

/-- GET_MESSAGE_TYPE_SUPPORT (R408): control, PLDM, SPDM and vendor-defined IANA. -/
def execGetMessageTypeSupport (s : State) : Host.Outcome State Fault Refusal :=
  done ((begin s).mctpControl fun t => (t, [0, 4, 0, 1, 5, 0x7F]))

/-! ### PLDM (R407, R408, R517) -/

/-- PLDM_REQUEST: ERROR_NOT_READY in the first-light window; types 0, 2 and 5 are served, an image delivered by type 5 by the rule of
PATCH_STAGE; any other type is refused as unsupported. -/
def execPldmRequest (r : PldmReq) (s : State) : Host.Outcome State Fault Refusal :=
  done ((begin s).mctpControl fun t =>
    if !t.now.ready then (t, [4])
    else
      match r with
      | .image b =>
        let x := t.patchStage b false
        (x.1, if x.2.1 = .OK then [0] else [1])
      | .message ty bs => if ty = 0 || ty = 2 || ty = 5 then (t, [0] ++ Config.pldmReply ty.toNat bs) else (t, [0x20]))

/-! ### The management bus (R532) -/

/-- DYNAMIC_ADDRESS_ASSIGNMENT (R532): on I3C, from stage 0x20. -/
def execDynamicAddressAssignment (a : BitVec 7) (s : State) : Host.Outcome State Fault Refusal :=
  done ((begin s).when (s.fld STRAP.VAL.MGMT = 1 && 0x20 ≤ s.fld RESET.BOOT.STAGE) fun t =>
    t.putMgmt { t.now.mgmt with dynamic := some a.toNat })

/-- SMBUS_CLOCK_LOW_TIMEOUT (R532): strapped to SMBus, the module releases the bus. -/
def execSmbusClockLowTimeout (s : State) : Host.Outcome State Fault Refusal :=
  done ((begin s).when (s.fld STRAP.VAL.MGMT = 0) fun t => (t.emit (.pin "SMB_SCL" true)).emit (.pin "SMB_SDA" true))

/-! ### Configuration requests (R371, R517) -/

/-- Vectors of a function that are pending and no longer masked are sent (R386). -/
def Tx.msixPending (t : Tx s) (f : Nat) : Tx s :=
  t.forEach (List.range (if f = 0 then 2048 else 32)) fun t v =>
    match msixAt f v with
    | none => t
    | some (c, p) =>
      let x := t.now.pcieAt f
      if x.msixOn && !x.msixMask && !bit (t.regsAt c).toNat 0 && bit (t.regsAt p).toNat (v % 32) then
        (t.putRegs p (t.regsAt p &&& ~~~BitVec.ofNat 32 (2 ^ (v % 32)))).emit (.msix f v)
      else t

/-- A configuration request's effect and reply bytes. -/
def Tx.configOp (t : Tx s) (f : Nat) (op : CfgOp) : Tx s × List Byte :=
  match op with
  | .read dw =>
    let w := ((t.pcieAt f).words.find? (·.1 = dw.toNat)).map (·.2)
    (t, natLe 4 (Config.cfgRead f dw.toNat w % 2 ^ 32))
  | .write dw v => (t.modPcie f fun x => { x with words := mapInsert x.words dw.toNat v.toNat }, [])
  | .relaxed on => (t.modPcie f fun x => { x with ero := on }, [])
  | .msix on mask => ((t.modPcie f fun x => { x with msixOn := on, msixMask := mask }).msixPending f, [])
  | .bar4 b => (if f = 0 then t.modPcie 0 fun x => { x with bar4 := 36 + b } else t, [])

/-- CONFIG_REQUEST (R517): Request Retry Status after a POR until the module is ready or in the fatal state; else answered from the
configuration space. -/
def execConfigRequest (f : Fin 64) (op : CfgOp) (s : State) : Host.Outcome State Fault Refusal :=
  let t := begin s
  if s.tripped then done t
  else if !s.ready && s.fw.afterPor && !s.fatal then done (t.emit (.reply (.cfg f) pcieRRS []))
  else
    let r := t.configOp f op
    done (r.1.emit (.reply (.cfg f) pcieSC r.2))

end Sys2Proof.Machine
end

