-- ==== Sys2Proof/Machine/Spdm.lean ====
section
/-!
DEFINITION. Attestation (R437 to R439): SEC as an SPDM responder on the PF's CMA/SPDM DOE mailbox and on MCTP message type 5, and
the DOE mailboxes themselves (R371). The spec names requests, capabilities, algorithms and measurement blocks; how messages lay
them out, and what a signature covers, is DSP0274 1.2 and 1.3 (log entry 52).
-/

namespace Sys2Proof.Machine

variable {s : State}

/-! ### Measurements (R439) -/

/-- The bytes of a table window's words, from `lo`. -/
def State.windowBytes (s : State) (lo n : Nat) : List Byte := (List.range (n / 4)).flatMap fun k => natLe 4 (s.regsAt (lo + 4 * k)).toNat

/-- Prime table entries `lo` to `lo + n − 1`. -/
def State.primeBytes (s : State) (lo n : Nat) : List Byte := (List.range n).flatMap fun k => natLe 16 (s.primesAt (lo + k))

/-- A sealing domain's raw block: state, CLMASK, SHA-384 of the policy, public key, and base, granules and CTX of each region. -/
def State.domainBlock (s : State) (d : Nat) : List Byte :=
  let x := s.domainsAt d
  natLe 1 (bnat x.live) ++ natLe 1 x.clusters ++ (if x.live then x.digest else List.replicate 48 0) ++ natBe 48 x.pubX ++ natBe 48 x.pubY
    ++ (s.regions.filter fun r => r.1 < 64 && r.2.live && r.2.dom = d).flatMap fun r =>
      natLe 8 r.2.base ++ natLe 4 r.2.size ++ natLe 1 (bnat r.2.ctx)

/-- The measurement blocks in order: index, DMTF value type, content. -/
def State.measurements (s : State) : List (Nat × Nat × List Byte) :=
  [(1, 0, Config.romDigest)]
    ++ (List.range 4).map (fun k =>
      let p := s.patches k
      (2 + k, 1, if p.booted = 0xFF then List.replicate 48 0 else sha384 p.running))
    ++ [(6, 0x83, natLe 8 (s.regSpan ((Page.CHIP).base 0 + 0x100) 2) ++ (List.range 4).flatMap (fun k => natLe 4 (s.patches k).floor)
          ++ natLe 1 (bnat s.fw.svc) ++ natLe 1 (s.fld QE.MODE.SERVICE)),
        (7, 3, sha384 (s.primeBytes 0 64 ++ s.fw.vendor.psets.flatMap fun v => v.2.1 ++ v.2.2)),
        (8, 3, sha384 (s.primeBytes 64 64 ++ (List.range 48).flatMap fun k =>
          let x := s.psetsAt (16 + k)
          if x.live then x.digest else [])),
        (9, 3, sha384 (s.windowBytes ((Page.ROUTE).base 0) (Page.ROUTE).size ++ s.windowBytes ((Page.PWIN).base 0) (Page.PWIN).size
          ++ s.windowBytes ((Page.BAR4MAP).base 0) (Page.BAR4MAP).size))]
    ++ (List.range 16).map fun d => (16 + d, 0x83, s.domainBlock d)

/-- A measurement block as GET_MEASUREMENTS returns it. -/
def measBlock (m : Nat × Nat × List Byte) : List Byte :=
  let n := m.2.2.length
  natLe 1 m.1 ++ natLe 1 1 ++ natLe 2 (n + 3) ++ natLe 1 m.2.1 ++ natLe 2 n ++ m.2.2

/-! ### Signatures (R438) -/

/-- The bytes of a string. -/
def ascii (x : String) : List Byte := x.toList.map fun c => BitVec.ofNat 8 c.toNat

/-- What SPDM 1.2 and 1.3 put before the hash of the messages that a signature covers. -/
def spdmPrefix (ver : Byte) (context : String) : List Byte :=
  let p := ascii "dmtf-spdm-v1." ++ [BitVec.ofNat 8 (0x30 + ver.toNat % 16), 0x2E, 0x2A]
  let c := ascii context
  p ++ p ++ p ++ p ++ List.replicate (36 - c.length) 0 ++ c

/-- The SHA-384 of the SEC patch that runs. -/
def State.secDigest (s : State) : List Byte := sha384 (s.patches 0).running

/-- The signature of messages under the alias key, with a fresh secret. -/
def Tx.aliasSign (t : Tx s) (ver : Byte) (context : String) (messages : List Byte) : Tx s × List Byte :=
  let e := p384.digest (sha384 (spdmPrefix ver context ++ sha384 messages))
  let k := 1 + Config.draw t.now.fresh % (p384.n - 1)
  let r := p384.sign e (1 + Config.aliasKey t.now.secDigest % (p384.n - 1)) k
  (t.freshen, natBe 48 r.1 ++ natBe 48 r.2)

/-! ### The responder (R437) -/

/-- Why a request is refused, by SPDM's error code. -/
inductive SpdmError
  | invalidRequest
  | busy
  | unexpectedRequest
  | unsupportedRequest
  | versionMismatch
  deriving DecidableEq, Repr

@[inherit_doc SpdmError] def SpdmError.code : SpdmError → Nat
  | .invalidRequest => 0x01
  | .busy => 0x03
  | .unexpectedRequest => 0x04
  | .unsupportedRequest => 0x07
  | .versionMismatch => 0x41

/-- The connection of an endpoint. -/
def SpdmFrom.key : SpdmFrom → Nat
  | .doe => 0
  | .mgmt e => 1 + e.toNat

/-- Send a response to an endpoint. -/
def Tx.spdmSend (t : Tx s) (o : SpdmFrom) (bs : List Byte) : Tx s :=
  match o with
  | .doe => t.emit (.reply (.doe 0) 0 bs)
  | .mgmt _ => t.emit (.reply .mgmt 0 bs)

/-- An ERROR response. -/
def Tx.spdmError (t : Tx s) (o : SpdmFrom) (ver : Byte) (e : SpdmError) (data : Byte := 0) : Tx s :=
  t.spdmSend o [ver, 0x7F, BitVec.ofNat 8 e.code, data]

/-- The bytes of a request. -/
def SpdmReq.bytes (r : SpdmReq) (code : Byte) : List Byte := [r.ver, code, r.p1, r.p2] ++ r.body

/-- Does a request reach SEC: DOE through configuration space, which answers Request Retry Status after a POR until the module is
ready (R517), MCTP from stage 0x20? -/
def State.spdmOpen (s : State) : SpdmFrom → Bool
  | .doe => !s.tripped && !s.fatal && !s.slumber && (s.ready || !s.fw.afterPor)
  | .mgmt _ => s.mgmtUp

/-- Serve a request once it reaches SEC: Busy until stage 0x30 ends (R517); a code outside the supported subset is
UnsupportedRequest; then, but for GET_VERSION, only on a connection with a
version, and in that version; a request other than GET_MEASUREMENTS starts a new list of measurement messages. -/
def Tx.spdmServe (t : Tx s) (o : SpdmFrom) (code : Byte) (r : SpdmReq) (need : Spdm → Bool)
    (f : Tx s → Spdm → Tx s × Except SpdmError (Spdm × List Byte)) : Tx s :=
  if !t.now.spdmOpen o then
    (match o with
     | .doe => t.when (!t.now.tripped && t.now.fw.afterPor && !t.now.ready && !t.now.fatal) fun t => t.emit (.reply (.cfg 0) pcieRRS [])
     | .mgmt _ => t)
  else if t.now.fld RESET.BOOT.STAGE < 0x40 then t.spdmError o r.ver .busy
  else
    let c := t.spdmAt o.key
    if !([0x84, 0xE1, 0xE3, 0x81, 0x82, 0x83, 0xE0] : List Byte).contains code then t.spdmError o r.ver .unsupportedRequest code
    else if code ≠ 0x84 && c.version.isNone then t.spdmError o r.ver .unexpectedRequest
    else if code ≠ 0x84 && (code ≠ 0xE1 || c.caps) && c.version ≠ some r.ver.toNat then t.spdmError o r.ver .versionMismatch
    else if !need c then t.spdmError o r.ver .unexpectedRequest
    else
      match f t (if code = 0xE0 then c else { c with l := [] }) with
      | (t, .ok (c, bs)) => (t.putSpdm o.key c).spdmSend o bs
      | (t, .error e) => t.spdmError o r.ver e

/-- GET_VERSION: versions 1.2 and 1.3; a new connection. Version 0 stands for one not yet chosen. -/
def Tx.spdmVersion (t : Tx s) (o : SpdmFrom) (r : SpdmReq) : Tx s :=
  t.spdmServe o 0x84 r (fun _ => true) fun t _ =>
    if r.ver ≠ 0x10 then (t, .error .versionMismatch)
    else
      let bs : List Byte := [0x10, 0x04, 0, 0, 0, 2, 0x00, 0x12, 0x00, 0x13]
      (t, .ok ({ version := some 0, a := r.bytes 0x84 ++ bs }, bs))

/-- GET_CAPABILITIES: CERT_CAP, CHAL_CAP, MEAS_CAP = 2 and MEAS_FRESH_CAP; the request's version is the connection's. -/
def Tx.spdmCaps (t : Tx s) (o : SpdmFrom) (r : SpdmReq) : Tx s :=
  t.spdmServe o 0xE1 r (fun c => !c.algs) fun t c =>
    if r.ver ≠ 0x12 && r.ver ≠ 0x13 then (t, .error .versionMismatch)
    else if r.body.length < 16 then (t, .error .invalidRequest)
    else
      let x := Config.spdmTimes
      let bs : List Byte := [r.ver, 0x61, 0, 0, 0] ++ natLe 1 x.1 ++ [0, 0, 0x36, 0, 0, 0] ++ natLe 4 x.2.1 ++ natLe 4 x.2.2
      (t, .ok ({ c with version := some r.ver.toNat, caps := true, a := c.a ++ r.bytes 0xE1 ++ bs }, bs))

/-- NEGOTIATE_ALGORITHMS: of what the requester offers, ECDSA P-384, SHA-384 and the DMTF measurement specification. -/
def Tx.spdmAlgs (t : Tx s) (o : SpdmFrom) (r : SpdmReq) : Tx s :=
  t.spdmServe o 0xE3 r (·.caps) fun t c =>
    if r.body.length < 28 then (t, .error .invalidRequest)
    else
      let spec := leAt r.body 2 1 % 2
      let asym := leAt r.body 4 4 &&& 0x80
      let hash := leAt r.body 8 4 &&& 2
      if asym = 0 || hash = 0 then (t, .error .invalidRequest)
      else
        let bs : List Byte := [r.ver, 0x63, 0, 0, 36, 0] ++ natLe 1 spec ++ [0] ++ natLe 4 (4 * spec) ++ natLe 4 asym ++ natLe 4 hash
          ++ List.replicate 16 0
        (t, .ok ({ c with algs := true, a := c.a ++ r.bytes 0xE3 ++ bs }, bs))

/-- GET_DIGESTS: slot 0 alone. -/
def Tx.spdmDigests (t : Tx s) (o : SpdmFrom) (r : SpdmReq) : Tx s :=
  t.spdmServe o 0x81 r (·.algs) fun t c =>
    let bs := [r.ver, 0x01, if r.ver = 0x13 then 1 else 0, 1] ++ sha384 (Config.certChain t.now.secDigest)
    (t, .ok ({ c with b := c.b ++ r.bytes 0x81 ++ bs }, bs))

/-- GET_CERTIFICATE: a portion of slot 0's chain. -/
def Tx.spdmCertificate (t : Tx s) (o : SpdmFrom) (r : SpdmReq) : Tx s :=
  t.spdmServe o 0x82 r (·.algs) fun t c =>
    let chain := Config.certChain t.now.secDigest
    let off := leAt r.body 0 2
    if r.p1.toNat % 16 ≠ 0 || r.body.length < 4 || chain.length ≤ off then (t, .error .invalidRequest)
    else
      let p := (chain.drop off).take (leAt r.body 2 2)
      let bs := [r.ver, 0x02, 0, 0] ++ natLe 2 p.length ++ natLe 2 (chain.length - off - p.length) ++ p
      (t, .ok ({ c with b := c.b ++ r.bytes 0x82 ++ bs }, bs))

/-- A requester's context, which SPDM 1.3 echoes: the eight bytes from `lo`. -/
def SpdmReq.context (r : SpdmReq) (lo : Nat) : List Byte := if r.ver = 0x13 then part r.body lo (lo + 8) else []

/-- CHALLENGE: the chain's digest, a fresh nonce, the summary of the measurements where it is asked for (of the trusted base alone,
which the spec does not name: free), signed under the alias key. -/
def Tx.spdmChallenge (t : Tx s) (o : SpdmFrom) (r : SpdmReq) : Tx s :=
  t.spdmServe o 0x83 r (·.algs) fun t c =>
    if r.p1.toNat % 16 ≠ 0 || r.body.length < (if r.ver = 0x13 then 40 else 32) || !(r.p2 = 0 || r.p2 = 1 || r.p2 = 0xFF) then
      (t, .error .invalidRequest)
    else
      let n := t.freeBytes 32
      let m := if r.p2 = 1 then n.1.freeBytes 48
        else (n.1, if r.p2 = 0xFF then sha384 (t.now.measurements.flatMap measBlock) else [])
      let bs := [r.ver, 0x03, 0, 1] ++ sha384 (Config.certChain t.now.secDigest) ++ n.2 ++ m.2 ++ [0, 0] ++ r.context 32
      let g := m.1.aliasSign r.ver "responder-challenge_auth signing" (c.a ++ c.b ++ r.bytes 0x83 ++ bs)
      (g.1, .ok ({ c with b := [] }, bs ++ g.2))

/-- GET_MEASUREMENTS: the number of blocks (Param2 = 0), all of them (0xFF), or one by index, computed now; signed where Param1
asks for it. -/
def Tx.spdmMeasurements (t : Tx s) (o : SpdmFrom) (r : SpdmReq) : Tx s :=
  t.spdmServe o 0xE0 r (·.algs) fun t c =>
    let signed := r.p1.toNat % 2 = 1
    let ms := t.now.measurements
    let want := if r.p2 = 0 then [] else if r.p2 = 0xFF then ms else ms.filter (·.1 = r.p2.toNat)
    let need := (if signed then 33 else 0) + (if r.ver = 0x13 then 8 else 0)
    if r.body.length < need || (signed && leAt r.body 32 1 % 16 ≠ 0) || (r.p2 ≠ 0 && want = []) then (t, .error .invalidRequest)
    else
      let n := t.freeBytes 32
      let rec_ := want.flatMap measBlock
      let bs := [r.ver, 0x60] ++ natLe 1 (if r.p2 = 0 then ms.length else 0) ++ [0] ++ natLe 1 want.length ++ natLe 3 rec_.length ++ rec_
        ++ n.2 ++ [0, 0] ++ r.context (if signed then 33 else 0)
      let l := c.l ++ r.bytes 0xE0 ++ bs
      if signed then
        let g := n.1.aliasSign r.ver "responder-measurements signing" (c.a ++ l)
        (g.1, .ok ({ c with l := [] }, bs ++ g.2))
      else (n.1, .ok ({ c with l := l }, bs))

/-- GET_VERSION (R437). -/
def execGetVersion (o : SpdmFrom) (r : SpdmReq) (s : State) : Host.Outcome State Fault Refusal := done ((begin s).spdmVersion o r)

/-- GET_CAPABILITIES (R437). -/
def execGetCapabilities (o : SpdmFrom) (r : SpdmReq) (s : State) : Host.Outcome State Fault Refusal := done ((begin s).spdmCaps o r)

/-- NEGOTIATE_ALGORITHMS (R437). -/
def execNegotiateAlgorithms (o : SpdmFrom) (r : SpdmReq) (s : State) : Host.Outcome State Fault Refusal := done ((begin s).spdmAlgs o r)

/-- GET_DIGESTS (R437). -/
def execGetDigests (o : SpdmFrom) (r : SpdmReq) (s : State) : Host.Outcome State Fault Refusal := done ((begin s).spdmDigests o r)

/-- GET_CERTIFICATE (R437, R438). -/
def execGetCertificate (o : SpdmFrom) (r : SpdmReq) (s : State) : Host.Outcome State Fault Refusal :=
  done ((begin s).spdmCertificate o r)

/-- CHALLENGE (R437, R438). -/
def execChallenge (o : SpdmFrom) (r : SpdmReq) (s : State) : Host.Outcome State Fault Refusal := done ((begin s).spdmChallenge o r)

/-- GET_MEASUREMENTS (R437, R439). -/
def execGetMeasurements (o : SpdmFrom) (r : SpdmReq) (s : State) : Host.Outcome State Fault Refusal :=
  done ((begin s).spdmMeasurements o r)

/-! ### The DOE mailboxes (R371) -/

/-- DOE_REQUEST (R371): discovery names its own protocol at index 0 and CMA/SPDM at index 1; an SPDM request goes to the responder,
and one it does not support is answered so. -/
def execDoeRequest (q : DoeReq) (s : State) : Host.Outcome State Fault Refusal :=
  let t := begin s
  match q with
  | .discovery index =>
    if t.now.tripped then done t
    else if !t.now.ready && t.now.fw.afterPor && !t.now.fatal then done (t.emit (.reply (.cfg 0) pcieRRS []))
    else done (t.emit (.reply (.doe 0) 0 (if index = 0 then [0x01, 0x00, 0, 1] else if index = 1 then [0x01, 0x00, 1, 0]
      else [0xFF, 0xFF, 0, 0])))
  | .spdm code r =>
    done (
      if code = 0x84 then t.spdmVersion .doe r
      else if code = 0xE1 then t.spdmCaps .doe r
      else if code = 0xE3 then t.spdmAlgs .doe r
      else if code = 0x81 then t.spdmDigests .doe r
      else if code = 0x82 then t.spdmCertificate .doe r
      else if code = 0x83 then t.spdmChallenge .doe r
      else if code = 0xE0 then t.spdmMeasurements .doe r
      else t.spdmServe .doe code r (fun _ => true) fun t _ => (t, .error .unsupportedRequest))

end Sys2Proof.Machine
end

