-- ==== Sys2Proof/Machine/RegWrite.lean ====
section
/-!
DEFINITION. Register writes (R494 to R503): widths and holes, words held, the common header's controls, and what a write of each
register does; an effect that has a command of its own is shared with it.
-/

namespace Sys2Proof.Machine

variable {s : State}

/-! ### Plain registers -/

/-- Write a word: RW fields take the value, a 1 clears a W1C bit, nothing else changes (R10). -/
def Tx.storeWord (t : Tx s) (a : Nat) (v : Word) : Tx s :=
  match bar0 a with
  | some (p, n, o) =>
    let rs := wordRows p n o
    let rw : Word := BitVec.ofNat 32 (accMask rs .RW)
    let c : Word := BitVec.ofNat 32 (accMask rs .W1C)
    let old := t.regsAt a
    t.putRegs a ((old &&& ~~~rw &&& ~~~(c &&& v)) ||| (v &&& rw))
  | none => t

/-- Write the words of a register or an entry from BAR0 offset `a`. -/
def Tx.storeSpan (t : Tx s) (a : Nat) : Nat → Nat → Tx s
  | 0, _ => t
  | n + 1, v => (t.storeWord a (BitVec.ofNat 32 v)).storeSpan (a + 4) n (v >>> 32)

/-! ### The common header (R499, R501) -/

/-- The bits of a tile page that a soft reset keeps (R502). -/
def srstKeep (o : Nat) : Word :=
  if (0x40 ≤ o && o < 0x64) || o = 0x80 || o = TILE.SPAD_SIZE.SIZE.off || o = TILE.CTXBASE.BASE.off || o = TILE.CTXBASE.BASE.off + 4 then
    0xFFFFFFFF
  else if o = 0x0C then 5
  else if o = TILE.SPTSTAT.SPARE.off then 0x1F0000
  else 0

/-- BLK_STAT.STATE by EN and TEST. -/
def Tx.showState (t : Tx s) (p : Page) (n : Nat) : Tx s :=
  t.setFld (HDR.BLK_STAT.STATE p) (if !t.flag (HDR.BLK_CTRL.EN p) n then (if t.flag (HDR.BLK_CTRL.TEST p) n then 3 else 2) else 1) n

/-- A soft reset of a tile (R499). -/
def Tx.softReset (t : Tx s) (i : Nat) : Tx s :=
  let t := t.irqEdge fun t => t.resetPage .TILE i srstKeep
  (t.putTiles i (t.tilesAt i).worn).showState .TILE i

/-- A refusal by secure-hold (R424): logged in the page and in SEC's, and counted. -/
def Tx.heldPower (t : Tx s) (p : Page) (n : Nat) : Tx s :=
  ((t.logStatus p n .DENIED).logStatus .SEC 0 .DENIED).bump SEC.DENYCNT.POWER

/-- The cluster that a TILE or CLUSTER page belongs to. -/
def pageCluster (p : Page) (n : Nat) : Nat := if p = .TILE then n / 8 else n

/-- The tiles of a block. -/
def blockTiles (p : Page) (n : Nat) : List Nat := if p = .TILE then [n] else (List.range 8).map (8 * n + ·)

/-- A new value of EN (R499). -/
def Tx.writeEn (t : Tx s) (p : Page) (n : Nat) (en : Bool) : Tx s :=
  let cl := pageCluster p n
  if t.flag (HDR.BLK_CTRL.EN p) n = en then t
  else if t.now.graphsOn (2 ^ cl) || t.now.placedOn (2 ^ cl) then t.logStatus p n .STATE
  else (t.setFld (HDR.BLK_CTRL.EN p) (bnat en) n).showState p n

/-- A new value of TEST (R499). -/
def Tx.writeTest (t : Tx s) (p : Page) (n : Nat) (on : Bool) : Tx s :=
  if t.flag (HDR.BLK_CTRL.TEST p) n = on then t
  else if on then
    if t.flag QE.MODE.SERVICE || t.now.anyDomain then t.logStatus p n .DENIED
    else if t.flag (HDR.BLK_CTRL.EN p) n then t.logStatus p n .STATE
    else (t.setFld (HDR.BLK_CTRL.TEST p) 1 n).showState p n
  else ((t.setFld (HDR.BLK_CTRL.TEST p) 0 n).forEach (blockTiles p n) fun t i => t.softReset i).showState p n

/-- A write of SRST on a TILE page (R499). -/
def Tx.writeSrst (t : Tx s) (i : Nat) : Tx s :=
  let st := t.now.runState i
  if st = runIdle || st = runSaved || st = runStopped || st = runHalted then t.softReset i else t.logStatus .TILE i .STATE

/-- A write of BLK_CTRL (R499). -/
def Tx.blkCtrl (t : Tx s) (o : RegFrom) (p : Page) (n v : Nat) : Tx s :=
  let en := bit v 0
  let srst := bit v 1
  let test := bit v 2
  if !p.hasBlkCtrl then (if !en || srst || test then t.logStatus p n .RANGE else t)
  else if o.world = .normal && t.flag (HDR.OWNER.HOLD p) n && (srst || (!en && t.flag (HDR.BLK_CTRL.EN p) n) ||
      (test && !t.flag (HDR.BLK_CTRL.TEST p) n)) then t.heldPower p n
  else
    let t := (t.writeEn p n en).writeTest p n test
    if !srst then t else if p = .TILE then t.writeSrst n else t.logStatus p n .RANGE

/-- A write of a header word. A source that stays 1 sets its IRQ_STAT bit again after it is cleared (R501). -/
def Tx.writeHeader (t : Tx s) (o : RegFrom) (p : Page) (n off v : Nat) : Tx s :=
  if off = 0x0C then t.blkCtrl o p n v
  else if off = 0x24 then t.irqEdge fun t => t.setFld (HDR.IRQ_EN p) v n
  else if off = 0x28 then t.irqEdge fun t => t.setFld (HDR.IRQ_STAT p) (t.fld (HDR.IRQ_STAT p) n ||| v) n
  else if off = 0x2C then
    t.irqEdge fun t => t.setFld (HDR.IRQ_STAT p) ((t.fld (HDR.IRQ_STAT p) n &&& (2 ^ 32 - 1 - v % 2 ^ 32)) ||| t.fld (HDR.IRQ_RAW p) n) n
  else t

/-! ### Registers with an effect -/

/-- TILE registers: run control, usable size, background test, context base and window (R233), and controls that take effect at
the next boundary (R49, R72, R150, R195). -/
def Tx.writeTile (t : Tx s) (n off a v : Nat) : Tx s :=
  let settled := let st := t.now.runState n
    st = runIdle || st = runSaved || st = runHalted
  if off = TILE.RUNCTL.HALT.off then
    ((t.haltWrite n (bit v 0)).when (bit v 1) fun t => t.preempt n).when (bit v 2) fun t => t.resume n
  else if off = TILE.SPAD_SIZE.SIZE.off then t.spadSize n (bits v 6 0)
  else if off = TILE.SPTEST.EN.off then t.spTest n (bits v 31 16) (bit v 0)
  else if off = TILE.CTXBASE.BASE.off then (if settled then t.storeSpan a 2 v else t.logStatus .TILE n .STATE)
  else if off = TILE.DLKCTL.WINDOW.off then
    (if settled then t.writeDeferred a (BitVec.ofNat 32 v) else t.logStatus .TILE n .STATE)
  else if off = TILE.LDGCTL.FORCE_TRAP.off || off = TILE.RESCTL.NONCANON_TRAP.off || off = TILE.DMKCTL.SAT_TRAP.off ||
      off = TILE.PCLCTL.RM.off then t.writeDeferred a (BitVec.ofNat 32 v)
  else t.storeWord a (BitVec.ofNat 32 v)

/-- MEMC registers: a regulator, and the wrapper and repair registers of the secure world (R287, R302); a far group has no wrapper. -/
def Tx.writeMemc (t : Tx s) (o : RegFrom) (n : Nat) (m? : Option MemNo) (off k a v : Nat) : Tx s :=
  if off = MEMC.REG.WC.off then
    match m? with
    | some m => t.regulatorWrite (some (m, Fin.ofNat 8 k)) (BitVec.ofNat 32 v)
    | none => t
  else if 12 ≤ n && (off = MEMC.T1500CTL.OP.off || off = MEMC.T1500DATA.DATA.off) then t
  else if off = MEMC.T1500CTL.OP.off then
    let op := bits v 17 16
    t.wrapper o n true fun t => t.shift n (if op = 3 then 0 else op) (bits v 15 0)
  else if off = MEMC.T1500DATA.DATA.off then
    t.wrapper o n false fun t => t.freshen.shiftData n v (Config.draw t.now.fresh % 2 ^ 32)
  else if off = MEMC.RPR.SPPR_EN.off then t.wrapper o n false fun t => t.storeWord a (BitVec.ofNat 32 v)
  else t.storeWord a (BitVec.ofNat 32 v)

/-- LINK.CTL (R347, R368). -/
def Tx.writeLink (t : Tx s) (n off a v : Nat) : Tx s :=
  if off = LINK.CTL.EN.off then
    ((t.linkCtl n (bit v 2) (bit v 1) (bit v 0)).when (bit v 4) fun t => t.linkRelease n).when (bit v 3) fun t => t.linkRetrain n
  else t.storeWord a (BitVec.ofNat 32 v)

/-- ROUTER registers (R358, R366, R370). Where in the epoch a write of ESET.SEND falls is a free value. -/
def Tx.writeRouter (t : Tx s) (o : RegFrom) (off k a v : Nat) : Tx s :=
  if off = ROUTER.CTL.READY.off then t.routerCtl o (bits v 31 16) (bits v 9 4) (bit v 0)
  else if off = ROUTER.ESET.SEND.off then t.when (bit v 0) fun t => t.freshen.esetSend (bit (Config.draw t.now.fresh) 0)
  else if off = ROUTER.BOND.MASK.off then t.routerWrite o fun t => t.bondWrite k (bits v 23 0)
  else t.storeWord a (BitVec.ofNat 32 v)

/-- The queue command of a code (R390); the table names no other, and any other is refused with RANGE. -/
def queueCommand (f code : Nat) (q : Nat) (x : Queue) (t : Tx s) : Tx s × Status :=
  match code with
  | 1 => cmdEnable q x t
  | 2 => cmdSuspend q x t
  | 3 => cmdResume q x t
  | 4 => cmdRelease q x t
  | 5 => cmdReleaseAbort q x t
  | 6 => cmdDrain q x t
  | 7 => cmdDisable q x t
  | 8 => cmdWriteCtx f q x t
  | 9 => cmdReadCtx f q x t
  | _ => (t, .RANGE)

/-- MBOX registers (R409, R421): writes of WIDX, WDATA and GO are discarded and logged while BUSY is 1. -/
def Tx.writeMbox (t : Tx s) (n off a v : Nat) : Tx s :=
  let busy := t.flag MBOX.STAT.BUSY n
  if off = MBOX.CTL.GO.off then
    if bit v 0 then (if busy then t.logStatus .MBOX n .BUSY else (t.storeWord a (BitVec.ofNat 32 v)).mboxGo n)
    else t.storeWord a (BitVec.ofNat 32 v)
  else if off = MBOX.WIDX.INDEX.off then (if busy then t.logStatus .MBOX n .BUSY else t.storeWord a (BitVec.ofNat 32 v))
  else if off = MBOX.WDATA.DATA.off then
    if busy then t.logStatus .MBOX n .BUSY
    else
      let k := t.fld MBOX.WIDX.INDEX n
      (t.modMboxes n fun x => { x with words := mapPut 0 x.words k (v % 2 ^ 32) }).setFld MBOX.WIDX.INDEX ((k + 1) % 2 ^ 11) n
  else t.storeWord a (BitVec.ofNat 32 v)

/-- SEAL.CMD (R429); the table names no other command, and any other ends with RANGE. -/
def Tx.sealCommand (t : Tx s) (code : Nat) : Tx s :=
  t.sealCmd fun x t =>
    match code with
    | 1 => t.domCreate x
    | 2 => t.regCreate x
    | 3 => t.regRelease x
    | 4 => t.domImport x
    | 5 => t.domDestroy x
    | _ => t.sealEnd .RANGE

/-- HASH.CTX[c] as two halves of 64 bits (R440, R449; log entry 53): GO and ABORT lie in the lower. -/
def Tx.writeHash (t : Tx s) (c half a v : Nat) : Tx s :=
  let t := t.when (half = 0 && bit v 6) fun t => t.hashAbort c
  if half = 0 && bit v 6 && !bit v 5 && v % 32 = 0 && v >>> 24 = 0 then t
  else if t.flag HASH.CTX.BUSY 0 c then t.logStatus .HASH 0 .BUSY
  else (t.storeSpan a 2 v).when (half = 0 && bit v 5) fun t => t.hashGo c

/-- ERRSYS registers (R487, R493): a write of STREQ.TEST outside 1 to 5 starts nothing. -/
def Tx.writeErrsys (t : Tx s) (off a v : Nat) : Tx s :=
  if off = ERRSYS.CECFG.CETHR.off then t.cecfg (bits v 23 16) (bits v 15 0)
  else if off = ERRSYS.STREQ.TEST.off then
    let test := bits v 31 28
    if 1 ≤ test && test ≤ 5 then t.testReq test (bits v 23 0) else t.storeWord a (BitVec.ofNat 32 v)
  else t.storeWord a (BitVec.ofNat 32 v)

/-- PWR registers (R453, R458, R472). -/
def Tx.writePwr (t : Tx s) (o : RegFrom) (off k a v : Nat) : Tx s :=
  if off = PWR.REQ.TARGET.off then t.pwrReq (bits v 2 0) (bits v 15 8)
  else if off = PWR.CAP.CAP.off then t.capWrite (bits v 15 0) (bits v 31 16)
  else if off = PWR.DVFS.TARGET.off then t.dvfs o k (bits v 2 0)
  else t.storeWord a (BitVec.ofNat 32 v)

/-- The effect of writing `v` to register or entry number `k` at `off` of a page, from BAR0 offset `a`, `words` words long. -/
def Tx.writeReg (t : Tx s) (o : RegFrom) (p : Page) (n off k a words v : Nat) : Tx s :=
  let plain (t : Tx s) : Tx s := t.storeSpan a words v
  match p with
  | .TILE => t.writeTile n off a v
  | .MUSLIN =>
    if off = MUSLIN.KCCTL.SIZE.off then (t.kcSize n (bits v 3 0)).when (bit v 8) fun t => t.kcFlush n else plain t
  | .SCACHE =>
    if off = SCACHE.SCCTL.RED.off then (t.scRed n (bits v 3 0)).when (bit v 8) fun t => t.scInv n else plain t
  | .MEMC => t.writeMemc o n (if h : n < 28 then some ⟨n, h⟩ else none) off k a v
  | .MEMSYS =>
    if off = MEMSYS.PARTMAP.MAP.off then t.regulatorWrite none (BitVec.ofNat 32 v)
    else if off = MEMSYS.HALFCTL.REQ.off then t.halfCtl (bits v 3 0)
    else if off = MEMSYS.LEND.BASE.off then t.lend (bits v 9 0) (bits v 30 20)
    else plain t
  | .EPOCH =>
    if off = EPOCH.CTL.LEN.off then t.epochCtl (bits v 16 0) (bits v 30 29) (bit v 31)
    else if off = EPOCH.SYNCDLY.DELAY.off then t.writeDeferred a (BitVec.ofNat 32 (bits v 15 0))
    else plain t
  | .ORDER =>
    if off = ORDER.LQBASE.BASE.off then t.lqBase (bits v 43 17)
    else if off = ORDER.PWTMO.TMO.off && bits v 15 0 = 0 then t.logStatus .ORDER 0 .RANGE
    else plain t
  | .LINK => t.writeLink n off a v
  | .ROUTER => t.writeRouter o off k a v
  | .QE => if off = QE.FNQ.BASE.off then t.fnq k (bits v 17 0) (bits v 50 32) else plain t
  | .FN => if off = FN.QCMD.CMD.off then t.queueCmd n (queueCommand n (bits v 3 0)) else plain t
  | .MBOX => t.writeMbox n off a v
  | .SEAL => if off = SEAL.CMD.CMD.off then t.sealCommand (bits v 2 0) else plain t
  | .SERGE => if off = SERGE.SLOTCTL.OP.off then t.slotCtl n (bits v 2 0) (bits v 11 8) (bits v 23 16) (bit v 31) else plain t
  | .PWR => t.writePwr o off k a v
  | .GLM => if off = GLM.EVENT.EV.off then t.eventWrite (bit v 0) else plain t
  | .ERRSYS => t.writeErrsys off a v
  | .RESET => if off = RESET.SWRST.GO.off then t.swrst o (bits v 31 16) (bit v 0) else plain t
  | .LIFE => if off = LIFE.CTL.SNAP.off then (t.lifeSnap (bit v 1)).when (bit v 0) fun t => t.lifeReq else plain t
  | .PWIN => t.pwinWrite o k v
  | .ROUTE => t.routeWrite o k v
  | .MCAST => t.routerWrite o plain
  | .HWMAP => t.hwmap k v
  | .BAR4MAP => t.bar4map k v
  | .MSIXPF => (plain t).msixPending 0
  | .MSIX => (plain t).msixPending n
  | _ => plain t

/-! ### Widths and held words (R495, R496) -/

/-- The words that change together: an entry of a table window whole; a 64-bit register, or half of a wider one, two; else one. -/
def unitWords (p : Page) (r : RegRow) : Nat := if p.isWindow then r.words else min 2 r.words

/-- Has the register a field that a write can change? -/
def RegRow.writable (r : RegRow) : Bool := r.fields.any fun f => f.acc ≠ .RO && f.acc ≠ .RC

/-- A word of a unit of several: held until the word with the highest bits is written, which makes all of them take effect, a word
that is not held standing as it is. -/
def Tx.writeUnit (t : Tx s) (lo words w v : Nat) (f : Nat → Tx s → Tx s) : Tx s :=
  if w + 1 < words then t.putHeld (lo + 4 * w) (some (BitVec.ofNat 32 v))
  else
    let word (j : Nat) : Nat := (((t.now.heldAt (lo + 4 * j)).getD (t.now.regsAt (lo + 4 * j)))).toNat
    let whole := (List.range (words - 1)).foldl (fun m j => m + (word j) <<< (32 * j)) 0 + (v % 2 ^ 32) <<< (32 * w)
    f whole (t.forEach (List.range (words - 1)) fun t j => t.putHeld (lo + 4 * j) none)

/-- The check of a page before a write to its register: RESET.CAUSE and RESET.SWRST are written in the first-light window too
(R517), TILE.SPAD_SIZE and CTXBASE in DOZE (R500), contexts of the hash unit by those that own them (R440). -/
def Tx.writeGate (t : Tx s) (o : RegFrom) (p : Page) (n off k : Nat) (f : Tx s → Tx s) : Tx s :=
  if p = .RESET && (off = RESET.CAUSE.POR.off || off = RESET.SWRST.GO.off) then t.guardedOpen o p n f
  else if p = .HASH && off = HASH.CTX.GO.off then t.hashGuard o k f
  else t.guarded o p n f (p = .TILE && (off = TILE.SPAD_SIZE.SIZE.off || off = TILE.CTXBASE.BASE.off))

/-- A write of one 32-bit word at BAR0 offset `a`. -/
def Tx.writeWord32 (t : Tx s) (o : RegFrom) (a v : Nat) : Tx s :=
  match bar0 a with
  | none => t.guarded o .CHIP 0 fun t => t.logStatus .CHIP 0 .RANGE
  | some (p, n, off) =>
    if !p.isWindow && off < 0x100 then
      t.guarded o p n fun t => if occupied p n off then t.writeHeader o p n off v else t.logStatus p n .RANGE
    else
      match findRow p.rows off with
      | none => t.guarded o p n fun t => if p.isWindow then t.logStatus .CHIP 0 .RANGE else t.logStatus p n .RANGE
      | some (r, k, w) =>
        t.writeGate o p n r.off k fun t =>
          let words := unitWords p r
          let lo := a - 4 * (w % words)
          if !r.writable then t
          else t.writeUnit lo words (w % words) v fun x t =>
            if p = .HASH then t.writeHash k (w / words) lo x else t.writeReg o p n r.off k lo words x

/-- A register write of `n` bytes at BAR0 offset `a` (R495): 4 or 8 bytes, naturally aligned; the words of an access of 8 bytes in
order, the lower first, which is indivisible on a 64-bit register (R496). -/
def Tx.registerWrite (t : Tx s) (o : RegFrom) (a n v : Nat) : Tx s :=
  if (n ≠ 4 && n ≠ 8) || a % n ≠ 0 then t.guarded o .CHIP 0 fun t => t.logStatus .CHIP 0 .RANGE
  else if n = 4 then t.writeWord32 o a (v % 2 ^ 32)
  else (t.writeWord32 o a (v % 2 ^ 32)).writeWord32 o (a + 4) (v >>> 32)

/-! ### The commands -/

/-- REGISTER_WRITE (R495): `n` bytes at a BAR0 offset. -/
def execRegisterWrite (o : RegFrom) (a : BitVec 26) (n : BitVec 4) (v : BitVec 64) (s : State) :
    Host.Outcome State Fault Refusal :=
  done ((begin s).registerWrite o a.toNat n.toNat v.toNat)

/-- BLK_EN_WRITE (R499): BLK_CTRL of a page with a value of EN, its other fields as they are. -/
def execBlkEnWrite (o : RegFrom) (page : BitVec 14) (en : Bool) (s : State) : Host.Outcome State Fault Refusal :=
  let a := 4096 * page.toNat + 0x0C
  done ((begin s).writeWord32 o a (setBits (s.regsAt a).toNat 0 0 (bnat en)))

/-- SRST (R499): BLK_CTRL of a page with SRST, its other fields as they are. -/
def execSrst (o : RegFrom) (page : BitVec 14) (s : State) : Host.Outcome State Fault Refusal :=
  let a := 4096 * page.toNat + 0x0C
  done ((begin s).writeWord32 o a (setBits (s.regsAt a).toNat 1 1 1))

/-- BLK_TEST_WRITE (R499): BLK_CTRL of a page with a value of TEST, its other fields as they are. -/
def execBlkTestWrite (o : RegFrom) (page : BitVec 14) (test : Bool) (s : State) : Host.Outcome State Fault Refusal :=
  let a := 4096 * page.toNat + 0x0C
  done ((begin s).writeWord32 o a (setBits (s.regsAt a).toNat 2 2 (bnat test)))

/-- IRQ_SET_WRITE (R501). -/
def execIrqSetWrite (o : RegFrom) (page : BitVec 14) (v : Word) (s : State) : Host.Outcome State Fault Refusal :=
  done ((begin s).writeWord32 o (4096 * page.toNat + 0x28) v.toNat)

end Sys2Proof.Machine
end

