-- ==== Sys2Proof/Machine/Views.lean ====
section
/-!
DEFINITION. What a register word reads as (R494 to R500): most words are held (`regs`); a word that shows other state of the machine
is computed here. Reads that change something are commands of their own.
-/

namespace Sys2Proof.Machine

variable {s : State}

/-- The bits of a stream's program counter register (R199, R232). -/
def StreamState.view (x : StreamState) : Nat := (x.seg % 2 ^ 16) <<< 16 + 4096 * (x.seg % 2) + x.off % 4096

/-- Which Gauze macro occupies the tile (R170): 0 none, 1 EXTRACT, 2 LWE_KS, 3 MODSW, 4 BLINDROT, 5 REPACK. -/
def Tile.macro (x : Tile) : Nat := ((x.engines.find? (·.unit = unitGauze)).map (·.op)).getD 0

/-- The coordinate that a BLINDROT of the tile works on (R171); else 0. -/
def State.coord (s : State) (i : Nat) : Nat :=
  (((s.tilesAt i).engines.find? (·.unit = unitGauze)).bind fun e => e.gz.map fun g => (s.psetsAt g.pset).lweN - e.left).getD 0

/-- TILE registers that show a tile's state. -/
def State.tileView (s : State) (i o : Nat) : Option Nat :=
  let x := s.tilesAt i
  if o = TILE.WSTACC0.LIVE.off then some (x.shown.getD 0 0)
  else if o = TILE.WSTACC1.LIVE.off then some (x.shown.getD 1 0)
  else if o = TILE.DMKDACC.LIVE.off then some (x.shown.getD 2 0)
  else if o = TILE.GZSTAT.BUSY.off then
    some (bnat x.gauze.isSome <<< 18 + bnat (x.macro ≠ 0) <<< 17 + x.macro % 16 <<< 13 + s.coord i)
  else if o = TILE.STRMSTAT.WAITING.off then
    let es := ((x.prog.map (·.entries)).getD []).zipIdx
    let mask (f : StreamEntry → Bool) : Nat := (es.map fun e => bnat (f e.1) * 2 ^ e.2).sum
    some (bnat x.prog.isSome <<< 16 + mask (!·.ended) <<< 8 + mask (fun e => !e.ended && !x.mayStart e))
  else if o = TILE.PCA.PC.off then some x.acc.view
  else if o = TILE.PCE.PC.off then some x.exe.view
  else if o = TILE.FLAGLO.FLAGS.off then some (x.flags % 2 ^ 32)
  else if o = TILE.FLAGHI.FLAGS.off then some (x.flags / 2 ^ 32 % 2 ^ 32)
  else if TILE.CTR.EVEN.off ≤ o && o < TILE.CTR.EVEN.off + 32 then
    let k := (o - TILE.CTR.EVEN.off) / 4
    some ((x.ctrs.getD (2 * k + 1) 0 % 2 ^ 16) <<< 16 + x.ctrs.getD (2 * k) 0 % 2 ^ 16)
  else none

/-- FN registers: the function's range, the selected queue, the epoch (R321, R402). -/
def State.fnView (s : State) (f o : Nat) : Option Nat :=
  let q := s.localQ f (s.fld FN.QSEL.INDEX f)
  let x := (q.map s.queuesAt).getD {}
  if o = FN.QRANGE.RANGE.off then some (s.fld QE.FNQ.BASE 0 f)
  else if o = FN.QRANGE.RANGE.off + 4 then some (s.fld QE.FNQ.COUNT 0 f)
  else if o = FN.QSTATE.STATE.off then
    some (bnat (!x.late.isEmpty) <<< 31 + bnat x.sid.isSome <<< 30 + (x.sid.getD 0 % 2 ^ 16) <<< 8 + x.state)
  else if o = FN.QPTR.SQTAIL.off then some ((x.head % 2 ^ 16) <<< 16 + x.tail % 2 ^ 16)
  else if o = FN.EPOCHLO.COUNT.off then some (s.epochCount % 2 ^ 32)
  else if o = FN.EPOCHHI.COUNT.off then some (mapGet (s.epochCount / 2 ^ 32) s.epoch.latch (1 + f))
  else none

/-- A SEAL.REGION entry (R448). -/
def Region.view (g : Region) : Nat :=
  bnat g.live <<< 127 + bnat (g.filling || g.releasing) <<< 126 + bnat g.ctx <<< 125 + g.dom % 16 <<< 116 + g.size % 2 ^ 19 <<< 64
    + g.base / 2 ^ 21 % 2 ^ 23 <<< 21

/-- A word of RESET.UPTIME (R505): the model keeps no time in microseconds, so what it counts is a free value. -/
def State.uptimeView (s : State) (o : Nat) : Option Nat :=
  if o = RESET.UPTIME.US.off || o = RESET.UPTIME.US.off + 4 then
    some (Config.draw s.fresh / 2 ^ (8 * (o - RESET.UPTIME.US.off)) % 2 ^ 32)
  else none

/-- The word of a register that shows other state of the machine; none where the word is held. -/
def State.computed (s : State) (p : Page) (n o : Nat) : Option Nat :=
  match p with
  | .TILE => s.tileView n o
  | .FN => s.fnView n o
  | .PRIMETAB =>
    if PRIMETAB.ENTRY.ENTRY.off ≤ o then
      let d := o - PRIMETAB.ENTRY.ENTRY.off
      some (bits (s.primesAt (d / 16)) (32 * (d % 16 / 4) + 31) (32 * (d % 16 / 4)))
    else none
  | .MUSLIN =>
    if o = MUSLIN.KCSTAT.ACTIVE.off then some (bnat (s.keyActive n) <<< 16 + (s.clustersAt n).keyUnits % 64) else none
  | .MBOX => if o = MBOX.RDATA.DATA.off then some (leAt (s.mboxesAt n).reply (4 * s.fld MBOX.RIDX.INDEX n) 4) else none
  | .ORDER =>
    if o = ORDER.PENDSTAT.OUTST.off then
      let q := s.fld ORDER.PENDSEL.QID
      some (min (s.outstanding q) 0xFFFF <<< 16 + bnat !(s.queuesAt q).late.isEmpty)
    else none
  | .ROUTER => if o = ROUTER.OUTST.COUNT.off then some s.peerCount else none
  | .SEAL =>
    if SEAL.REGION.BASE.off ≤ o then
      let d := o - SEAL.REGION.BASE.off
      some (bits (s.regionsAt (d / 16)).view (32 * (d % 16 / 4) + 31) (32 * (d % 16 / 4)))
    else none
  | .EPOCH =>
    if o = EPOCH.COUNTHI.COUNT.off then some (mapGet (s.epochCount / 2 ^ 32) s.epoch.latch 0)
    else if o = EPOCH.STAT.ERR.off then some s.epoch.shown
    else none
  | .RESET => s.uptimeView o
  | .CHIP =>
    if o = CHIP.IRQSUM.SUM.off then some s.irqSum
    else if CHIP.CFGHASH.HASH.off ≤ o then some (leAt s.configHash (o - CHIP.CFGHASH.HASH.off) 4)
    else none
  | _ => none

/-- A page without power reads its reset values, but for BLK_STAT.STATE, which reads OFF, OWNER, and the fields that DOZE keeps
(R500). -/
def State.offView (s : State) (p : Page) (n o : Nat) : Word :=
  let a := p.base n + o
  if o = 0x10 then 5
  else if o = 0x80 || (p = .TILE && dozeKeep o ≠ 0 && s.clusterPower (n / 8) = 2) then s.regsAt a
  else resetWord a

/-- What a 32-bit read at a BAR0 offset returns once it is answered, from the state as it is (R495): zero where no register lies. -/
def State.registerRead (s : State) (a : Nat) : Word :=
  match bar0 a with
  | none => 0
  | some (p, n, o) =>
    if s.pageOff p n then s.offView p n o
    else (BitVec.ofNat 32 ((s.computed p n o).getD (s.regsAt a).toNat)) &&& definedMask a

end Sys2Proof.Machine
end

