-- ==== Sys2Proof/Machine/Reads.lean ====
section
/-!
DEFINITION. Reads of registers (R10, R475, R494 to R500): of ERR_CNT, and of any word, clearing the fields of type RC that it returns.
-/

namespace Sys2Proof.Machine

variable {s : State}

/-- A read of ERR_CNT (R475): it returns and clears the count; a count that is not zero clears OVF and lets the next error of
any class replace the record. -/
def Tx.readErrCnt (t : Tx s) (o : RegFrom) (page : BitVec 14) : Tx s :=
  match bar0 (4096 * page.toNat) with
  | some (p, n, 0) =>
    if p.isWindow then t.answer o .RANGE []
    else
      let v := t.fld (HDR.ERR_CNT.COUNT p) n
      t.readGuarded o p n 0x60 4 v fun t =>
        if v = 0 then t
        else ((t.setFld (HDR.ERR_CNT.COUNT p) 0 n).setFld (HDR.ERR_LOG.OVF p) 0 n).modErrPages (p.base n) fun q =>
          { q with free := true }
  | _ => t.answer o .RANGE []

/-- The word at a BAR0 offset with its fields of type RC cleared (R10). -/
def Tx.clearRc (t : Tx s) (a : Nat) : Tx s :=
  match bar0 a with
  | some (p, n, o) => t.putRegs a (t.regsAt a &&& ~~~(BitVec.ofNat 32 (accMask (wordRows p n o) .RC)))
  | none => t

/-- A 32-bit read of a word (R10, R495): it returns what the register reads as, and clears its fields of type RC; a page without power
keeps what it has (R500). Where no page or window lies it is refused. -/
def Tx.readWord (t : Tx s) (o : RegFrom) (a : Nat) : Tx s :=
  let w := (t.now.registerRead a).toNat
  match bar0 a with
  | some (p, n, off) =>
    if t.now.pageOff p n && t.now.gate o p n = .pass && !t.now.tripped then t.answer o .OK (natLe 4 w)
    else t.readGuarded o p n off 4 w fun t => t.clearRc a
  | none => t.answer o .RANGE []

/-- ERR_CNT_READ (R10, R475): a read of a page's ERR_CNT, or of another word of BAR0: of a word that a command of its own reads, it is
that command. -/
def execErrCntRead (o : RegFrom) (at_ : PageWord) (s : State) : Host.Outcome State Fault Refusal :=
  let t := begin s
  let page := at_.page
  match at_.word with
  | none => done (t.readErrCnt o page)
  | some k =>
    let a := 4096 * page.toNat + 4 * k.toNat
    match bar0 a with
    | some (p, n, off) =>
      if !p.isWindow && off = 0x60 then done (t.readErrCnt o page)
      else if !p.isWindow && 0x40 ≤ off && off < 0x60 then execErrLogRead o page (Fin.ofNat 8 ((off - 0x40) / 4)) false s
      else if a = EPOCH.COUNTLO.COUNT.addr 0 0 then execEpochCountloRead o none s
      else if p = .FN && off = FN.EPOCHLO.COUNT.off then execEpochCountloRead o (some (Fin.ofNat 64 n)) s
      else if a = LIFE.DATA.DATA.addr 0 0 then execLifeDataRead o s
      else done (t.readWord o a)
    | none => done (t.readWord o a)

end Sys2Proof.Machine
end

