-- ==== Sys2Proof/Machine/WeightStream.lean ====
section
/-!
DEFINITION. Weight streams (ch. 06): WSTREAM's operands and refusals (R130 to R132, R290), and the delivery of one block
(R132).
-/

namespace Sys2Proof.Machine

variable {s : State}

/-- WSTREAM's operands (R131, R212). -/
def wstreamOf (w : NInstr) (head : Nat) : WStream :=
  let o := w.opd.toNat
  { head := head, slot := bits o 127 126, r0 := bits o 125 110, nr := bits o 109 94, b0 := bits o 93 78, nb := bits o 77 62,
    order := bit o 61, dest := bit o 60, qn := bits o 59 57, land := bits o 56 32, sig := w.sig.toNat }

/-- The tier that holds a whole range at a global address of this module or, for a peer, may hold it (R130): its windows cover its tiers
and scratchpads only (R360, R495), and how much of them is the peer's to say. -/
def State.withinTier (s : State) (g n : Nat) : Bool :=
  let a := g % 2 ^ 44
  if g / 2 ^ 44 % 2 ^ 16 ≠ s.devId then
    (isNear a && a + n ≤ nearEnd) || (farBase ≤ a && a + n ≤ spadSpace) || (isSpad a && a + n ≤ spadSpace + 64 * 0x2000000)
  else (isNear a && a + n ≤ nearEnd) || (s.isFar a && a + n ≤ farBase + s.farSize)

/-- The first and last byte of the blocks a stream delivers. -/
def WStream.span (v : WStream) (d : Wsd) : Nat × Nat :=
  (d.blockAddr v.r0 v.b0, d.blockAddr (v.r0 + v.nr - 1) (v.b0 + v.nb - 1) + blockBytes d.fmt d.esc - 1)

/-- Bytes the stream lands (DEST = 1), blocks contiguous. -/
def WStream.landBytes (v : WStream) (d : Wsd) : Nat := v.nr * v.nb * blockBytes d.fmt d.esc

/-- Is Damask reading the slot, be it stalled on a queue (R131)? -/
def Tile.slotBusy (x : Tile) (slot : Nat) : Bool :=
  x.engines.any fun e => e.unit = 3 && ((e.op = 1 && bits e.imm 5 4 = slot) || (e.op = 4 && bits e.imm 1 0 = slot))

/-- May the tile open a stream on sealed weights: its cluster sealed, and every block in one sealed region (R132, R290)? -/
def State.sealedStream (s : State) (i : Nat) (v : WStream) (d : Wsd) : Bool :=
  let lo := s.regionOf ((v.span d).1 % 2 ^ 44)
  (s.domainOfCluster (i / 8)).isSome && lo.isSome && d.addr / 2 ^ 44 = s.devId &&
    lo = s.regionOf ((v.span d).2 % 2 ^ 44)

/-- WSTREAM (R131): operands, the WSD and its checks, the header every tile of the cluster agrees on. -/
def wstreamPlan (i : Nat) (w : NInstr) (t : Tx s) : AccessPlan s :=
  let x := t.tilesAt i
  let v := wstreamOf w x.wCount
  let a := bits w.a 43 0
  let c := t.clustersAt (i / 8)
  let head := [a, w.opd.toNat]
  if bits w.a 50 44 ≠ 0 || bits w.opd.toNat 31 0 ≠ 0 || a % 32 ≠ 0 || v.land % 64 ≠ 0 then .refuse .RANGE
  else if x.slotBusy v.slot then .wait
  else
    match t.now.access (.tile i) a with
    | .OK =>
      if t.now.poisoned a 32 then .refuse .POISON
      else
        let d := wsdOfNat (leNat (t.now.read a 32))
        let d := { d with order := v.order }
        let last := d.blockAddr (d.rows - 1) (d.rowblk - 1) + blockBytes d.fmt d.esc
        if !d.legal || !t.now.withinTier d.addr (last - d.addr) || v.nr = 0 || d.rows < v.r0 + v.nr || v.nb = 0 ||
            d.rowblk < v.b0 + v.nb || (!v.dest && !(x.inq.getD v.qn {}).opened) ||
            (v.dest && t.now.spadEnd i < v.land + v.landBytes d) || (c.wheads[x.wCount]?).any (· ≠ head) then .refuse .RANGE
        else if d.isSealed && !t.now.sealedStream i v d then .refuse .DENIED
        else .run fun t =>
          (t.when (c.wheads[x.wCount]? = none) fun t => t.modClusters (i / 8) fun c =>
            { c with wheads := c.wheads ++ [head] }).modTiles i fun x =>
              { x with wCount := x.wCount + 1, wslots := mapInsert x.wslots v.slot d, wstreams := x.wstreams ++ [{ v with wsd := d }] }
    | st => .refuseAt st a

/-- WSTREAM: opens a weight stream on the tile. -/
def execWstream (i : Fin 64) (d : Side) (w : NInstr) (s : State) : Host.Outcome State Fault Refusal :=
  done ((begin s).issueAccess i 0x05 d w (wstreamPlan i w))

/-- Row and block of the stream's next delivery (R131, ORDER). -/
def WStream.place (v : WStream) : Nat × Nat :=
  if v.order then (v.r0 + v.next % v.nr, v.b0 + v.next / v.nr) else (v.r0 + v.next / v.nb, v.b0 + v.next % v.nb)

/-- The block the cluster holds for its tiles, or fetches now through the stream cache: not here yet, a failure, or its
bytes. A tile it reaches is counted, and the eighth removes it. -/
def Tx.fetchBlock (t : Tx s) (i : Nat) (v : WStream) (d : Wsd) : Tx s × Gather :=
  let cl := i / 8
  let a := d.blockAddr v.place.1 v.place.2
  let n := blockBytes d.fmt d.esc
  let g := a / 64 * 64
  let cut (bs : List Byte) : List Byte := (bs.drop (a % 64)).take n
  match (t.clustersAt cl).wblocks.find? fun b => b.head = v.head && b.k = v.next with
  | some b =>
    let rest := (t.clustersAt cl).wblocks.filter (· ≠ b)
    let t := t.modClusters cl fun c =>
      { c with wblocks := if b.reached = 7 then rest else rest ++ [{ b with reached := b.reached + 1 }] }
    (t, match b.data with | some bs => .data bs | none => .fail .POISON a)
  | none =>
    let hold (t : Tx s) (o : Option (List Byte)) : Tx s :=
      t.modClusters cl fun c => { c with wblocks := c.wblocks ++ [⟨v.head, v.next, o, 1⟩] }
    match t.gather i true g (ceilDiv (a + n - g) 64) (.data []) with
    | (t, .data bs) => (hold t (some (cut bs)), .data (cut bs))
    | (t, .fail .POISON at_) => (hold t none, .fail .POISON at_)
    | r => r

/-- The `k`-th weight stream of the tile delivers its next block (R132): to its queue, unless an earlier stream of the
tile still feeds that queue or the queue has no room for it, or to its landing area. A failed block stops the tile. -/
def Tx.deliverBlock (t : Tx s) (i : Nat) (v : WStream) : Tx s :=
  let x := t.tilesAt i
  let drop (t : Tx s) : Tx s :=
    t.modTiles i fun x => { x with wstreams := x.wstreams.filter (·.head ≠ v.head), progress := true }
  let d := v.wsd
  let n := blockBytes d.fmt d.esc
  if !v.dest && (x.room v.qn < n / 4 || x.wstreams.any fun o => o.head < v.head && !o.dest && o.qn = v.qn) then t
  else
    match t.fetchBlock i v d with
    | (t, .wait) => t
    | (t, .fail st a) => (drop t).stopTile i { status := st, cls := st.cls, src := unitAccess, addr := t.now.globalLine a }
    | (t, .data bs) =>
      let t := if v.dest then (t.write (spadBase i + v.land + v.next * n) bs).signal i v.sig
        else t.modTiles i fun x => x.feed v.qn ((bytesWords bs).map fun w => { w := w })
      if v.nr * v.nb ≤ v.next + 1 then (drop t).when (!v.dest) fun t => t.signal i v.sig
      else t.modTiles i fun x =>
        { x with wstreams := x.wstreams.map fun o => if o.head = v.head then { v with next := v.next + 1 } else o
                 progress := true }

/-- WEIGHT_BLOCK_DELIVER (R132). -/
def execWeightBlockDeliver (i : Fin 64) (k : Nat) (s : State) : Host.Outcome State Fault Refusal :=
  let t := begin s
  match (t.tilesAt i).wstreams[k]? with
  | some v => if t.now.runState i = runRunning then done (t.deliverBlock i v) else done t
  | none => done t

end Sys2Proof.Machine
end

