-- ==== Sys2Proof/Machine/Meanings.lean ====
section
/-!
DEFINITION. Every meaning, brought together for the dispatch.
-/
end

