-- ==== Sys2Proof/Machine/Dispatch.lean ====
section
/-!
DEFINITION. One arm per command: a direct call of its meaning.
-/

namespace Sys2Proof.Machine

/-- The effect of a command on everything but the queue of waiting commands. -/
def exec (i : Instr) (s : State) : Host.Outcome State Fault Refusal :=
  match i with
  | .por straps sysref => Sys2Proof.Machine.execPor straps sysref s
  | .warmRstN => Sys2Proof.Machine.execWarmRstN s
  | .swrst o key => Sys2Proof.Machine.execSwrst o key s
  | .perstN => Sys2Proof.Machine.execPerstN s
  | .vaonBrownout straps sysref => Sys2Proof.Machine.execVaonBrownout straps sysref s
  | .aonclkLoss => Sys2Proof.Machine.execAonclkLoss s
  | .aonclkRestore => Sys2Proof.Machine.execAonclkRestore s
  | .patchVerify => Sys2Proof.Machine.execPatchVerify s
  | .memTrainingDone m outcome cap => Sys2Proof.Machine.execMemTrainingDone m outcome cap s
  | .readyDeclare => Sys2Proof.Machine.execReadyDeclare s
  | .configRequest f op => Sys2Proof.Machine.execConfigRequest f op s
  | .doeRequest q => Sys2Proof.Machine.execDoeRequest q s
  | .epochBoundary power => Sys2Proof.Machine.execEpochBoundary power s
  | .railRampDone half op => Sys2Proof.Machine.execRailRampDone half op s
  | .syncInPulse at_ => Sys2Proof.Machine.execSyncInPulse at_ s
  | .syncMiss => Sys2Proof.Machine.execSyncMiss s
  | .epochCtlWrite o len role det => Sys2Proof.Machine.execEpochCtlWrite o len role det s
  | .epochCountloRead o fn => Sys2Proof.Machine.execEpochCountloRead o fn s
  | .esetSend o past => Sys2Proof.Machine.execEsetSend o past s
  | .doorbellSqtail f slot v => Sys2Proof.Machine.execDoorbellSqtail f slot v s
  | .doorbellCqhead f slot v => Sys2Proof.Machine.execDoorbellCqhead f slot v s
  | .workRecordFetch q ans => Sys2Proof.Machine.execWorkRecordFetch q ans s
  | .recordAdmit ans => Sys2Proof.Machine.execRecordAdmit ans s
  | .tileRecordDone u => Sys2Proof.Machine.execTileRecordDone u s
  | .cqeWrite r => Sys2Proof.Machine.execCqeWrite r s
  | .interruptTimer q => Sys2Proof.Machine.execInterruptTimer q s
  | .enable o f => Sys2Proof.Machine.execEnable o f s
  | .suspend o f => Sys2Proof.Machine.execSuspend o f s
  | .queueResume o f => Sys2Proof.Machine.execQueueResume o f s
  | .release o f => Sys2Proof.Machine.execRelease o f s
  | .releaseAbort o f => Sys2Proof.Machine.execReleaseAbort o f s
  | .drain o f => Sys2Proof.Machine.execDrain o f s
  | .disable o f => Sys2Proof.Machine.execDisable o f s
  | .writeCtx o f => Sys2Proof.Machine.execWriteCtx o f s
  | .readCtx o f => Sys2Proof.Machine.execReadCtx o f s
  | .sessionNonce r => Sys2Proof.Machine.execSessionNonce r s
  | .sessionOpen r ans => Sys2Proof.Machine.execSessionOpen r ans s
  | .sessionBind r => Sys2Proof.Machine.execSessionBind r s
  | .sessionUnbind r => Sys2Proof.Machine.execSessionUnbind r s
  | .sessionClose r => Sys2Proof.Machine.execSessionClose r s
  | .sessionQuery r => Sys2Proof.Machine.execSessionQuery r s
  | .sessionExpire sid => Sys2Proof.Machine.execSessionExpire sid s
  | .sessionFree sid => Sys2Proof.Machine.execSessionFree sid s
  | .flr f => Sys2Proof.Machine.execFlr f s
  | .fnqWrite o f base count => Sys2Proof.Machine.execFnqWrite o f base count s
  | .bar4mapWrite o f seg v => Sys2Proof.Machine.execBar4mapWrite o f seg v s
  | .hwmapWrite o k v => Sys2Proof.Machine.execHwmapWrite o k v s
  | .bar4Read f off n => Sys2Proof.Machine.execBar4Read f off n s
  | .bar4Write f off bs how => Sys2Proof.Machine.execBar4Write f off bs how s
  | .bar4Atomicop f off n op restarts => Sys2Proof.Machine.execBar4Atomicop f off n op restarts s
  | .hostReadTimeout w => Sys2Proof.Machine.execHostReadTimeout w s
  | .hdmCommit base size => Sys2Proof.Machine.execHdmCommit base size s
  | .cxlMemRequest h op => Sys2Proof.Machine.execCxlMemRequest h op s
  | .identifyMemoryDevice => Sys2Proof.Machine.execIdentifyMemoryDevice s
  | .getPartitionInfo => Sys2Proof.Machine.execGetPartitionInfo s
  | .getSupportedLogs => Sys2Proof.Machine.execGetSupportedLogs s
  | .getLog arg => Sys2Proof.Machine.execGetLog arg s
  | .getHealthInfo => Sys2Proof.Machine.execGetHealthInfo s
  | .hostLinkWake => Sys2Proof.Machine.execHostLinkWake s
  | .hello o => Sys2Proof.Machine.execHello o s
  | .ident o => Sys2Proof.Machine.execIdent o s
  | .primeLoad o => Sys2Proof.Machine.execPrimeLoad o s
  | .primeClear o => Sys2Proof.Machine.execPrimeClear o s
  | .psetLoad o => Sys2Proof.Machine.execPsetLoad o s
  | .psetRemove o => Sys2Proof.Machine.execPsetRemove o s
  | .ksetLoad o => Sys2Proof.Machine.execKsetLoad o s
  | .ksetRemove o => Sys2Proof.Machine.execKsetRemove o s
  | .graphLoad o x => Sys2Proof.Machine.execGraphLoad o x s
  | .graphUnload o => Sys2Proof.Machine.execGraphUnload o s
  | .memRepair o => Sys2Proof.Machine.execMemRepair o s
  | .patchStage o => Sys2Proof.Machine.execPatchStage o s
  | .patchStatus o => Sys2Proof.Machine.execPatchStatus o s
  | .setEndpointId eid => Sys2Proof.Machine.execSetEndpointId eid s
  | .getEndpointId => Sys2Proof.Machine.execGetEndpointId s
  | .getMctpVersionSupport ty => Sys2Proof.Machine.execGetMctpVersionSupport ty s
  | .getMessageTypeSupport => Sys2Proof.Machine.execGetMessageTypeSupport s
  | .pldmRequest r => Sys2Proof.Machine.execPldmRequest r s
  | .getVersion o r => Sys2Proof.Machine.execGetVersion o r s
  | .getCapabilities o r => Sys2Proof.Machine.execGetCapabilities o r s
  | .negotiateAlgorithms o r => Sys2Proof.Machine.execNegotiateAlgorithms o r s
  | .getDigests o r => Sys2Proof.Machine.execGetDigests o r s
  | .getCertificate o r => Sys2Proof.Machine.execGetCertificate o r s
  | .challenge o r => Sys2Proof.Machine.execChallenge o r s
  | .getMeasurements o r => Sys2Proof.Machine.execGetMeasurements o r s
  | .coreRequest sender target seq => Sys2Proof.Machine.execCoreRequest sender target seq s
  | .coreReply core st => Sys2Proof.Machine.execCoreReply core st s
  | .coreControl sender mask acks => Sys2Proof.Machine.execCoreControl sender mask acks s
  | .coreRequestTimeout core n => Sys2Proof.Machine.execCoreRequestTimeout core n s
  | .coreWatchdog core => Sys2Proof.Machine.execCoreWatchdog core s
  | .fence k => Sys2Proof.Machine.execFence k s
  | .ntt tile side w => Sys2Proof.Machine.execNtt tile side w s
  | .intt tile side w => Sys2Proof.Machine.execIntt tile side w s
  | .aut tile side w => Sys2Proof.Machine.execAut tile side w s
  | .mul tile side w => Sys2Proof.Machine.execMul tile side w s
  | .mulc tile side w => Sys2Proof.Machine.execMulc tile side w s
  | .mac tile side w => Sys2Proof.Machine.execMac tile side w s
  | .mac2 tile side w => Sys2Proof.Machine.execMac2 tile side w s
  | .accrd tile side w => Sys2Proof.Machine.execAccrd tile side w s
  | .accclr tile side w => Sys2Proof.Machine.execAccclr tile side w s
  | .tens tile side w => Sys2Proof.Machine.execTens tile side w s
  | .bconv tile side w => Sys2Proof.Machine.execBconv tile side w s
  | .lift tile side w => Sys2Proof.Machine.execLift tile side w s
  | .resc tile side w => Sys2Proof.Machine.execResc tile side w s
  | .denc tile side w => Sys2Proof.Machine.execDenc tile side w s
  | .dmac tile side w => Sys2Proof.Machine.execDmac tile side w s
  | .drd tile side w => Sys2Proof.Machine.execDrd tile side w s
  | .dimm tile side w => Sys2Proof.Machine.execDimm tile side w s
  | .dird tile side w => Sys2Proof.Machine.execDird tile side w s
  | .pclAdd tile side w => Sys2Proof.Machine.execPclAdd tile side w s
  | .pclSub tile side w => Sys2Proof.Machine.execPclSub tile side w s
  | .pclMul tile side w => Sys2Proof.Machine.execPclMul tile side w s
  | .mulh tile side w => Sys2Proof.Machine.execMulh tile side w s
  | .sadd tile side w => Sys2Proof.Machine.execSadd tile side w s
  | .ssub tile side w => Sys2Proof.Machine.execSsub tile side w s
  | .saddu tile side w => Sys2Proof.Machine.execSaddu tile side w s
  | .ssubu tile side w => Sys2Proof.Machine.execSsubu tile side w s
  | .pclMin tile side w => Sys2Proof.Machine.execPclMin tile side w s
  | .pclMax tile side w => Sys2Proof.Machine.execPclMax tile side w s
  | .pclAnd tile side w => Sys2Proof.Machine.execPclAnd tile side w s
  | .pclOr tile side w => Sys2Proof.Machine.execPclOr tile side w s
  | .pclXor tile side w => Sys2Proof.Machine.execPclXor tile side w s
  | .pclNot tile side w => Sys2Proof.Machine.execPclNot tile side w s
  | .shl tile side w => Sys2Proof.Machine.execShl tile side w s
  | .shr tile side w => Sys2Proof.Machine.execShr tile side w s
  | .sar tile side w => Sys2Proof.Machine.execSar tile side w s
  | .cmp tile side w => Sys2Proof.Machine.execCmp tile side w s
  | .sel tile side w => Sys2Proof.Machine.execSel tile side w s
  | .pclModAdd tile side w => Sys2Proof.Machine.execPclModAdd tile side w s
  | .pclModSub tile side w => Sys2Proof.Machine.execPclModSub tile side w s
  | .pclModNeg tile side w => Sys2Proof.Machine.execPclModNeg tile side w s
  | .pclModMul tile side w => Sys2Proof.Machine.execPclModMul tile side w s
  | .pclModMulc tile side w => Sys2Proof.Machine.execPclModMulc tile side w s
  | .pclModLift tile side w => Sys2Proof.Machine.execPclModLift tile side w s
  | .fromint tile side w => Sys2Proof.Machine.execFromint tile side w s
  | .fadd tile side w => Sys2Proof.Machine.execFadd tile side w s
  | .fsub tile side w => Sys2Proof.Machine.execFsub tile side w s
  | .fmul tile side w => Sys2Proof.Machine.execFmul tile side w s
  | .fma tile side w => Sys2Proof.Machine.execFma tile side w s
  | .fmin tile side w => Sys2Proof.Machine.execFmin tile side w s
  | .fmax tile side w => Sys2Proof.Machine.execFmax tile side w s
  | .fcmp tile side w => Sys2Proof.Machine.execFcmp tile side w s
  | .cvt tile side w => Sys2Proof.Machine.execCvt tile side w s
  | .fenc tile side w => Sys2Proof.Machine.execFenc tile side w s
  | .fdec tile side w => Sys2Proof.Machine.execFdec tile side w s
  | .fdec2 tile side w => Sys2Proof.Machine.execFdec2 tile side w s
  | .trn tile side w => Sys2Proof.Machine.execTrn tile side w s
  | .trnp tile side w => Sys2Proof.Machine.execTrnp tile side w s
  | .cadd tile side w => Sys2Proof.Machine.execCadd tile side w s
  | .csub tile side w => Sys2Proof.Machine.execCsub tile side w s
  | .padd tile side w => Sys2Proof.Machine.execPadd tile side w s
  | .ldrop tile side w => Sys2Proof.Machine.execLdrop tile side w s
  | .slotenc tile side w => Sys2Proof.Machine.execSlotenc tile side w s
  | .slotdec tile side w => Sys2Proof.Machine.execSlotdec tile side w s
  | .pld tile side w => Sys2Proof.Machine.execPld tile side w s
  | .pst tile side w => Sys2Proof.Machine.execPst tile side w s
  | .extract tile side w => Sys2Proof.Machine.execExtract tile side w s
  | .lweKs tile side w => Sys2Proof.Machine.execLweKs tile side w s
  | .modsw tile side w => Sys2Proof.Machine.execModsw tile side w s
  | .blindrot tile side w => Sys2Proof.Machine.execBlindrot tile side w s
  | .repack tile side w => Sys2Proof.Machine.execRepack tile side w s
  | .move tile side w => Sys2Proof.Machine.execMove tile side w s
  | .moveo tile side w => Sys2Proof.Machine.execMoveo tile side w s
  | .sprog tile side w => Sys2Proof.Machine.execSprog tile side w s
  | .kstream tile side w => Sys2Proof.Machine.execKstream tile side w s
  | .wstream tile side w => Sys2Proof.Machine.execWstream tile side w s
  | .ocld tile side w => Sys2Proof.Machine.execOcld tile side w s
  | .ocst tile side w => Sys2Proof.Machine.execOcst tile side w s
  | .nop tile side w => Sys2Proof.Machine.execNop tile side w s
  | .epw tile side w => Sys2Proof.Machine.execEpw tile side w s
  | .flagclr tile side w => Sys2Proof.Machine.execFlagclr tile side w s
  | .ctrset tile side w => Sys2Proof.Machine.execCtrset tile side w s
  | .qopen tile side w => Sys2Proof.Machine.execQopen tile side w s
  | .qclose tile side w => Sys2Proof.Machine.execQclose tile side w s
  | .chcfg tile side w => Sys2Proof.Machine.execChcfg tile side w s
  | .endStream tile side w => Sys2Proof.Machine.execEndStream tile side w s
  | .instrResultVisible tile k => Sys2Proof.Machine.execInstrResultVisible tile k s
  | .transferSignal tile k ans => Sys2Proof.Machine.execTransferSignal tile k ans s
  | .underrunResume tile unit => Sys2Proof.Machine.execUnderrunResume tile unit s
  | .overrunResume tile q => Sys2Proof.Machine.execOverrunResume tile q s
  | .messageAdmit tile q => Sys2Proof.Machine.execMessageAdmit tile q s
  | .keyLimbDeliver tile => Sys2Proof.Machine.execKeyLimbDeliver tile s
  | .weightBlockDeliver tile k => Sys2Proof.Machine.execWeightBlockDeliver tile k s
  | .noiseLimbLanded cl => Sys2Proof.Machine.execNoiseLimbLanded cl s
  | .descriptorLoadArrive cl k ans => Sys2Proof.Machine.execDescriptorLoadArrive cl k ans s
  | .streamLoadTile tile k ans => Sys2Proof.Machine.execStreamLoadTile tile k ans s
  | .streamStoreTile tile k => Sys2Proof.Machine.execStreamStoreTile tile k s
  | .streamContrib tile k => Sys2Proof.Machine.execStreamContrib tile k s
  | .streamRread tile k => Sys2Proof.Machine.execStreamRread tile k s
  | .streamBload tile k ans => Sys2Proof.Machine.execStreamBload tile k ans s
  | .streamBstore tile k => Sys2Proof.Machine.execStreamBstore tile k s
  | .preempt o tile => Sys2Proof.Machine.execPreempt o tile s
  | .contextSaved tile => Sys2Proof.Machine.execContextSaved tile s
  | .tileResume o tile => Sys2Proof.Machine.execTileResume o tile s
  | .contextRestored tile => Sys2Proof.Machine.execContextRestored tile s
  | .halt o tile => Sys2Proof.Machine.execHalt o tile s
  | .haltRelease o tile => Sys2Proof.Machine.execHaltRelease o tile s
  | .deadlockDetect tile => Sys2Proof.Machine.execDeadlockDetect tile s
  | .spadNocAccess who tile off op rivals => Sys2Proof.Machine.execSpadNocAccess who tile off op rivals s
  | .fetchAdd who at_ n v restarts => Sys2Proof.Machine.execFetchAdd who at_ n v restarts s
  | .swap who at_ n v restarts => Sys2Proof.Machine.execSwap who at_ n v restarts s
  | .cas who at_ n v cmp restarts => Sys2Proof.Machine.execCas who at_ n v cmp restarts s
  | .fetchMadd who at_ n v slot restarts => Sys2Proof.Machine.execFetchMadd who at_ n v slot restarts s
  | .starvationGuard tile => Sys2Proof.Machine.execStarvationGuard tile s
  | .sptestUnit tile rows => Sys2Proof.Machine.execSptestUnit tile rows s
  | .spadSizeWrite o tile v => Sys2Proof.Machine.execSpadSizeWrite o tile v s
  | .sptestWrite o tile period en => Sys2Proof.Machine.execSptestWrite o tile period en s
  | .kcFlush o cl => Sys2Proof.Machine.execKcFlush o cl s
  | .kcSizeWrite o cl v => Sys2Proof.Machine.execKcSizeWrite o cl v s
  | .scInv o cl => Sys2Proof.Machine.execScInv o cl s
  | .scRedWrite o cl v => Sys2Proof.Machine.execScRedWrite o cl v s
  | .memLineServe m r n contended chk => Sys2Proof.Machine.execMemLineServe m r n contended chk s
  | .regulatorWrite o m v => Sys2Proof.Machine.execRegulatorWrite o m v s
  | .calibration m => Sys2Proof.Machine.execCalibration m s
  | .thermalRetrain m temp => Sys2Proof.Machine.execThermalRetrain m temp s
  | .patrolPass m found => Sys2Proof.Machine.execPatrolPass m found s
  | .halfctlWrite o req => Sys2Proof.Machine.execHalfctlWrite o req s
  | .lendWrite o base size => Sys2Proof.Machine.execLendWrite o base size s
  | .lendFillDone => Sys2Proof.Machine.execLendFillDone s
  | .t1500ShiftIr o m len => Sys2Proof.Machine.execT1500ShiftIr o m len s
  | .t1500ShiftDr o m len => Sys2Proof.Machine.execT1500ShiftDr o m len s
  | .t1500dataWrite o m v back => Sys2Proof.Machine.execT1500dataWrite o m v back s
  | .linkTrained l width partner pready => Sys2Proof.Machine.execLinkTrained l width partner pready s
  | .linkDown l => Sys2Proof.Machine.execLinkDown l s
  | .flitReceive l f time => Sys2Proof.Machine.execFlitReceive l f time s
  | .replayTimeout l => Sys2Proof.Machine.execReplayTimeout l s
  | .packetTransmit k => Sys2Proof.Machine.execPacketTransmit k s
  | .packetForward l vc cls => Sys2Proof.Machine.execPacketForward l vc cls s
  | .plpWr l cls => Sys2Proof.Machine.execPlpWr l cls s
  | .plpRd l cls => Sys2Proof.Machine.execPlpRd l cls s
  | .plpAtom l cls restarts => Sys2Proof.Machine.execPlpAtom l cls restarts s
  | .plpContrib l cls => Sys2Proof.Machine.execPlpContrib l cls s
  | .plpRrd l cls => Sys2Proof.Machine.execPlpRrd l cls s
  | .plpAccept l cls => Sys2Proof.Machine.execPlpAccept l cls s
  | .plpDone l cls => Sys2Proof.Machine.execPlpDone l cls s
  | .plpFail l cls => Sys2Proof.Machine.execPlpFail l cls s
  | .plpNak l cls => Sys2Proof.Machine.execPlpNak l cls s
  | .plpRdata l cls => Sys2Proof.Machine.execPlpRdata l cls s
  | .plpAtomr l cls => Sys2Proof.Machine.execPlpAtomr l cls s
  | .epochSet l cls since => Sys2Proof.Machine.execEpochSet l cls since s
  | .quar l cls => Sys2Proof.Machine.execQuar l cls s
  | .nakResend tag past => Sys2Proof.Machine.execNakResend tag past s
  | .peerWriteTimeout tag => Sys2Proof.Machine.execPeerWriteTimeout tag s
  | .linkRelease o l => Sys2Proof.Machine.execLinkRelease o l s
  | .linkRetrain o l => Sys2Proof.Machine.execLinkRetrain o l s
  | .routerCtlWrite o dev ttl ready => Sys2Proof.Machine.execRouterCtlWrite o dev ttl ready s
  | .routeEntryWrite o dev v => Sys2Proof.Machine.execRouteEntryWrite o dev v s
  | .pwinWrite o n v => Sys2Proof.Machine.execPwinWrite o n v s
  | .bondWrite o g mask => Sys2Proof.Machine.execBondWrite o g mask s
  | .bondChange g => Sys2Proof.Machine.execBondChange g s
  | .lqbaseWrite o v => Sys2Proof.Machine.execLqbaseWrite o v s
  | .domCreate o => Sys2Proof.Machine.execDomCreate o s
  | .regCreate o => Sys2Proof.Machine.execRegCreate o s
  | .regRelease o => Sys2Proof.Machine.execRegRelease o s
  | .domImport o => Sys2Proof.Machine.execDomImport o s
  | .domDestroy o => Sys2Proof.Machine.execDomDestroy o s
  | .regionFillDone r => Sys2Proof.Machine.execRegionFillDone r s
  | .hashGo o c alg init final src len => Sys2Proof.Machine.execHashGo o c alg init final src len s
  | .hashAbort o c => Sys2Proof.Machine.execHashAbort o c s
  | .hashJobDone c => Sys2Proof.Machine.execHashJobDone c s
  | .hashLanePreempt c => Sys2Proof.Machine.execHashLanePreempt c s
  | .verify o slot curve hlen => Sys2Proof.Machine.execVerify o slot curve hlen s
  | .ecdh o slot curve => Sys2Proof.Machine.execEcdh o slot curve s
  | .pubcheck o slot curve => Sys2Proof.Machine.execPubcheck o slot curve s
  | .sign o slot curve hlen => Sys2Proof.Machine.execSign o slot curve hlen s
  | .keygen o slot curve => Sys2Proof.Machine.execKeygen o slot curve s
  | .curveLoad o slot curve => Sys2Proof.Machine.execCurveLoad o slot curve s
  | .sergeYield => Sys2Proof.Machine.execSergeYield s
  | .sergeJobDone => Sys2Proof.Machine.execSergeJobDone s
  | .jtagInstruction u => Sys2Proof.Machine.execJtagInstruction u s
  | .dvfsRequest o tile target => Sys2Proof.Machine.execDvfsRequest o tile target s
  | .pwrReqActive o mask => Sys2Proof.Machine.execPwrReqActive o mask s
  | .pwrReqIdle o mask => Sys2Proof.Machine.execPwrReqIdle o mask s
  | .pwrReqDoze o mask => Sys2Proof.Machine.execPwrReqDoze o mask s
  | .pwrReqSlumber o mask => Sys2Proof.Machine.execPwrReqSlumber o mask s
  | .powerTransitionDone cl fails => Sys2Proof.Machine.execPowerTransitionDone cl fails s
  | .clusterIdleEntry cl => Sys2Proof.Machine.execClusterIdleEntry cl s
  | .clusterUngate cl => Sys2Proof.Machine.execClusterUngate cl s
  | .dozeTimeout cl => Sys2Proof.Machine.execDozeTimeout cl s
  | .capGroupEnd => Sys2Proof.Machine.execCapGroupEnd s
  | .capWrite o cap brakecap => Sys2Proof.Machine.execCapWrite o cap brakecap s
  | .pwrBrakeAssert => Sys2Proof.Machine.execPwrBrakeAssert s
  | .pwrBrakeRelease => Sys2Proof.Machine.execPwrBrakeRelease s
  | .thermalTrip => Sys2Proof.Machine.execThermalTrip s
  | .gloamingScan readings => Sys2Proof.Machine.execGloamingScan readings s
  | .glmEventWrite o ev => Sys2Proof.Machine.execGlmEventWrite o ev s
  | .mgmtAddressMatch => Sys2Proof.Machine.execMgmtAddressMatch s
  | .fatalFault cause => Sys2Proof.Machine.execFatalFault cause s
  | .errCntRead o at_ => Sys2Proof.Machine.execErrCntRead o at_ s
  | .errLogRead o page w late => Sys2Proof.Machine.execErrLogRead o page w late s
  | .lbist o target => Sys2Proof.Machine.execLbist o target s
  | .kat o target => Sys2Proof.Machine.execKat o target s
  | .patrol o target => Sys2Proof.Machine.execPatrol o target s
  | .margin o target => Sys2Proof.Machine.execMargin o target s
  | .sensor o target => Sys2Proof.Machine.execSensor o target s
  | .selftestDone fail margins => Sys2Proof.Machine.execSelftestDone fail margins s
  | .lifelogPeriodic => Sys2Proof.Machine.execLifelogPeriodic s
  | .lifelogWriteDone => Sys2Proof.Machine.execLifelogWriteDone s
  | .histogramSample shares => Sys2Proof.Machine.execHistogramSample shares s
  | .lifeReq o => Sys2Proof.Machine.execLifeReq o s
  | .lifeSnap o on => Sys2Proof.Machine.execLifeSnap o on s
  | .lifeSnapTimeout => Sys2Proof.Machine.execLifeSnapTimeout s
  | .lifeDataRead o => Sys2Proof.Machine.execLifeDataRead o s
  | .cecfgWrite o cethr patrol => Sys2Proof.Machine.execCecfgWrite o cethr patrol s
  | .blkEnWrite o page en => Sys2Proof.Machine.execBlkEnWrite o page en s
  | .srst o page => Sys2Proof.Machine.execSrst o page s
  | .blkTestWrite o page test => Sys2Proof.Machine.execBlkTestWrite o page test s
  | .irqSetWrite o page v => Sys2Proof.Machine.execIrqSetWrite o page v s
  | .registerWrite o a n v => Sys2Proof.Machine.execRegisterWrite o a n v s
  | .powerRemoval => Sys2Proof.Machine.execPowerRemoval s
  | .sysrefArrival => Sys2Proof.Machine.execSysrefArrival s
  | .vrAlertN => Sys2Proof.Machine.execVrAlertN s
  | .dynamicAddressAssignment a => Sys2Proof.Machine.execDynamicAddressAssignment a s
  | .smbusClockLowTimeout => Sys2Proof.Machine.execSmbusClockLowTimeout s

end Sys2Proof.Machine
end

