-- ==== Sys2Proof/Machine/Xts.lean ====
section
/-!
DEFINITION. AES-256-XTS of IEEE 1619 (R289), with the AES-256 block cipher of FIPS 197, and the lines of the tiers as the memory
devices hold them: `State.mem` holds what accesses see, and the engines between it and the devices encrypt the lines of sealed regions.
-/

namespace Sys2Proof.Machine

/-! ### AES-256 (FIPS 197) -/

/-- A byte times x in AES's field. -/
def aesDouble (a : Nat) : Nat := if a < 128 then 2 * a else (2 * a) % 256 ^^^ 0x1B

/-- The product of two bytes in AES's field. -/
def aesMul (a b : Nat) : Nat :=
  ((List.range 8).foldl (fun p k => (if bit b k then p.1 ^^^ p.2 else p.1, aesDouble p.2)) ((0, a) : Nat × Nat)).1

/-- The inverse of a byte, 0 for 0: its 254th power, the product of its powers 2, 4, … 128. -/
def aesInv (a : Nat) : Nat :=
  ((List.range 7).foldl (fun p _ => (aesMul p.1 (aesMul p.2 p.2), aesMul p.2 p.2)) ((1, a) : Nat × Nat)).1

/-- A byte rotated left. -/
def rotl8 (a n : Nat) : Nat := (a <<< n ||| a >>> (8 - n)) % 256

/-- SubBytes of one byte. -/
def aesSub (a : Nat) : Nat :=
  let y := aesInv a
  y ^^^ rotl8 y 1 ^^^ rotl8 y 2 ^^^ rotl8 y 3 ^^^ rotl8 y 4 ^^^ 0x63

/-- Bytes added in the field, in order. -/
def xorBytes (a b : List Nat) : List Nat := List.zipWith (· ^^^ ·) a b

/-- One more word of the key schedule. -/
def aesNextWord (ws : List (List Nat)) (i : Nat) : List (List Nat) :=
  let w := ws.getD (i - 1) []
  let v := if i % 8 = 0 then xorBytes ((w.drop 1 ++ w.take 1).map aesSub) [2 ^ (i / 8 - 1), 0, 0, 0]
    else if i % 8 = 4 then w.map aesSub else w
  ws ++ [xorBytes (ws.getD (i - 8) []) v]

/-- The sixty words of the key schedule of a 32-byte key. -/
def aesSchedule (key : List Nat) : List (List Nat) :=
  ((List.range 52).map (8 + ·)).foldl aesNextWord ((List.range 8).map fun k => (key.drop (4 * k)).take 4)

/-- The round key of round `r`. -/
def aesRoundKey (ws : List (List Nat)) (r : Nat) : List Nat := ((ws.drop (4 * r)).take 4).flatten

/-- ShiftRows on the sixteen bytes, column by column. -/
def aesShiftRows (b : List Nat) : List Nat := (List.range 16).map fun k => b.getD ((k + 4 * (k % 4)) % 16) 0

/-- MixColumns. -/
def aesMixColumns (b : List Nat) : List Nat :=
  (List.range 16).map fun k =>
    let at_ (j : Nat) : Nat := b.getD (k / 4 * 4 + (k + j) % 4) 0
    aesDouble (at_ 0) ^^^ aesDouble (at_ 1) ^^^ at_ 1 ^^^ at_ 2 ^^^ at_ 3

/-- The AES-256 encryption of a 16-byte block. -/
def aesEncrypt (key block : List Nat) : List Nat :=
  let ws := aesSchedule key
  let b := ((List.range 13).map (· + 1)).foldl
    (fun b r => xorBytes (aesMixColumns (aesShiftRows (b.map aesSub))) (aesRoundKey ws r)) (xorBytes block (aesRoundKey ws 0))
  xorBytes (aesShiftRows (b.map aesSub)) (aesRoundKey ws 14)

/-! ### XTS (IEEE 1619) -/

/-- Little-endian bytes of a number, as numbers. -/
def natBytes (n x : Nat) : List Nat := (natLe n x).map (·.toNat)

/-- A 128-bit tweak times α: as a little-endian number, doubled, its carry folded back as 0x87. -/
def xtsDouble (t : Nat) : Nat := if t < 2 ^ 127 then 2 * t else 2 * t % 2 ^ 128 ^^^ 0x87

/-- The tweak of block `j` of data unit `u`. -/
def xtsTweak (key2 u j : Nat) : Nat :=
  (List.range j).foldl (fun t _ => xtsDouble t) (leNat ((aesEncrypt (natBytes 32 key2) (natBytes 16 u)).map (BitVec.ofNat 8)))

/-- Block `j` of data unit `u` encrypted. -/
def xtsBlock (key1 key2 u j : Nat) (block : List Byte) : List Byte :=
  let t := natBytes 16 (xtsTweak key2 u j)
  (xorBytes (aesEncrypt (natBytes 32 key1) (xorBytes (block.map (·.toNat)) t)) t).map (BitVec.ofNat 8)

/-- A 64-byte line encrypted as one data unit: four blocks, with no ciphertext stealing (R289). -/
def xtsLine (key1 key2 u : Nat) (line : List Byte) : List Byte :=
  (List.range 4).flatMap fun j => xtsBlock key1 key2 u j ((line.drop (16 * j)).take 16)

/-- The 64 bytes that the memory devices hold for the line of address `a` of the tiers (R289): of a sealed region encrypted with its
keys under the line's number, of any other as accesses see them; unknown once the region's keys are erased (log entry 74). -/
def State.stored (s : State) (a : Nat) : Option (List Byte) :=
  let line := s.read (a / 64 * 64) 64
  match s.regionOf a with
  | none => some line
  | some g => g.keys.map fun k => xtsLine k.1 k.2 (a / 64) line

end Sys2Proof.Machine
end

