-- ==== Sys2Proof/Safety.lean ====
section
/-!
DEFINITION. What a safe step is, the invariant of every state that a step keeps, and the words statements use: what stays
the same over a step, and when a page takes a register write.
-/

namespace Sys2Proof

open Sys2Proof.Machine

/-- The step from `s` ends in a next state: no fault, no refusal. -/
def Safe (s : State) : Prop := ∃ t, step s = .next t

/-- Every sparse map of the state is in its canonical form. -/
def Machine.State.canonical (s : State) : Bool :=
  Memory.wf s.mem &&
    mapWf regsDefault s.regs &&
    mapWf poisonDefault s.poison &&
    mapWf landTagDefault s.landTag &&
    mapWf tilesDefault s.tiles &&
    mapWf clustersDefault s.clusters &&
    mapWf psetsDefault s.psets &&
    mapWf primesDefault s.primes &&
    mapWf recordsDefault s.records &&
    mapWf deferredDefault s.deferred &&
    mapWf ksetsDefault s.ksets &&
    mapWf regionsDefault s.regions &&
    mapWf domainsDefault s.domains &&
    mapWf pcieDefault s.pcie &&
    mapWf peersDefault s.peers &&
    mapWf linksDefault s.links &&
    mapWf graphsDefault s.graphs &&
    mapWf memctlDefault s.memctl &&
    mapWf contextsDefault s.contexts &&
    mapWf errPagesDefault s.errPages &&
    mapWf queuesDefault s.queues &&
    mapWf sessionsDefault s.sessions &&
    mapWf doorbellsDefault s.doorbells &&
    mapWf coresDefault s.cores &&
    mapWf mboxesDefault s.mboxes &&
    mapWf spdmDefault s.spdm &&
    mapWf heldDefault s.held

/-- Every listed register word has zero in the bits no field defines (R11). -/
def Machine.State.reservedZero (s : State) : Bool := s.regs.all fun kv => kv.2 &&& ~~~definedMask kv.1 = 0

/-- The invariant of the machine: canonical maps and memory, reserved register bits zero. -/
def Machine.State.Inv (s : State) : Prop := s.canonical = true ∧ s.reservedZero = true

/-! ### What stays the same -/

namespace Machine

/-- Nothing but tile `i` differs, which becomes `x`. -/
def TileBecomes (s t : State) (i : Nat) (x : Tile) : Prop :=
  t.tilesAt i = x ∧ (∀ j, j ≠ i → t.tilesAt j = s.tilesAt j) ∧ { t with tiles := s.tiles } = s

/-- Nothing but register words differs, and of those only the words at the given BAR0 offsets. -/
def OnlyWords (s t : State) (ws : List Nat) : Prop :=
  { t with regs := s.regs } = s ∧ ∀ a, a ∉ ws → t.regsAt a = s.regsAt a

/-- Every byte of memory reads as before. -/
def SameMemory (s t : State) : Prop := ∀ a, memByte t.mem a = memByte s.mem a

/-- Every byte of memory outside `n` bytes at `a` reads as before. -/
def SameOutside (s t : State) (a n : Nat) : Prop := ∀ b, (b < a ∨ a + n ≤ b) → memByte t.mem b = memByte s.mem b

/-- Words of BAR0 that interrupts and error records write: interrupt status and raw words, error records and their counts,
ERRSYS.CNT, and pending bits. -/
def reportWord (a : Nat) : Bool :=
  match bar0 a with
  | some (p, _, o) =>
    (!p.isWindow && (o = 0x20 || o = 0x2C || (0x40 ≤ o && o ≤ 0x60))) || p = .PBAPF || p = .PBA ||
      (p = .ERRSYS && ERRSYS.CNT.COUNT.off ≤ o && o < ERRSYS.CNT.COUNT.off + 4 * 5)
  | none => true

/-- `t` differs from `s` in reports only. -/
def Quiet (s t : State) : Prop :=
  { t with regs := s.regs, out := s.out, life := s.life, errPages := s.errPages, fresh := s.fresh } = s ∧
    ∀ a, reportWord a = false → t.regsAt a = s.regsAt a

/-- Tile `i` stops with an error (R214, R475): RUNSTAT shows it, its record fails on the tile's cluster, and nothing else changes
but what the error reports. -/
def TileStops (s t : State) (i : Nat) (st : Status) (detail : Nat) : Prop :=
  t.runState i = runStopped ∧ t.fld TILE.RUNSTAT.STATUS i = st.code ∧
    (∀ k, (s.tilesAt i).rec? = some k → t.recordsAt k = { s.recordsAt k with
      failures := (s.recordsAt k).failures ++ [⟨s.epochCount, i / 8, st, detail⟩] }) ∧
    (∀ k, (s.tilesAt i).rec? ≠ some k → t.recordsAt k = s.recordsAt k) ∧
    { t with regs := s.regs, out := s.out, life := s.life, errPages := s.errPages, fresh := s.fresh, records := s.records } = s ∧
    ∀ a, reportWord a = false → a ≠ TILE.RUNSTAT.STATE.addr i 0 → t.regsAt a = s.regsAt a

/-! ### Scratchpad operands -/

/-- Scratchpad offset of an operand. -/
def Opnd.off : Opnd → Nat
  | .spad o => o
  | _ => 0

/-- Device-local address of a scratchpad operand of tile `i`. -/
def opndAddr (i : Nat) (r : Opnd) : Nat := spadBase i + r.off

/-- The key tags of a scratchpad operand's lines (R110). -/
def State.keyTags (s : State) (i : Nat) (r : Opnd) (n : Nat) : List Nat := (linesOf (opndAddr i r) (4 * n)).map s.landTagAt

/-- Two runs of words of a tile's scratchpad that share no byte. -/
abbrev apart (a b : Opnd × Nat) : Prop := a.1.off + 4 * a.2 ≤ b.1.off ∨ b.1.off + 4 * b.2 ≤ a.1.off

/-! ### When commands have their own effect -/

/-- A stream of tile `i` can issue the instruction: the tile runs and its stream stands at it, the word is legal for its unit,
its WAIT conditions hold as the stream sees them, and no engine instruction is still at work in the way of one (R197, R203 to R206). -/
def State.readyTile (s : State) (i unit : Nat) (side : Side) (w : NInstr) : Bool :=
  s.canIssue i side && issueLegal (s.tilesAt i) unit side w && (unmet ((s.tilesAt i).seenBy side) w).isNone &&
  (unit < 2 || (s.tilesAt i).enginesFree)

/-- A page takes a register write of `o`: the module answers, the page is in the function's reach, powered, and of the
writer's world (R423, R457, R464, R484, R497, R500, R517). -/
def State.takesWrite (s : State) (o : RegFrom) (p : Page) (n : Nat) : Bool :=
  !s.tripped && s.gate o p n = .pass && !s.pageOff p n && (o.world = .secure || p.isWindow || !s.flag (HDR.OWNER.WORLD p) n)

/-! ### What a command writes -/

/-- Of the register words, only those at the given BAR0 offsets differ. -/
def RegsBut (s t : State) (ws : List Nat) : Prop := ∀ a, a ∉ ws → t.regsAt a = s.regsAt a

/-- Of the register words that are no reports, only those at the given BAR0 offsets differ. -/
def RegsRest (s t : State) (ws : List Nat) : Prop := ∀ a, reportWord a = false → a ∉ ws → t.regsAt a = s.regsAt a

/-- The BAR0 offset of the word that a field begins in. -/
def Fld.at_ (f : Fld) (n : Nat := 0) (k : Nat := 0) : Nat := f.addr n k + 4 * (f.lo / 32)

/-- The command gives one field a value, and changes nothing else, in its word or outside it. -/
def Sets (c : Instr) (s : State) (f : Fld) (n k v : Nat) : Prop :=
  ∃ t, exec c s = .next t ∧ t.fld f n k = v ∧ OnlyWords s t [f.at_ n k] ∧ t.regsAt (f.at_ n k) =
    BitVec.ofNat 32 (setBits (s.regsAt (f.at_ n k)).toNat (f.hi % 32) (f.lo % 32) v) &&& definedMask (f.at_ n k)

/-- The command writes a register word whose value takes effect later: the word reads back as written, and what is in effect, here
and everywhere, is what was. -/
def Defers (c : Instr) (s : State) (a : Nat) (w : Word) : Prop :=
  ∃ t, exec c s = .next t ∧ t.regsAt a = w &&& definedMask a ∧ (∀ b, t.regEff b = s.regEff b) ∧ RegsBut s t [a] ∧
    { t with regs := s.regs, deferred := s.deferred } = s

/-- The command writes `n` register words from `a`, low word first, and nothing else. -/
def WritesWords (c : Instr) (s : State) (a n v : Nat) : Prop :=
  ∃ t, exec c s = .next t ∧ (∀ j, j < n → t.regsAt (a + 4 * j) = BitVec.ofNat 32 (v >>> (32 * j)) &&& definedMask (a + 4 * j)) ∧
    OnlyWords s t ((List.range n).map (a + 4 * ·))

/-- The command does nothing but log the error and what the error reports: the write was refused. -/
def RefusedWith (c : Instr) (s : State) (p : Page) (n : Nat) (st : Status) : Prop :=
  exec c s = done ((begin s).logStatus p n st)

end Machine

end Sys2Proof
end

