-- ==== Sys2Proof/Certificates/Slice0/Obligations.lean ====
section
/-!
DEFINITION. The statements for the provers, from the spec's numbered rules, family by family. Each says what the machine
does on hypotheses about the state and the operands alone; none is proved here.
-/

namespace Sys2Proof.Claims
end Sys2Proof.Claims

open Sys2Proof Sys2Proof.Machine Sys2Proof.Claims

/-! ### The block as a whole -/

/-- A step on a queue that is not empty runs the command at its front on the machine with the queue's rest. -/
def Obligations.StepRunsFrontCommand : Prop :=
  ∀ (c : Instr) (rest : List Instr) (s : State), s.pending = c :: rest → step s = exec c { s with pending := rest }

/-- With no command waiting the block idles: the model's choice (log entry 6). -/
def Obligations.EmptyQueueIdles : Prop := ∀ s : State, s.pending = [] → step s = .next s

/-- No command stops the machine, and none touches the queue: a step takes exactly one command off it. -/
def Obligations.EveryStepTakesOneCommand : Prop :=
  (∀ (c : Instr) (s : State), ∃ t, exec c s = .next t ∧ t.pending = s.pending) ∧
  ∀ s : State, ∃ t, step s = .next t ∧ t.pending = s.pending.tail

/-- What the device has sent stays sent: a step only adds at the end of its output. -/
def Obligations.OutputOnlyGrows : Prop := ∀ s t : State, step s = .next t → s.out <+: t.out

/-- The invariant holds right after reset. -/
def Obligations.ResetMeetsInvariant : Prop := State.reset.Inv

/-- Every step keeps the invariant: sparse maps and memory stay canonical, and reserved register bits stay zero (R11). -/
def Obligations.StepKeepsInvariant : Prop := ∀ s t : State, s.Inv → step s = .next t → t.Inv

/-! ### The scalar unit (ch. 09) -/

/-- The tile after a scalar instruction of the stream `d` whose own effect on the tile is `eff`: conditions consumed and PC
advanced, the effect, then its SIGNAL on a flag or a counter, then the segments it can enter. -/
def Sys2Proof.Claims.afterScalar (x : Tile) (d : Side) (w : NInstr) (eff : Tile → Tile) : Tile :=
  let y := eff (issueTile x d w)
  (match bits w.sig.toNat 11 10 with
   | 1 => setFlag y (bits w.sig.toNat 9 4)
   | 2 => addCtr y (bits w.sig.toNat 9 4) (bits w.sig.toNat 3 0 + 1)
   | _ => y).settle

/-- What an instruction of the scalar unit does on a tile that can issue it, with any SIGNAL but a token: the tile changes by
the instruction's own effect and by issue, and nothing else changes. -/
def Sys2Proof.Claims.ScalarEffect (c : Fin 64 → Side → NInstr → Instr) (legal : Tile → NInstr → Bool)
    (eff : Side → NInstr → Tile → Tile) : Prop :=
  ∀ (i : Fin 64) (d : Side) (w : NInstr) (s : State),
    s.readyTile i 0 d w = true → bits w.sig.toNat 11 10 ≠ 3 → legal (s.tilesAt i) w = true →
    ∃ t, exec (c i d w) s = .next t ∧ TileBecomes s t i (afterScalar (s.tilesAt i) d w (eff d w))

/-- NOP, EPW, FLAGCLR, CTRSET and END (R213): nothing; the stream waits as at its segment's end; flag OPA[5:0] clears; counter
OPA[19:16] takes OPA[15:0]; the stream has ended. A word whose UNIT and OP name no operation stops the tile with RANGE as it would
issue (R211, R214). -/
def Obligations.ScalarControl : Prop :=
  ScalarEffect (fun i d w => .nop i d ⟨0, w⟩) (fun _ w => w.opa = 0) (fun _ _ x => x) ∧
  (∀ (i : Fin 64) (d : Side) (code : BitVec 12) (w : NInstr) (s : State), code ≠ 0 →
    s.readyTile i (code.toNat / 256) d w = true →
    ∃ t, exec (.nop i d ⟨code, w⟩) s = .next t ∧ ∃ u, TileBecomes s u i (s.tilesAt i).settle ∧ TileStops u t i .RANGE 0) ∧
  ScalarEffect .epw (fun _ w => w.opa = 0) (fun d _ x => x.setStream d { x.stream d with atEnd := true }) ∧
  ScalarEffect .flagclr (fun _ w => bits w.opa.toNat 50 6 = 0)
    (fun _ w x => { x with flags := clearFlag x.flags (bits w.opa.toNat 5 0) }) ∧
  ScalarEffect .ctrset (fun _ w => bits w.opa.toNat 50 20 = 0)
    (fun _ w x => { x with ctrs := x.ctrs.set (bits w.opa.toNat 19 16) (bits w.opa.toNat 15 0) }) ∧
  ScalarEffect .endStream (fun _ w => w.opa = 0) (fun d _ x => x.setStream d { x.stream d with ended := true })

/-- QOPEN opens a closed queue, empty, with its select mode; QCLOSE closes an open queue that nothing still reads and discards
its words (R201, R213, R214); CHCFG binds a free channel to an outbound queue no other channel uses (R215). -/
def Obligations.ScalarQueues : Prop :=
  ScalarEffect .qopen
    (fun x w => bits w.opa.toNat 45 0 = 0 && !(x.queue (bit w.opa.toNat 50) (bits w.opa.toNat 49 47)).opened)
    (fun _ w x => x.setQueue (bit w.opa.toNat 50) (bits w.opa.toNat 49 47)
      { words := [], opened := true, rotate := bit w.opa.toNat 46, last := none, taken := [] }) ∧
  ScalarEffect .qclose
    (fun x w => bits w.opa.toNat 46 0 = 0 && (x.queue (bit w.opa.toNat 50) (bits w.opa.toNat 49 47)).opened &&
      !x.stillRead (bit w.opa.toNat 50) (bits w.opa.toNat 49 47))
    (fun _ w x => x.setQueue (bit w.opa.toNat 50) (bits w.opa.toNat 49 47)
      { words := [], opened := false, rotate := false, last := none, taken := [] }) ∧
  ScalarEffect .chcfg
    (fun x w => bits w.opa.toNat 12 0 = 0 && bits w.opa.toNat 46 39 ≠ 0 && bits w.opa.toNat 31 16 ≠ 0 &&
      !(x.chans.getD (bits w.opa.toNat 50 47) {}).bound &&
      !(x.chans.any fun o => o.bound && o.sq = bits w.opa.toNat 15 13) && !x.drainedByAccess (bits w.opa.toNat 15 13))
    (fun _ w x =>
      let v : Channel :=
        { bound := true, dmask := bits w.opa.toNat 46 39, dq := bits w.opa.toNat 38 36, dctr := bits w.opa.toNat 35 32,
          msglen := bits w.opa.toNat 31 16, sq := bits w.opa.toNat 15 13, toks := [] }
      { x with chans := x.chans.set (bits w.opa.toNat 50 47) v })

/-- A token (SIGNAL of KIND 3) of a scalar instruction waits at its channel behind the words the channel still has to send
(R205, R215), shown for NOP with less than a line of them and no other channel bound: nothing but the tile changes, and the
channel holds the amount ARG + 1 behind those words. -/
def Obligations.TokenWaitsBehindWords : Prop :=
  ∀ (i : Fin 64) (d : Side) (w : NInstr) (s : State) (ch : Channel) (q : Nat),
    s.readyTile i 0 d w = true → bits w.sig.toNat 11 10 = 3 → w.opa = 0 →
    (s.tilesAt i).chans[bits w.sig.toNat 9 4]? = some ch → ch.toks = [] →
    (∀ k v, k ≠ bits w.sig.toNat 9 4 → (s.tilesAt i).chans[k]? = some v → v.bound = false) →
    ((s.tilesAt i).outq.getD ch.sq {}).words.length = q → 0 < q → q < 16 →
    ∃ t, exec (.nop i d ⟨0, w⟩) s = .next t ∧
      TileBecomes s t i (Tile.settle { issueTile (s.tilesAt i) d w with
        chans := (s.tilesAt i).chans.set (bits w.sig.toNat 9 4) { ch with toks := [(q, bits w.sig.toNat 3 0 + 1)] } })

/-- An unmet WAIT condition, as the stream sees the flags (R206), holds the instruction (R197): the stream keeps its place, the first
unmet condition is kept for the watchdog and both with the stream, and nothing else changes; of every scalar instruction. -/
def Sys2Proof.Claims.UnmetWaitHolds : Prop :=
  ∀ (i : Fin 64) (d : Side) (code : BitVec 12) (w : NInstr) (s : State) (c : Nat), s.canIssue i d = true →
    waitLegal w.wa.toNat = true → waitLegal w.wb.toNat = true → unmet ((s.tilesAt i).seenBy d) w = some c →
    ∀ k ∈ [Instr.nop i d ⟨code, w⟩, .epw i d w, .flagclr i d w, .ctrset i d w, .qopen i d w, .qclose i d w, .chcfg i d w,
        .endStream i d w],
      ∃ t, exec k s = .next t ∧
        TileBecomes s t i ((s.tilesAt i).setStream d (((s.tilesAt i).stream d).hold w c))

/-! ### Engine instructions: what every one of Worsted, Damask, Percale and Gauze does when it issues (ch. 04 to 09) -/

/-- An engine instruction: its tile, UNIT and OP codes, stream, word, and what its engine makes of it. -/
structure Sys2Proof.Claims.EngineCmd where
  tile : Fin 64
  unit : Nat
  op : Nat
  side : Side
  word : NInstr
  plan : (s : State) → Tx s → Plan s

/-- The engine instructions (R203, the tables of ch. 04 to 08). -/
def Sys2Proof.Claims.engineOf : Instr → Option EngineCmd
  | .ntt i d w => some ⟨i, 2, 0x01, d, w, fun _ => transformPlan i w true⟩
  | .intt i d w => some ⟨i, 2, 0x02, d, w, fun _ => transformPlan i w false⟩
  | .aut i d w => some ⟨i, 2, 0x03, d, w, fun _ => autPlan i w⟩
  | .mul i d w => some ⟨i, 2, 0x10, d, w, fun _ => mulPlan i w⟩
  | .mulc i d w => some ⟨i, 2, 0x11, d, w, fun _ => mulcPlan i w⟩
  | .mac i d w => some ⟨i, 2, 0x12, d, w, fun _ => macPlan i w⟩
  | .mac2 i d w => some ⟨i, 2, 0x13, d, w, fun _ => mac2Plan i w⟩
  | .accrd i d w => some ⟨i, 2, 0x14, d, w, fun _ => accrdPlan i w⟩
  | .accclr i d w => some ⟨i, 2, 0x15, d, w, fun _ => accclrPlan i w⟩
  | .tens i d w => some ⟨i, 2, 0x16, d, w, fun _ => tensPlan i w⟩
  | .bconv i d w => some ⟨i, 2, 0x17, d, w, fun _ => bconvPlan i w⟩
  | .lift i d w => some ⟨i, 2, 0x18, d, w, fun _ => liftPlan i w⟩
  | .resc i d w => some ⟨i, 2, 0x19, d, w, fun _ => rescPlan i w⟩
  | .denc i d w => some ⟨i, 3, 0x01, d, w, fun _ => dencPlan i w⟩
  | .dmac i d w => some ⟨i, 3, 0x02, d, w, fun _ => dmacPlan i w⟩
  | .drd i d w => some ⟨i, 3, 0x03, d, w, fun _ => drdPlan i w⟩
  | .dimm i d w => some ⟨i, 3, 0x04, d, w, fun _ => dimmPlan i w⟩
  | .dird i d w => some ⟨i, 3, 0x05, d, w, fun _ => dirdPlan i w⟩
  | .pclAdd i d w => some ⟨i, 4, 0x00, d, w, fun _ => pclElem i w (intOp fun a b => (a + b) % 2 ^ 32)⟩
  | .pclSub i d w => some ⟨i, 4, 0x01, d, w, fun _ => pclElem i w (intOp fun a b => (a + (2 ^ 32 - b)) % 2 ^ 32)⟩
  | .pclMul i d w => some ⟨i, 4, 0x02, d, w, fun _ => pclElem i w (intOp fun a b => a * b % 2 ^ 32)⟩
  | .mulh i d w => some ⟨i, 4, 0x03, d, w, fun _ =>
      pclElem i w (intOp fun a b => encodeSigned (floorI (i32 a * i32 b) (2 ^ 32)) 32)⟩
  | .sadd i d w => some ⟨i, 4, 0x04, d, w, fun _ => pclElem i w (satOp false (· + ·))⟩
  | .ssub i d w => some ⟨i, 4, 0x05, d, w, fun _ => pclElem i w (satOp false (· - ·))⟩
  | .saddu i d w => some ⟨i, 4, 0x4D, d, w, fun _ => pclElem i w (satOp true (· + ·))⟩
  | .ssubu i d w => some ⟨i, 4, 0x4E, d, w, fun _ => pclElem i w (satOp true (· - ·))⟩
  | .pclMin i d w => some ⟨i, 4, 0x06, d, w, fun _ => pclElem i w (intOp fun a b => if i32 b < i32 a then b else a)⟩
  | .pclMax i d w => some ⟨i, 4, 0x07, d, w, fun _ => pclElem i w (intOp fun a b => if i32 a < i32 b then b else a)⟩
  | .pclAnd i d w => some ⟨i, 4, 0x08, d, w, fun _ => pclElem i w (intOp fun a b => a &&& b)⟩
  | .pclOr i d w => some ⟨i, 4, 0x09, d, w, fun _ => pclElem i w (intOp fun a b => a ||| b)⟩
  | .pclXor i d w => some ⟨i, 4, 0x0A, d, w, fun _ => pclElem i w (intOp fun a b => a ^^^ b)⟩
  | .pclNot i d w => some ⟨i, 4, 0x0B, d, w, fun _ => pclElem i w { srcs := 1, f := fun _ => map1 fun a => 2 ^ 32 - 1 - a }⟩
  | .shl i d w => some ⟨i, 4, 0x0C, d, w, fun _ => pclElem i w (shiftOp w fun a n => (a <<< n) % 2 ^ 32)⟩
  | .shr i d w => some ⟨i, 4, 0x0D, d, w, fun _ => pclElem i w (shiftOp w fun a n => a >>> n)⟩
  | .sar i d w => some ⟨i, 4, 0x0E, d, w, fun _ => pclElem i w (shiftOp w fun a n => encodeSigned (floorI (i32 a) (2 ^ n)) 32)⟩
  | .cmp i d w => some ⟨i, 4, 0x0F, d, w, fun _ => pclElem i w (cmpOp w)⟩
  | .sel i d w => some ⟨i, 4, 0x10, d, w, fun _ => pclElem i w selOp⟩
  | .pclModAdd i d w => some ⟨i, 4, 0x20, d, w, fun _ => pclElem i w (modOp 2 fun q => zip2 (modAdd q))⟩
  | .pclModSub i d w => some ⟨i, 4, 0x21, d, w, fun _ => pclElem i w (modOp 2 fun q => zip2 (modSub q))⟩
  | .pclModNeg i d w => some ⟨i, 4, 0x22, d, w, fun _ => pclElem i w (modOp 1 fun q => map1 (modNeg q))⟩
  | .pclModMul i d w => some ⟨i, 4, 0x23, d, w, fun _ => pclElem i w (modOp 2 fun q => zip2 (modMul q))⟩
  | .pclModMulc i d w => some ⟨i, 4, 0x24, d, w, fun _ =>
      pclForm i w (modOp 1 fun q => map1 fun a => modMul q a (if bit w.a 32 then fromInt (i32 (bits w.a 31 0)) q else bits w.a 31 0)) (bit w.a 33) (bits w.a 35 34 = 0)⟩
  | .pclModLift i d w => some ⟨i, 4, 0x25, d, w, fun _ =>
      pclElem i w (modOp 1 fun q => map1 fun a => encodeSigned (centred (a % q) q) 32)⟩
  | .fromint i d w => some ⟨i, 4, 0x26, d, w, fun _ =>
      pclElem i w { srcs := 1, prime := true, f := fun q => map1 fun a => fromInt (i32 a) q }⟩
  | .fadd i d w => some ⟨i, 4, 0x30, d, w, fun _ =>
      fpPlan i w 0 2 fun g rm xs => finish g rm (fAdd rm (opd g xs 0) (opd g xs 1))⟩
  | .fsub i d w => some ⟨i, 4, 0x31, d, w, fun _ =>
      fpPlan i w 0 2 fun g rm xs => finish g rm (fAdd rm (opd g xs 0) (opd g xs 1).neg)⟩
  | .fmul i d w => some ⟨i, 4, 0x32, d, w, fun _ => fpPlan i w 0 2 fun g rm xs => finish g rm (fMul (opd g xs 0) (opd g xs 1))⟩
  | .fma i d w => some ⟨i, 4, 0x33, d, w, fun _ =>
      fpPlan i w (31 <<< 21) 3 fun g rm xs => finish g rm (fFma rm (opd g xs 0) (opd g xs 1) (opd g xs 2))⟩
  | .fmin i d w => some ⟨i, 4, 0x34, d, w, fun _ => fpPlan i w 0 2 fun g _ xs => g.minMax false (xs.getD 0 0) (xs.getD 1 0)⟩
  | .fmax i d w => some ⟨i, 4, 0x35, d, w, fun _ => fpPlan i w 0 2 fun g _ xs => g.minMax true (xs.getD 0 0) (xs.getD 1 0)⟩
  | .fcmp i d w => some ⟨i, 4, 0x36, d, w, fun _ => fcmpPlan i w⟩
  | .cvt i d w => some ⟨i, 4, 0x37, d, w, fun _ => cvtPlan i w⟩
  | .fenc i d w => some ⟨i, 4, 0x40, d, w, fun _ => fencPlan i w⟩
  | .fdec i d w => some ⟨i, 4, 0x41, d, w, fun _ => fdecPlan i w⟩
  | .fdec2 i d w => some ⟨i, 4, 0x42, d, w, fun _ => fdec2Plan i w⟩
  | .trn i d w => some ⟨i, 4, 0x43, d, w, fun _ => trnPlan w false⟩
  | .trnp i d w => some ⟨i, 4, 0x44, d, w, fun _ => trnPlan w true⟩
  | .cadd i d w => some ⟨i, 4, 0x45, d, w, fun _ => caddPlan i w modAdd⟩
  | .csub i d w => some ⟨i, 4, 0x46, d, w, fun _ => caddPlan i w modSub⟩
  | .padd i d w => some ⟨i, 4, 0x47, d, w, fun _ => paddPlan i w⟩
  | .ldrop i d w => some ⟨i, 4, 0x48, d, w, fun _ => ldropPlan i w⟩
  | .slotenc i d w => some ⟨i, 4, 0x49, d, w, fun _ => slotencPlan i w⟩
  | .slotdec i d w => some ⟨i, 4, 0x4A, d, w, fun _ => slotdecPlan i w⟩
  | .pld i d w => some ⟨i, 4, 0x4B, d, w, fun _ => pldPlan w⟩
  | .pst i d w => some ⟨i, 4, 0x4C, d, w, fun _ => pstPlan w⟩
  | .extract i d w => some ⟨i, 5, 0x01, d, w, fun _ => gauzePlan i 0x01 w (extractPlan i w)⟩
  | .lweKs i d w => some ⟨i, 5, 0x02, d, w, fun _ => gauzePlan i 0x02 w (lweKsPlan i w)⟩
  | .modsw i d w => some ⟨i, 5, 0x03, d, w, fun _ => gauzePlan i 0x03 w (modswPlan i w)⟩
  | .blindrot i d w => some ⟨i, 5, 0x04, d, w, fun _ => gauzePlan i 0x04 w (blindrotPlan i w)⟩
  | .repack i d w => some ⟨i, 5, 0x05, d, w, fun _ => gauzePlan i 0x05 w (repackPlan i w)⟩
  | _ => none

/-- What the issue of an LWE_KS or a BLINDROT leaves to do (R162, R166, R168); of every other instruction nothing. -/
def Sys2Proof.Claims.afterIssue (k : EngineCmd) (s : State) (t : Tx s) : Tx s :=
  if k.unit = 5 ∧ (k.op = 2 ∨ k.op = 4) then (begin s).afterMacro k.tile k.op k.word t else t

/-- Inbound queues hold the words the steps take. -/
def Sys2Proof.Claims.queuesFilled {s : State} (x : Tile) (steps : List (EStep s)) : Prop :=
  ∀ q, q < 8 → queueWant steps q ≤ (x.inq.getD q {}).words.length

/-- An engine instruction on a tile that can issue it, whose operands and queues are in order: its conditions are consumed and
its stream moves on, its ledger update is made, its limbs are worked in order, and it is in flight with its SIGNAL and the queues it
reads and writes (R52, R197, R203 to R205); of every engine instruction in every form. A BLINDROT, and an LWE_KS of a tile that waits
for the scatter, have work left. -/
def Obligations.EngineIssues : Prop :=
  ∀ (c : Instr) (k : EngineCmd) (s : State) (update : Tx s → Tx s) (steps : List (EStep s)) (mont : Bool),
    engineOf c = some k → s.readyTile k.tile k.unit k.side k.word = true → k.plan s (begin s) = .run update steps mont →
    (begin s).stepsLegal k.tile steps = true → queuesFilled (s.tilesAt k.tile) steps →
    exec c s = done (afterIssue k s
      (let t := ((update ((begin s).putTiles k.tile (issueTile (s.tilesAt k.tile) k.side k.word))).when mont
          fun t => t.bump TILE.RESCNT.GENERIC 1 k.tile).runSteps k.tile k.unit false steps
       if t.now.runState k.tile = runStopped then t.modTiles k.tile Tile.settle
       else (t.modTiles k.tile fun x => { x with engines := x.engines ++ [x.flying k.unit k.op k.word
          ((List.range 8).filter fun q => queueWant steps q ≠ 0)
          ((List.range 8).filter (namesQueue (steps.flatMap (·.writes))))] }).modTiles k.tile Tile.settle))

/-- Nothing but tile `i` changes, which becomes `x`; then the tile stops with an error. -/
def Sys2Proof.Claims.ThenStops (s t : State) (i : Nat) (x : Tile) (st : Status) (detail : Nat) : Prop :=
  ∃ u, TileBecomes s u i x ∧ TileStops u t i st detail

/-- An engine instruction whose WAIT fields are illegal, or, once its conditions hold, whose word is illegal for its unit, or that its
engine refuses, stops its tile (R205, R214): with RANGE, or with the refusal's status; the instruction does not issue. A Gauze macro that a pending bundle bars is GauzeOrder's. -/
def Sys2Proof.Claims.EngineRefuses : Prop :=
  ∀ (c : Instr) (k : EngineCmd) (s : State), engineOf c = some k →
    (k.unit = 5 → (s.tilesAt k.tile).holdsOther k.op k.word = false) →
    (s.canIssue k.tile k.side = true →
      (waitLegal k.word.wa.toNat && waitLegal k.word.wb.toNat) = false ∨
        (unmet ((s.tilesAt k.tile).seenBy k.side) k.word = none ∧ issueLegal (s.tilesAt k.tile) k.unit k.side k.word = false) →
      ∃ t, exec c s = .next t ∧ TileStops s t k.tile .RANGE 0) ∧
    ∀ st, s.readyTile k.tile k.unit k.side k.word = true → st ≠ .LEDGER → k.plan s (begin s) = .refuse st none →
      ∃ t, exec c s = .next t ∧ ThenStops s t k.tile (s.tilesAt k.tile).settle st 0

/-- An engine instruction that the ledger traps stops its tile with LEDGER, its record failing with the trap's code (R48, R475). -/
def Sys2Proof.Claims.EngineLedgerTraps : Prop :=
  ∀ (c : Instr) (k : EngineCmd) (s : State) (d : Nat), engineOf c = some k →
    s.readyTile k.tile k.unit k.side k.word = true → k.plan s (begin s) = .refuse .LEDGER (some d) →
    ∃ t, exec c s = .next t ∧ ThenStops s t k.tile (s.tilesAt k.tile).settle .LEDGER (d % 256)

/-- An engine instruction with an unmet WAIT condition is held (R197): nothing changes but what the stream waits for; and one whose
pipe is taken by an instruction still at work waits for it (R73, R122, R197). -/
def Sys2Proof.Claims.EngineHolds : Prop :=
  (∀ (c : Instr) (k : EngineCmd) (s : State) (v : Nat), engineOf c = some k → s.canIssue k.tile k.side = true →
    waitLegal k.word.wa.toNat = true → waitLegal k.word.wb.toNat = true →
    unmet ((s.tilesAt k.tile).seenBy k.side) k.word = some v →
    ∃ t, exec c s = .next t ∧ TileBecomes s t k.tile
      ((s.tilesAt k.tile).setStream k.side (((s.tilesAt k.tile).stream k.side).hold k.word v))) ∧
  ∀ (c : Instr) (k : EngineCmd) (s : State), engineOf c = some k → s.canIssue k.tile k.side = true →
    issueLegal (s.tilesAt k.tile) k.unit k.side k.word = true → unmet ((s.tilesAt k.tile).seenBy k.side) k.word = none →
    (s.tilesAt k.tile).pipeBusy k.unit k.op = true →
    ∃ t, exec c s = .next t ∧ TileBecomes s t k.tile (s.tilesAt k.tile).settle

/-- The tile on which an engine instruction has issued and stalls on its first step: all its steps are left, and it has drawn what
words the queues of that step had. -/
def Sys2Proof.Claims.stalledTile {s : State} (k : EngineCmd) (e : EStep s) (es : List (EStep s)) : Tile :=
  let x := issueTile (s.tilesAt k.tile) k.side k.word
  let y := Tile.draw { x with engines := x.engines ++ [{ x.flying k.unit k.op k.word
      ((List.range 8).filter fun q => queueWant (e :: es) q ≠ 0)
      ((List.range 8).filter (namesQueue ((e :: es).flatMap (·.writes)))) with
        left := es.length + 1, side := k.side, word := k.word, view := s.issueView k.tile }] } (queueWant [e])
  Tile.settle { y with stallQ := insertSorted y.stallQ k.unit }

/-- An engine instruction whose first step finds an inbound queue without the words it reads issues and stalls (R16, R92): STRCNT.UNDERRUN
counts one stall once, the epoch is marked perturbed, all its steps are left, and no byte of memory has moved; shown where nothing
waits for room in the tile's queues and the issue itself updates nothing. -/
def Sys2Proof.Claims.EngineUnderruns : Prop :=
  ∀ (c : Instr) (k : EngineCmd) (s : State) (e : EStep s) (es : List (EStep s)) (q : Nat),
    engineOf c = some k → s.readyTile k.tile k.unit k.side k.word = true → k.plan s (begin s) = .run id (e :: es) false →
    (begin s).stepsLegal k.tile (e :: es) = true → q < 8 →
    ((s.tilesAt k.tile).inq.getD q {}).offers.length < queueWant [e] q →
    (∀ r ∈ e.writes, ∀ q, r.1 = .queue q → ((s.tilesAt k.tile).outq.getD q {}).words.length ≤ 4096) →
    (s.tilesAt k.tile).kstream = none → (s.tilesAt k.tile).transfers = [] → (∀ r ∈ (s.tilesAt k.tile).rx, r.2.left = 0) →
    (s.tilesAt k.tile).stallQ.contains k.unit = false →
    ∃ t, exec c s = .next t ∧
      t.tilesAt k.tile = stalledTile k e es ∧
      (∀ j, j ≠ k.tile.val → t.tilesAt j = s.tilesAt j) ∧
      t.fld TILE.STRCNT.UNDERRUN k.tile = min (s.fld TILE.STRCNT.UNDERRUN k.tile + 1) 0xFFFF ∧
      t.fld TILE.RUNSTAT.PERTURBED k.tile = 1 ∧ t.mem = s.mem ∧ t.records = s.records

/-- A poisoned line among the sources of the first limb stops the tile with POISON before anything is written (R52, R478): memory,
registers and banks keep their contents; shown for steps whose sources are no queues, and that leave nothing undefined (R170). -/
def Sys2Proof.Claims.EngineStopsOnPoison : Prop :=
  ∀ (c : Instr) (k : EngineCmd) (s : State) (e : EStep s) (es : List (EStep s)), engineOf c = some k →
    s.readyTile k.tile k.unit k.side k.word = true → k.plan s (begin s) = .run id (e :: es) false →
    (begin s).stepsLegal k.tile (e :: es) = true → queuesFilled (s.tilesAt k.tile) (e :: es) →
    (∀ r ∈ e.reads, ∀ q, r.1 ≠ .queue q) →
    (∃ off n m, (.spad off, n, m) ∈ e.reads ∧ s.poisoned (spadBase k.tile + off) (4 * n) = true) →
    (∀ r ∈ e.reads, ∀ off, r.1 = .spad off → r.2.2 ≠ 0 →
      nonCanonical r.2.2 (s.readWords (spadBase k.tile + off) r.2.1) = false) →
    (∀ r ∈ e.reads, ∀ n, r.1 = .tr n → r.2.2 ≠ 0 → nonCanonical r.2.2 ((s.tilesAt k.tile).reg n) = false) →
    e.more = [] → (∀ t, e.spoil t = t) →
    ∃ t, exec c s = .next t ∧
      ThenStops s t k.tile (issueTile (s.tilesAt k.tile) k.side k.word).settle .POISON 0

/-! ### Percale's register forms (ch. 08) -/

/-- A tile with one more engine instruction in flight, whose result and SIGNAL are still to become visible (R205). -/
def Sys2Proof.Claims.inFlight (x : Tile) (unit op : Nat) (w : NInstr) : Tile :=
  Tile.settle { x with engines := x.engines ++ [x.flying unit op w [] []] }

/-- Tile registers written in order. -/
def Sys2Proof.Claims.setRegs (x : Tile) (l : List (Nat × List Nat)) : Tile := l.foldl (fun x p => x.setReg p.1 p.2) x

/-- What an engine instruction notes in its tile's page: RESCNT.GENERIC and RESCNT.NONCANON count it where it worked on a
generic-path prime and where it read a word that is not a canonical residue (R71), and PCLFLAGS gathers its flags (R194). -/
def Sys2Proof.Claims.noted (s : State) (i : Nat) (gen nc : Bool) (fl : Nat) : State :=
  ((((begin s).when gen fun t => t.bump TILE.RESCNT.GENERIC 1 i).when nc fun t => t.bump TILE.RESCNT.NONCANON 1 i).pclFlags
    i fl).now

/-- The operand word names three registers and the OPA bits outside `used` are as a register form has them (R207, R208). -/
def Sys2Proof.Claims.regFormOk (w : NInstr) (used : Nat) : Bool :=
  (regRefs w).isSome && decide (w.ldg = 0) && decide (bits w.a 35 27 = 0) && immOk w (used + 2 ^ 26) && bit w.imm 26

/-- Destination, first and second source register of a register form. -/
def Sys2Proof.Claims.regNames (w : NInstr) : Nat × Nat × Nat := (regRefs w).getD (0, 0, 0)

/-- A register-form instruction on a tile that can issue it, where neither trap stops it: the tile's registers take `res`
of the tile, the tile's counters and flags take note of it, and nothing else changes. -/
def Sys2Proof.Claims.RegForm (c : Fin 64 → Side → NInstr → Instr) (op used : Nat) (ok : State → Fin 64 → NInstr → Bool)
    (res : State → Fin 64 → NInstr → List (Nat × List Nat)) (gen nc : State → Fin 64 → NInstr → Bool)
    (fl : State → Fin 64 → NInstr → Nat) : Prop :=
  ∀ (i : Fin 64) (w : NInstr) (s : State), s.readyTile i 4 .execute w = true → regFormOk w used = true → ok s i w = true →
    (nc s i w = true → (begin s).flagEff TILE.RESCTL.NONCANON_TRAP i = false) →
    (bit (fl s i w) 3 = true → (begin s).flagEff TILE.PCLCTL.NV_TRAP i = false) →
    ∃ t, exec (c i .execute w) s = .next t ∧
      TileBecomes (noted s i (gen s i w) (nc s i w) (fl s i w)) t i
        (inFlight (setRegs (issueTile (s.tilesAt i) .execute w) (res s i w)) 4 op w)

/-- An integer operation: the destination register takes `f` of the first and second source and its own old contents. -/
def Sys2Proof.Claims.IntForm (c : Fin 64 → Side → NInstr → Instr) (op used : Nat) (ok : NInstr → Bool)
    (f : NInstr → List Nat → List Nat → List Nat → List Nat) (fl : List Nat → List Nat → Nat) : Prop :=
  RegForm c op used (fun _ _ w => ok w)
    (fun s i w => let r := regNames w; let x := s.tilesAt i
      [(r.1, f w (x.reg r.2.1) (x.reg r.2.2) (x.reg r.1))])
    (fun _ _ _ => false) (fun _ _ _ => false)
    (fun s i w => let r := regNames w; let x := s.tilesAt i; fl (x.reg r.2.1) (x.reg r.2.2))

/-- A two-source element operation without flags. -/
def Sys2Proof.Claims.Elem2 (c : Fin 64 → Side → NInstr → Instr) (op : Nat) (f : Nat → Nat → Nat) : Prop :=
  IntForm c op 0 (fun _ => true) (fun _ a b _ => List.zipWith f a b) (fun _ _ => 0)

/-- A shift by the constant of IMM [11:6], below 32. -/
def Sys2Proof.Claims.Shift (c : Fin 64 → Side → NInstr → Instr) (op : Nat) (f : Nat → Nat → Nat) : Prop :=
  IntForm c op 0xFC0 (fun w => bits w.imm 11 6 < 32) (fun w a _ _ => a.map (f · (bits w.imm 11 6))) (fun _ _ => 0)

/-- ADD, SUB, MUL, MULH, MIN, MAX, AND, OR, XOR and NOT on 256 32-bit elements (R178). MULH, MIN and MAX take signed
elements: the model's choice (log entry 22). -/
def Sys2Proof.Claims.PercaleInteger : Prop :=
  Elem2 .pclAdd 0x00 (fun a b => (a + b) % 2 ^ 32) ∧ Elem2 .pclSub 0x01 (fun a b => (a + (2 ^ 32 - b)) % 2 ^ 32) ∧
  Elem2 .pclMul 0x02 (fun a b => a * b % 2 ^ 32) ∧
  Elem2 .mulh 0x03 (fun a b => ((i32 a * i32 b).fdiv (2 ^ 32) % (2 ^ 32 : Int)).toNat) ∧
  Elem2 .pclMin 0x06 (fun a b => if i32 b < i32 a then b else a) ∧
  Elem2 .pclMax 0x07 (fun a b => if i32 a < i32 b then b else a) ∧ Elem2 .pclAnd 0x08 (fun a b => a &&& b) ∧
  Elem2 .pclOr 0x09 (fun a b => a ||| b) ∧ Elem2 .pclXor 0x0A (fun a b => a ^^^ b) ∧
  IntForm .pclNot 0x0B 0 (fun _ => true) (fun _ a _ _ => a.map (2 ^ 32 - 1 - ·)) (fun _ _ => 0)

/-- SHL, SHR and SAR by the constant n of IMM [11:6], 0 to 31; CMP's mask of ones where the condition of IMM [3:0] holds; SEL's
choice by the mask the destination holds (R178; CMP's codes and SEL's mask bit are the model's choice, log entry 22). -/
def Sys2Proof.Claims.PercaleShiftCompare : Prop :=
  Shift .shl 0x0C (fun a n => (a <<< n) % 2 ^ 32) ∧ Shift .shr 0x0D (fun a n => a >>> n) ∧
  Shift .sar 0x0E (fun a n => ((i32 a).fdiv (2 ^ n) % (2 ^ 32 : Int)).toNat) ∧
  IntForm .cmp 0x0F 0xF (fun w => decide (bits w.imm 3 0 % 8 < 6))
    (fun w a b _ => List.zipWith (fun a b =>
      if cond6 (bits w.imm 3 0 % 8) (if bits w.imm 3 0 < 8 then i32 a < i32 b else a < b) (a = b) then 0xFFFFFFFF else 0) a b)
    (fun _ _ => 0) ∧
  IntForm .sel 0x10 0 (fun _ => true)
    (fun _ a b m => List.zipWith (fun (p : Nat × Nat) m => if bit m 31 then p.1 else p.2) (a.zip b) m) (fun _ _ => 0)

/-- A saturating element operation: `v` exact, then clamped to `lo` to `hi`; PCLFLAGS.ISAT where an element saturates. -/
def Sys2Proof.Claims.Saturating (c : Fin 64 → Side → NInstr → Instr) (op : Nat) (val : Nat → Int) (lo hi : Int)
    (v : Int → Int → Int) : Prop :=
  IntForm c op 0 (fun _ => true)
    (fun _ a b _ => List.zipWith (fun a b => (max lo (min hi (v (val a) (val b))) % (2 ^ 32 : Int)).toNat) a b)
    (fun a b => if (List.zipWith (fun a b => decide (v (val a) (val b) < lo ∨ hi < v (val a) (val b))) a b).any id then 16 else 0)

/-- SADD, SSUB, SADDU and SSUBU (R178): the signed or unsigned result, saturated; a saturation sets PCLFLAGS.ISAT. -/
def Sys2Proof.Claims.PercaleSaturating : Prop :=
  Saturating .sadd 0x04 i32 (-0x80000000) 0x7FFFFFFF (· + ·) ∧ Saturating .ssub 0x05 i32 (-0x80000000) 0x7FFFFFFF (· - ·) ∧
  Saturating .saddu 0x4D (fun x => x) 0 0xFFFFFFFF (· + ·) ∧ Saturating .ssubu 0x4E (fun x => x) 0 0xFFFFFFFF (· - ·)

/-- The prime of a register form that names one of a live set's (R208). -/
def Sys2Proof.Claims.namedPrime (s : State) (w : NInstr) (k : Nat) : Limb := (s.regPrime w k).getD ⟨0, 1, false, 0⟩

/-- A modular operation with the prime q of index [43:36]: the destination takes `f q` of the sources; a generic-path prime and
a source word of q or more count (R52, R71). -/
def Sys2Proof.Claims.Modular (c : Fin 64 → Side → NInstr → Instr) (op srcs : Nat) (f : Nat → List Nat → List Nat → List Nat) :
    Prop :=
  RegForm c op 0 (fun s _ w => (s.regPrime w w.level).isSome)
    (fun s i w => let r := regNames w; let x := s.tilesAt i
      [(r.1, f (namedPrime s w w.level).q (x.reg r.2.1) (x.reg r.2.2))])
    (fun s _ w => (namedPrime s w w.level).mont)
    (fun s i w => let r := regNames w; let x := s.tilesAt i; let q := (namedPrime s w w.level).q
      q ≠ 0 && (nonCanonical q (x.reg r.2.1) || (decide (srcs = 2) && nonCanonical q (x.reg r.2.2))))
    (fun _ _ _ => 0)

/-- Modular ADD, SUB, NEG, MUL and LIFT on tile registers, and FROMINT (R64, R177): sum, difference, negative and product mod q;
the centred representative as a signed element; the residue of a signed element. -/
def Sys2Proof.Claims.PercaleModular : Prop :=
  Modular .pclModAdd 0x20 2 (fun q a b => List.zipWith (fun a b => (a + b) % q) a b) ∧
  Modular .pclModSub 0x21 2 (fun q a b => List.zipWith (fun a b => (a % q + (q - b % q)) % q) a b) ∧
  Modular .pclModNeg 0x22 1 (fun q a _ => a.map fun a => (q - a % q) % q) ∧
  Modular .pclModMul 0x23 2 (fun q a b => List.zipWith (fun a b => a * b % q) a b) ∧
  Modular .pclModLift 0x25 1 (fun q a _ => a.map fun a => (centred (a % q) q % (2 ^ 32 : Int)).toNat) ∧
  RegForm .fromint 0x26 0 (fun s _ w => (s.regPrime w w.level).isSome)
    (fun s i w => let r := regNames w
      [(r.1, ((s.tilesAt i).reg r.2.1).map fun a => (i32 a % ((namedPrime s w w.level).q : Int)).toNat)])
    (fun s _ w => (namedPrime s w w.level).mont) (fun _ _ _ => false) (fun _ _ _ => 0)

/-- Modular MULC (R177, R208): OPA [31:0] is the multiplier w, or with OPA [32] a signed constant; OPA [33] is the form bit. -/
def Sys2Proof.Claims.PercaleModularConstant : Prop :=
  ∀ (i : Fin 64) (w : NInstr) (s : State) (l : Limb) (d a b : Nat), s.readyTile i 4 .execute w = true →
    regRefs w = some (d, a, b) → w.ldg = 0 → bits w.a 35 34 = 0 → bit w.a 33 = true → s.regPrime w w.level = some l →
    let x := s.tilesAt i
    let nc := decide (l.q ≠ 0) && nonCanonical l.q (x.reg a)
    (nc = true → (begin s).flagEff TILE.RESCTL.NONCANON_TRAP i = false) →
    ∃ t, exec (.pclModMulc i .execute w) s = .next t ∧
      TileBecomes (noted s i l.mont nc 0) t i (inFlight ((issueTile x .execute w).setReg d ((x.reg a).map fun a =>
        a * (if bit w.a 32 then (i32 (bits w.a 31 0) % (l.q : Int)).toNat else bits w.a 31 0) % l.q)) 4 0x24 w)

/-- Element encodings of an operand of a format at register `k`: one register, or for FP64 an even pair (R172). -/
def Sys2Proof.Claims.fpOperand (x : Tile) (g : Fmt) (k : Nat) : List Nat := fpElems g (((fpRegs g k).getD []).map x.reg)

/-- Encodings and flags of `f` over 256 elements of the operands. -/
def Sys2Proof.Claims.fpMap (f : List Nat → Nat × Nat) (ops : List (List Nat)) : List (Nat × Nat) :=
  (List.range 256).map fun k => f (ops.map (·.getD k 0))

/-- A floating-point operation: registers that hold `xs` in format `g`, and the flags. -/
def Sys2Proof.Claims.fpImage (g : Fmt) (d : Nat) (r : List (Nat × Nat)) : List (Nat × List Nat) :=
  ((fpRegs g d).getD []).zip (fpImages g (r.map (·.1)))

/-- A floating-point register form of format IMM [1:0] with `n` sources (the third IMM [25:21]). -/
def Sys2Proof.Claims.FpForm (c : Fin 64 → Side → NInstr → Instr) (op used n : Nat) (f : Fmt → Rm → List Nat → Nat × Nat) : Prop :=
  let ops (s : State) (i : Fin 64) (w : NInstr) : List (List Nat) :=
    let g := fmtOf (bits w.imm 1 0); let r := regNames w; let x := s.tilesAt i
    [fpOperand x g r.2.1, fpOperand x g r.2.2, fpOperand x g (bits w.imm 25 21)].take n
  let out (s : State) (i : Fin 64) (w : NInstr) := fpMap (f (fmtOf (bits w.imm 1 0)) ((begin s).rm i)) (ops s i w)
  RegForm c op (used + 3)
    (fun _ _ w => let g := fmtOf (bits w.imm 1 0); let r := regNames w
      ([r.1, r.2.1, r.2.2] ++ (if n = 3 then [bits w.imm 25 21] else [])).all fun k => (fpRegs g k).isSome)
    (fun s i w => fpImage (fmtOf (bits w.imm 1 0)) (regNames w).1 (out s i w)) (fun _ _ _ => false) (fun _ _ _ => false)
    (fun s i w => orAll ((out s i w).map (·.2)))

/-- FADD, FSUB, FMUL, FMA, FMIN and FMAX in the four formats, with the rounding attribute in effect (R182 to R186); each raises
its flags in PCLFLAGS and counts an invalid operation. -/
def Sys2Proof.Claims.PercaleFloat : Prop :=
  FpForm .fadd 0x30 0 2 (fun g rm v => finish g rm (fAdd rm (opd g v 0) (opd g v 1))) ∧
  FpForm .fsub 0x31 0 2 (fun g rm v => finish g rm (fAdd rm (opd g v 0) (opd g v 1).neg)) ∧
  FpForm .fmul 0x32 0 2 (fun g rm v => finish g rm (fMul (opd g v 0) (opd g v 1))) ∧
  FpForm .fma 0x33 (31 <<< 21) 3 (fun g rm v => finish g rm (fFma rm (opd g v 0) (opd g v 1) (opd g v 2))) ∧
  FpForm .fmin 0x34 0 2 (fun g _ v => g.minMax false (v.getD 0 0) (v.getD 1 0)) ∧
  FpForm .fmax 0x35 0 2 (fun g _ v => g.minMax true (v.getD 0 0) (v.getD 1 0))

/-- The format of a CVT code: 4 is INT32, the others as of IMM [1:0]. -/
def Sys2Proof.Claims.cvtFmt (c : Nat) : Fmt := if c = 4 then ⟨24, 127, 32⟩ else fmtOf c

/-- FCMP's mask and CVT's conversion (R182, R184, R185; the codes of IMM are the model's, log entry 22). -/
def Sys2Proof.Claims.PercaleCompareConvert : Prop :=
  (
    let out (s : State) (i : Fin 64) (w : NInstr) : List (Nat × Nat) :=
      let g := fmtOf (bits w.imm 1 0); let r := regNames w; let x := s.tilesAt i; let c := bits w.imm 5 2
      fpMap (fun v =>
        let a := opd g v 0; let b := opd g v 1
        ((if (if a.isNan || b.isNan then decide (c = 1) else cond6 c (fLt a b) (fEq a b)) then 0xFFFFFFFF else 0),
          sigFlag a ||| sigFlag b)) [fpOperand x g r.2.1, fpOperand x g r.2.2]
    RegForm .fcmp 0x36 0x3F
      (fun _ _ w => let g := fmtOf (bits w.imm 1 0)
        bits w.imm 5 2 ≤ 5 && (fpRegs g (regNames w).2.1).isSome && (fpRegs g (regNames w).2.2).isSome)
      (fun s i w => [((regNames w).1, (out s i w).map (·.1))]) (fun _ _ _ => false) (fun _ _ _ => false)
      (fun s i w => orAll ((out s i w).map (·.2)))) ∧
  (
    let out (s : State) (i : Fin 64) (w : NInstr) : List (Nat × Nat) :=
      let cf := bits w.imm 2 0; let ct := bits w.imm 5 3; let rm := (begin s).rm i
      fpMap (fun v =>
        if cf = 4 then (if ct = 4 then (v.getD 0 0, 0) else (cvtFmt ct).ofInt rm (i32 (v.getD 0 0)))
        else if ct = 4 then (cvtFmt cf).toInt32 rm (v.getD 0 0) else (cvtFmt cf).convert (cvtFmt ct) rm (v.getD 0 0))
        [fpOperand (s.tilesAt i) (cvtFmt cf) (regNames w).2.1]
    RegForm .cvt 0x37 0x3F
      (fun _ _ w => bits w.imm 2 0 ≤ 4 && bits w.imm 5 3 ≤ 4 && (fpRegs (cvtFmt (bits w.imm 2 0)) (regNames w).2.1).isSome &&
        (fpRegs (cvtFmt (bits w.imm 5 3)) (regNames w).1).isSome)
      (fun s i w => fpImage (cvtFmt (bits w.imm 5 3)) (regNames w).1 (out s i w)) (fun _ _ _ => false) (fun _ _ _ => false)
      (fun s i w => orAll ((out s i w).map (·.2))))

/-- FENC, FDEC and FDEC2 between floating-point registers and residue registers (R187 to R189): the exact value times 2^e
rounded to an integer and reduced; the centred lift, of one prime or two, times 2^−e rounded to the format. -/
def Obligations.PercaleEncode : Prop :=
  (
    let out (s : State) (i : Fin 64) (w : NInstr) : List (Nat × Nat) :=
      let g := fmtOf (bits w.imm 1 0)
      fpMap (fun v => let r := g.fenc (signed (bits w.imm 13 2) 12) (v.getD 0 0); (fromInt r.1 (namedPrime s w w.level).q, r.2))
        [fpOperand (s.tilesAt i) g (regNames w).2.1]
    RegForm .fenc 0x40 0xFFFF
      (fun s _ w => bits w.imm 15 14 = 0 && (s.regPrime w w.level).isSome && (fpRegs (fmtOf (bits w.imm 1 0)) (regNames w).2.1).isSome)
      (fun s i w => [((regNames w).1, (out s i w).map (·.1))]) (fun s _ w => (namedPrime s w w.level).mont) (fun _ _ _ => false)
      (fun s i w => orAll ((out s i w).map (·.2)))) ∧
  (
    let out (s : State) (i : Fin 64) (w : NInstr) : List (Nat × Nat) :=
      let g := fmtOf (bits w.imm 1 0); let q := (namedPrime s w w.level).q
      ((s.tilesAt i).reg (regNames w).2.1).map fun r => g.fdec ((begin s).rm i) (signed (bits w.imm 13 2) 12) (centred (r % q) q)
    RegForm .fdec 0x41 0x3FFF
      (fun s i w => (s.regPrime w w.level).isSome && (fpRegs (fmtOf (bits w.imm 1 0)) (regNames w).1).isSome)
      (fun s i w => fpImage (fmtOf (bits w.imm 1 0)) (regNames w).1 (out s i w)) (fun s _ w => (namedPrime s w w.level).mont)
      (fun s i w => let q := (namedPrime s w w.level).q; q ≠ 0 && nonCanonical q ((s.tilesAt i).reg (regNames w).2.1))
      (fun s i w => orAll ((out s i w).map (·.2)))) ∧
  (
    let out (s : State) (i : Fin 64) (w : NInstr) : List (Nat × Nat) :=
      let g := fmtOf (bits w.imm 1 0); let r := regNames w; let x := s.tilesAt i
      let qa := (namedPrime s w w.level).q; let qb := (namedPrime s w (w.level + 1)).q
      List.zipWith (fun a b => g.fdec ((begin s).rm i) (signed (bits w.imm 13 2) 12) (crt2 qa qb a b)) (x.reg r.2.1) (x.reg r.2.2)
    RegForm .fdec2 0x42 0x3FFF
      (fun s i w => (s.regPrime w w.level).isSome && (s.regPrime w (w.level + 1)).isSome &&
        decide ((namedPrime s w w.level).q ≠ (namedPrime s w (w.level + 1)).q) &&
        (fpRegs (fmtOf (bits w.imm 1 0)) (regNames w).1).isSome)
      (fun s i w => fpImage (fmtOf (bits w.imm 1 0)) (regNames w).1 (out s i w))
      (fun s _ w => (namedPrime s w w.level).mont || (namedPrime s w (w.level + 1)).mont)
      (fun s i w => let r := regNames w; let x := s.tilesAt i
        let qa := (namedPrime s w w.level).q; let qb := (namedPrime s w (w.level + 1)).q
        (qa ≠ 0 && nonCanonical qa (x.reg r.2.1)) || (qb ≠ 0 && nonCanonical qb (x.reg r.2.2)))
      (fun s i w => orAll ((out s i w).map (·.2))))

/-- TRN transposes the 16 by 16 image of a register, TRNP the two of an even pair (R192). -/
def Sys2Proof.Claims.PercaleTranspose : Prop :=
  RegForm .trn 0x43 0 (fun _ _ _ => true)
    (fun s i w => let r := regNames w; [(r.1, (List.range 256).map fun k => ((s.tilesAt i).reg r.2.1).getD (16 * (k % 16) + k / 16) 0)])
    (fun _ _ _ => false) (fun _ _ _ => false) (fun _ _ _ => 0) ∧
  RegForm .trnp 0x44 0 (fun _ _ w => (regNames w).1 % 2 = 0 && (regNames w).2.1 % 2 = 0)
    (fun s i w => let r := regNames w
      [0, 1].map fun j => (r.1 + j, (List.range 256).map fun k => ((s.tilesAt i).reg (r.2.1 + j)).getD (16 * (k % 16) + k / 16) 0))
    (fun _ _ _ => false) (fun _ _ _ => false) (fun _ _ _ => 0)

/-- PLD copies the operand-cache line of IMM [9:0] into a register, and stops the tile with POISON where the line is poisoned; PST
copies a register into the line, which is then clean (R173). -/
def Sys2Proof.Claims.PercaleOperandCache : Prop :=
  RegForm .pld 0x4B 0x3FF (fun s i w => !(s.tilesAt i).ocBad.contains (bits w.imm 9 0))
    (fun s i w => [((regNames w).1, (s.tilesAt i).ocLine (bits w.imm 9 0))])
    (fun _ _ _ => false) (fun _ _ _ => false) (fun _ _ _ => 0) ∧
  (∀ (i : Fin 64) (w : NInstr) (s : State), s.readyTile i 4 .execute w = true → regFormOk w 0x3FF = true →
    (s.tilesAt i).ocBad.contains (bits w.imm 9 0) = true →
    ∃ t, exec (.pld i .execute w) s = .next t ∧ ThenStops s t i (issueTile (s.tilesAt i) .execute w).settle .POISON 0) ∧
  ∀ (i : Fin 64) (w : NInstr) (s : State), s.readyTile i 4 .execute w = true → regFormOk w 0x3FF = true →
    ∃ t, exec (.pst i .execute w) s = .next t ∧
      TileBecomes s t i (inFlight ((issueTile (s.tilesAt i) .execute w).setOcLine (bits w.imm 9 0)
        ((s.tilesAt i).reg (regNames w).2.1)) 4 0x4C w)

/-- What an instruction's flags do (R194): PCLFLAGS gathers them, PCLCNT.NVCNT counts an invalid operation up to 0xFFFF, and no
other register changes. -/
def Sys2Proof.Claims.PercaleFlagsGather : Prop :=
  ∀ (i : Fin 64) (s : State) (fl : Nat), fl < 32 →
    let t := noted s i false false fl
    (∀ p ∈ [(TILE.PCLFLAGS.NX, 0), (TILE.PCLFLAGS.UF, 1), (TILE.PCLFLAGS.OF, 2), (TILE.PCLFLAGS.NV, 3), (TILE.PCLFLAGS.ISAT, 4)],
      t.flag p.1 i = (s.flag p.1 i || bit fl p.2)) ∧
    t.fld TILE.PCLCNT.NVCNT i = min (s.fld TILE.PCLCNT.NVCNT i + bnat (bit fl 3)) 0xFFFF ∧
    OnlyWords s t [TILE.PCLFLAGS.NX.addr i 0, TILE.PCLCNT.NVCNT.addr i 0]
/-! ### Limb by limb: Worsted's and Percale's scratchpad forms (ch. 04, 08) -/

/-- What an instruction does with one limb: sources with their words and primes, destinations with their words, and the result. -/
structure Sys2Proof.Claims.LimbWork where
  srcs : List (Opnd × Nat × Nat)
  dsts : List (Opnd × Nat)
  res : List (List Nat) → List (List Nat)

/-- The operands of a limb-by-limb instruction are in order: canonical memory; every operand a line-aligned run of the usable
scratchpad (R82, R240); sources without poison and canonical (R52); destinations apart from each other and from every source they do
not coincide with, and no limb's source another limb's destination (R83). -/
def Sys2Proof.Claims.limbsReady (s : State) (i : Nat) (ls : List LimbWork) : Prop :=
  Memory.wf s.mem = true ∧
  (∀ l ∈ ls, (∀ r ∈ l.srcs, r.1 = .spad r.1.off ∧ r.1.off % 64 = 0 ∧ r.1.off + 4 * r.2.1 ≤ s.spadEnd i ∧
      s.poisoned (opndAddr i r.1) (4 * r.2.1) = false ∧
      (r.2.2 ≠ 0 → nonCanonical r.2.2 (s.readWords (opndAddr i r.1) r.2.1) = false)) ∧
    (∀ r ∈ l.dsts, r.1 = .spad r.1.off ∧ r.1.off % 64 = 0 ∧ r.1.off + 4 * r.2 ≤ s.spadEnd i) ∧
    l.dsts.Pairwise apart ∧ ∀ d ∈ l.dsts, ∀ r ∈ l.srcs, d = (r.1, r.2.1) ∨ apart d (r.1, r.2.1)) ∧
  ls.Pairwise fun u v => (∀ d ∈ u.dsts, ∀ e ∈ v.dsts, apart d e) ∧ (∀ d ∈ u.dsts, ∀ r ∈ v.srcs, apart d (r.1, r.2.1)) ∧
    ∀ d ∈ v.dsts, ∀ r ∈ u.srcs, apart d (r.1, r.2.1)

/-- Every limb's result stands at its destination, and every other byte is as it was. -/
def Sys2Proof.Claims.LimbsWritten (s t : State) (i : Nat) (ls : List LimbWork) : Prop :=
  (∀ l ∈ ls, l.dsts.map (fun r => t.readWords (opndAddr i r.1) r.2) =
    (l.res (l.srcs.map fun r => s.readWords (opndAddr i r.1) r.2.1)).map (·.map (· % 2 ^ 32))) ∧
  ∀ b, (∀ l ∈ ls, ∀ r ∈ l.dsts, b < opndAddr i r.1 ∨ opndAddr i r.1 + 4 * r.2 ≤ b) → memByte t.mem b = memByte s.mem b

/-- What a limb-by-limb instruction leaves: every limb's result at its destination, every other byte as it was, the tile `x`, every
other tile as it was; RESCNT.GENERIC counts it where a limb lies on the generic path, and nothing else changes but poison and key
tags of the lines written. -/
def Sys2Proof.Claims.LimbsDone (s t : State) (i : Nat) (x : Tile) (mont : Bool) (ls : List LimbWork) : Prop :=
  LimbsWritten s t i ls ∧ t.tilesAt i = x ∧ (∀ j, j ≠ i → t.tilesAt j = s.tilesAt j) ∧
  { t with mem := s.mem, poison := s.poison, landTag := s.landTag, tiles := s.tiles } =
    { noted s i mont false 0 with tiles := s.tiles }

/-- A limb-by-limb instruction on a tile that can issue it, its operands in order. -/
def Sys2Proof.Claims.LimbOp (c : Fin 64 → Side → NInstr → Instr) (unit op : Nat)
    (work : State → Fin 64 → NInstr → Option (List LimbWork × Bool)) (update : State → Fin 64 → NInstr → Tile → Tile) : Prop :=
  ∀ (i : Fin 64) (w : NInstr) (s : State) (ls : List LimbWork) (mont : Bool), s.readyTile i unit .execute w = true →
    work s i w = some (ls, mont) → limbsReady s i ls →
    ∃ t, exec (c i .execute w) s = .next t ∧
      LimbsDone s t i (inFlight (update s i w (issueTile (s.tilesAt i) .execute w)) unit op w) mont ls

/-- One source limb, one destination limb. -/
def Sys2Proof.Claims.unaryWork (e : Eng) (f : Limb → List Nat → List Nat) : List LimbWork × Bool :=
  (e.limbs.map fun tl => { srcs := [e.rd e.r1 0 tl.1 tl.2.q], dsts := [e.wr e.r0 0 tl.1],
                           res := fun ws => [f tl.2 (ws.getD 0 [])] }, e.mont)

/-- Two source limbs, one destination limb, coefficient by coefficient. -/
def Sys2Proof.Claims.binaryWork (e : Eng) (f : Limb → Nat → Nat → Nat) : List LimbWork × Bool :=
  (e.limbs.map fun tl => { srcs := [e.rd e.r1 0 tl.1 tl.2.q, e.rd e.r2 0 tl.1 tl.2.q], dsts := [e.wr e.r0 0 tl.1],
                           res := fun ws => [List.zipWith (f tl.2) (ws.getD 0 []) (ws.getD 1 [])] }, e.mont)

/-- What NTT does with each limb, and whether one lies on the generic path; none where the word is of another form. -/
def Sys2Proof.Claims.nttWork (s : State) (i : Fin 64) (w : NInstr) : Option (List LimbWork × Bool) :=
  (s.rawEng i w 0 (rawBasis w)).map fun e => unaryWork e fun l a =>
    (List.range (2 ^ e.c.ps.logn)).map fun i =>
      (a.zipIdx.map fun c => c.1 * psi l e.c.ps.logn ^ ((2 * brv e.c.ps.logn i + 1) * c.2)).sum % l.q

/-- What INTT does with each limb, and whether one lies on the generic path; none where the word is of another form. -/
def Sys2Proof.Claims.inttWork (s : State) (i : Fin 64) (w : NInstr) : Option (List LimbWork × Bool) :=
  (s.rawEng i w 0 (rawBasis w)).map fun e => unaryWork e fun l a =>
    (List.range (2 ^ e.c.ps.logn)).map fun j =>
      invPrime (2 ^ e.c.ps.logn % l.q) l.q *
        (a.zipIdx.map fun c => c.1 * invPrime (psi l e.c.ps.logn) l.q ^ ((2 * brv e.c.ps.logn c.2 + 1) * j)).sum % l.q

/-- NTT and INTT in raw mode (R76, R77, R81, R84): position i of the evaluation form is Σ a[j]·ψ^((2·brv(i) + 1)·j) mod q, and
INTT's coefficient j is N⁻¹·Σ â[i]·ψ^(−(2·brv(i) + 1)·j) mod q, with ψ⁻¹ and N⁻¹ as powers by Fermat. -/
def Sys2Proof.Claims.LimbTransforms : Prop :=
  LimbOp .ntt 2 0x01 nttWork (fun _ _ _ => id) ∧
  LimbOp .intt 2 0x02 inttWork (fun _ _ _ => id)

/-- What AUT does with each limb, and whether one lies on the generic path; none where the word is of another form. -/
def Sys2Proof.Claims.autWork (s : State) (i : Fin 64) (w : NInstr) : Option (List LimbWork × Bool) :=
  (s.rawEng i w 0x7FFFF (rawBasis w)).bind fun e =>
    let g := bits w.imm 17 0
    if g % 2 = 0 ∨ 2 * e.n ≤ g then none
    else some (unaryWork e fun l a => if bit w.imm 18 then autEval l.q e.c.ps.logn g a else autCoeff l.q e.c.ps.logn g a)

/-- AUT in raw mode with an odd Galois element below 2N (R78, R79, R81), in coefficient or evaluation form by IMM [18]. -/
def Sys2Proof.Claims.LimbAutomorphism : Prop :=
  LimbOp .aut 2 0x03 autWork (fun _ _ _ => id)

/-- What MUL does with each limb, and whether one lies on the generic path; none where the word is of another form. -/
def Sys2Proof.Claims.mulWork (s : State) (i : Fin 64) (w : NInstr) : Option (List LimbWork × Bool) :=
  (s.rawEng i w 0 (rawBasis w)).map fun e => binaryWork e fun l a b => a * b % l.q

/-- What MULC does with each limb, and whether one lies on the generic path; none where the word is of another form. -/
def Sys2Proof.Claims.mulcWork (s : State) (i : Fin 64) (w : NInstr) : Option (List LimbWork × Bool) :=
  if w.ldg ≠ 0 then none else (s.engAt i w (bits w.a 35 33 = 0) w.pset w.level (rawBasis w)).map fun e =>
      let k := bits w.a 31 0
      unaryWork e fun l a => a.map fun x => (if bit w.a 32 then (signed k 32 % (l.q : Int)).toNat else k) * x % l.q

/-- MUL and MULC in raw mode (R81): a·b mod q; a·w mod q with w the word OPA [31:0], or with OPA [32] the signed constant's
residue. -/
def Sys2Proof.Claims.LimbProducts : Prop :=
  LimbOp .mul 2 0x10 mulWork (fun _ _ _ => id) ∧
  LimbOp .mulc 2 0x11 mulcWork (fun _ _ _ => id)

/-- What TENS does with each limb, and whether one lies on the generic path; none where the word is of another form. -/
def Sys2Proof.Claims.tensWork (s : State) (i : Fin 64) (w : NInstr) : Option (List LimbWork × Bool) :=
  (s.rawEng i w 0 (rawBasis w)).map fun e =>
    (e.limbs.map fun tl => { srcs := [e.rd e.r1 0 tl.1 tl.2.q, e.rd e.r1 1 tl.1 tl.2.q, e.rd e.r2 0 tl.1 tl.2.q,
                                      e.rd e.r2 1 tl.1 tl.2.q]
                             dsts := [e.wr e.r0 0 tl.1, e.wr e.r0 1 tl.1, e.wr e.r0 2 tl.1]
                             res := fun ws =>
                              let z := ((ws.getD 0 []).zip (ws.getD 1 [])).zip ((ws.getD 2 []).zip (ws.getD 3 []))
                              [z.map fun v => v.1.1 * v.2.1 % tl.2.q, z.map fun v => (v.1.1 * v.2.2 + v.1.2 * v.2.1) % tl.2.q,
                               z.map fun v => v.1.2 * v.2.2 % tl.2.q] }, e.mont)

/-- TENS in raw mode (R81): d0 = x0·y0, d1 = x0·y1 + x1·y0 with one reduction, d2 = x1·y1. -/
def Sys2Proof.Claims.LimbTensor : Prop :=
  LimbOp .tens 2 0x16 tensWork (fun _ _ _ => id)

/-- What LIFT does with each limb, and whether one lies on the generic path; none where the word is of another form. -/
def Sys2Proof.Claims.liftWork (s : State) (i : Fin 64) (w : NInstr) : Option (List LimbWork × Bool) :=
  (s.rawEng i w 0x10 .below).bind fun e =>
    let bgv := bit w.imm 4
    let src := extLimb e.c e.level e.level
    let tp := e.c.ps.bgvT
    if w.basis = 1 ∨ (bgv = true ∧ (tp = 0 ∨ tp % src.q = 0)) then none
    else some (e.limbs.map fun tl =>
      { srcs := [e.rd e.r1 0 0 src.q], dsts := [e.wr e.r0 0 tl.1]
        res := fun ws => [(ws.getD 0 []).map fun r => fromInt (if bgv then liftBgv src.q tp r else liftCkks src.q r) tl.2.q] },
      e.mont || src.mont)

/-- What RESC does with each limb, and whether one lies on the generic path; none where the word is of another form. -/
def Sys2Proof.Claims.rescWork (s : State) (i : Fin 64) (w : NInstr) : Option (List LimbWork × Bool) :=
  (s.rawEng i w 8 (if bit w.imm 3 then .chain else .below)).bind fun e =>
    if w.basis = 1 then none
    else some (binaryWork e fun l x c => (let d := if bit w.imm 3 then prod e.c.p else (extLimb e.c e.level e.level).q
      (x % l.q + (l.q - c % l.q)) % l.q * invPrime (d % l.q) l.q % l.q))

/-- LIFT and RESC in raw mode (R69, R70, R81, R89, R109): each target limb's residue of the correction of limb ℓ, by the CKKS or the
BGV rule, the LIFT remembered for a RESC in descriptor mode; (x − c) times the inverse of q_ℓ, or of P with DIV. -/
def Sys2Proof.Claims.LimbRescale : Prop :=
  LimbOp .lift 2 0x18 liftWork (fun _ _ w x => { x with lastLift := some (w.level, bit w.imm 4) }) ∧
  LimbOp .resc 2 0x19 rescWork (fun _ _ _ => id)

/-- What CADD does with each limb, and whether one lies on the generic path; none where the word is of another form. -/
def Sys2Proof.Claims.caddWork (s : State) (i : Fin 64) (w : NInstr) : Option (List LimbWork × Bool) :=
  (s.rawEng i w 0 (rawBasis w)).map fun e => binaryWork e fun l a b => (a + b) % l.q

/-- What CSUB does with each limb, and whether one lies on the generic path; none where the word is of another form. -/
def Sys2Proof.Claims.csubWork (s : State) (i : Fin 64) (w : NInstr) : Option (List LimbWork × Bool) :=
  (s.rawEng i w 0 (rawBasis w)).map fun e =>
    binaryWork e fun l a b => (a % l.q + (l.q - b % l.q)) % l.q

/-- What PADD does with each limb, and whether one lies on the generic path; none where the word is of another form. -/
def Sys2Proof.Claims.paddWork (s : State) (i : Fin 64) (w : NInstr) : Option (List LimbWork × Bool) :=
  (s.rawEng i w 3 (rawBasis w)).map fun e => binaryWork e fun l a b => (a + b) % l.q

/-- CADD, CSUB and PADD in raw mode (R64, R179, R180): sums and differences of one polynomial's limbs. -/
def Sys2Proof.Claims.LimbSums : Prop :=
  LimbOp .cadd 4 0x45 caddWork (fun _ _ _ => id) ∧
  LimbOp .csub 4 0x46 csubWork (fun _ _ _ => id) ∧
  LimbOp .padd 4 0x47 paddWork (fun _ _ _ => id)

/-- What LDROP does with each limb, and whether one lies on the generic path; none where the word is of another form. -/
def Sys2Proof.Claims.ldropWork (s : State) (i : Fin 64) (w : NInstr) : Option (List LimbWork × Bool) :=
  let o := opWord w; let c := s.psetCtx w.pset; let tgt := bits w.imm 7 0
    match refOpnd o.ref0, refOpnd o.ref1, refOpnd o.ref2 with
    | some d, some a, some _ =>
      if w.ldg = 0 ∧ immOk w 0xFF = true ∧ o.resv = 0 ∧ bits w.a 35 27 = 0 ∧ c.ps.live = true ∧ w.level < c.ps.numQ ∧ tgt < w.level ∧
          w.basis ≠ 1 then
        let ls := tileLimbs c tgt .chain (i % 8)
        some (ls.zipIdx.map fun lt => { srcs := [(opndAt o a 0 lt.2, 2 ^ c.ps.logn, lt.1.q)]
                                        dsts := [(opndAt o d 0 lt.2, 2 ^ c.ps.logn)]
                                        res := fun ws => [(ws.getD 0 []).map (· % lt.1.q)] }, ls.any (·.mont))
      else none
    | _, _, _ => none

/-- LDROP in raw mode (R181): the tile's limbs 0 to the target level are copied, their other limbs left behind; where source and
destination are the same nothing moves, whatever the limbs hold. -/
def Sys2Proof.Claims.LimbDrop : Prop :=
  (∀ (i : Fin 64) (w : NInstr) (s : State) (ls : List LimbWork) (mont : Bool), s.readyTile i 4 .execute w = true →
    (opWord w).ref0 ≠ (opWord w).ref1 → ldropWork s i w = some (ls, mont) → limbsReady s i ls →
    ∃ t, exec (.ldrop i .execute w) s = .next t ∧
      LimbsDone s t i (inFlight (issueTile (s.tilesAt i) .execute w) 4 0x48 w) mont ls) ∧
  ∀ (i : Fin 64) (w : NInstr) (s : State) (ls : List LimbWork) (mont : Bool), s.readyTile i 4 .execute w = true →
    (opWord w).ref0 = (opWord w).ref1 → ldropWork s i w = some (ls, mont) →
    (∀ l ∈ ls, ∀ r ∈ l.dsts, r.1 = .spad r.1.off ∧ r.1.off % 64 = 0 ∧ r.1.off + 4 * r.2 ≤ s.spadEnd i) →
    (ls.Pairwise fun u v => ∀ d ∈ u.dsts, ∀ e ∈ v.dsts, apart d e) →
    ∃ t, exec (.ldrop i .execute w) s = .next t ∧
      TileBecomes (noted s i mont false 0) t i (inFlight (issueTile (s.tilesAt i) .execute w) 4 0x48 w)

/-- The engine of a modular operation in stream form (R208). -/
def Sys2Proof.Claims.streamEng (s : State) (i : Fin 64) (w : NInstr) : Option Eng :=
  if decide (w.ldg = 0) && decide (bits w.a 35 27 = 0) && immOk w (2 ^ 26) && !bit w.imm 26
    then s.engAt i w true w.pset w.level (rawBasis w) else none

/-- What Percale ADD does with each limb, and whether one lies on the generic path; none where the word is of another form. -/
def Sys2Proof.Claims.pclModAddWork (s : State) (i : Fin 64) (w : NInstr) : Option (List LimbWork × Bool) :=
  (streamEng s i w).map fun e => binaryWork e fun l a b => (a + b) % l.q

/-- What Percale SUB does with each limb, and whether one lies on the generic path; none where the word is of another form. -/
def Sys2Proof.Claims.pclModSubWork (s : State) (i : Fin 64) (w : NInstr) : Option (List LimbWork × Bool) :=
  (streamEng s i w).map fun e =>
    binaryWork e fun l a b => (a % l.q + (l.q - b % l.q)) % l.q

/-- What Percale NEG does with each limb, and whether one lies on the generic path; none where the word is of another form. -/
def Sys2Proof.Claims.pclModNegWork (s : State) (i : Fin 64) (w : NInstr) : Option (List LimbWork × Bool) :=
  (streamEng s i w).map fun e =>
    unaryWork e fun l a => a.map fun x => (l.q - x % l.q) % l.q

/-- What Percale MUL does with each limb, and whether one lies on the generic path; none where the word is of another form. -/
def Sys2Proof.Claims.pclModMulWork (s : State) (i : Fin 64) (w : NInstr) : Option (List LimbWork × Bool) :=
  (streamEng s i w).map fun e => binaryWork e fun l a b => a * b % l.q

/-- What Percale LIFT does with each limb, and whether one lies on the generic path; none where the word is of another form. -/
def Sys2Proof.Claims.pclModLiftWork (s : State) (i : Fin 64) (w : NInstr) : Option (List LimbWork × Bool) :=
  (streamEng s i w).map fun e =>
    unaryWork e fun l a => a.map fun x => (centred (x % l.q) l.q % (2 ^ 32 : Int)).toNat

/-- What Percale MULC does with each limb (R208): the multiplier is OPA [31:0], or with OPA [32] a signed constant; none where the word
is of another form. -/
def Sys2Proof.Claims.pclModMulcWork (s : State) (i : Fin 64) (w : NInstr) : Option (List LimbWork × Bool) :=
  if w.ldg ≠ 0 ∨ bits w.a 35 33 ≠ 0 then none
  else (s.engAt i w true w.pset w.level (rawBasis w)).map fun e => unaryWork e fun l a =>
    a.map fun x => x * (if bit w.a 32 then (i32 (bits w.a 31 0) % (l.q : Int)).toNat else bits w.a 31 0) % l.q

/-- What FROMINT does with each limb: words read as signed elements, whose residues go out; none where the word is of another form. -/
def Sys2Proof.Claims.fromintWork (s : State) (i : Fin 64) (w : NInstr) : Option (List LimbWork × Bool) :=
  (streamEng s i w).map fun e =>
    (e.limbs.map fun tl => { srcs := [e.rd e.r1 0 tl.1 0], dsts := [e.wr e.r0 0 tl.1],
                             res := fun ws => [(ws.getD 0 []).map fun x => (i32 x % (tl.2.q : Int)).toNat] }, e.mont)

/-- Percale's modular operations in stream form (R177): a limb at a time from scratchpad to scratchpad. -/
def Sys2Proof.Claims.LimbElements : Prop :=
  LimbOp .pclModAdd 4 0x20 pclModAddWork (fun _ _ _ => id) ∧
  LimbOp .pclModSub 4 0x21 pclModSubWork (fun _ _ _ => id) ∧
  LimbOp .pclModNeg 4 0x22 pclModNegWork (fun _ _ _ => id) ∧
  LimbOp .pclModMul 4 0x23 pclModMulWork (fun _ _ _ => id) ∧
  LimbOp .pclModMulc 4 0x24 pclModMulcWork (fun _ _ _ => id) ∧
  LimbOp .pclModLift 4 0x25 pclModLiftWork (fun _ _ _ => id) ∧
  LimbOp .fromint 4 0x26 fromintWork (fun _ _ _ => id)

/-- What a two-source integer operation does with each limb in stream form: its words are 32-bit elements, whatever the prime. -/
def Sys2Proof.Claims.intWork (f : Nat → Nat → Nat) (s : State) (i : Fin 64) (w : NInstr) : Option (List LimbWork × Bool) :=
  (streamEng s i w).map fun e =>
    (e.limbs.map fun tl => { srcs := [e.rd e.r1 0 tl.1 0, e.rd e.r2 0 tl.1 0], dsts := [e.wr e.r0 0 tl.1],
                             res := fun ws => [List.zipWith f (ws.getD 0 []) (ws.getD 1 [])] }, false)

/-- Percale's integer ADD, SUB, MUL, AND, OR and XOR in stream form (R178). -/
def Sys2Proof.Claims.LimbIntegers : Prop :=
  LimbOp .pclAdd 4 0x00 (intWork fun a b => (a + b) % 2 ^ 32) (fun _ _ _ => id) ∧
  LimbOp .pclSub 4 0x01 (intWork fun a b => (a + (2 ^ 32 - b)) % 2 ^ 32) (fun _ _ _ => id) ∧
  LimbOp .pclMul 4 0x02 (intWork fun a b => a * b % 2 ^ 32) (fun _ _ _ => id) ∧
  LimbOp .pclAnd 4 0x08 (intWork fun a b => a &&& b) (fun _ _ _ => id) ∧
  LimbOp .pclOr 4 0x09 (intWork fun a b => a ||| b) (fun _ _ _ => id) ∧
  LimbOp .pclXor 4 0x0A (intWork fun a b => a ^^^ b) (fun _ _ _ => id)
/-! ### Accumulators, weights and slots: instructions of one limb or one block range (ch. 04, 06, 08) -/

/-- What an instruction of one step does: sources and destinations in the scratchpad, what its issue does to the tile and counts, when
its sources' words are in order, what it makes of the tile and the destinations' words, the banks its sources' key tags mark, and the
counters it bumps and status bits it sets. -/
structure Sys2Proof.Claims.StepWork where
  srcs : List (Opnd × Nat × Nat)
  dsts : List (Opnd × Nat)
  start : Tile → Tile := id
  folds : List Fld := []
  ok : Tile → List (List Nat) → Bool := fun _ _ => true
  tile : Tile → List (List Nat) → Tile := fun x _ => x
  res : Tile → List (List Nat) → List (List Nat) := fun _ _ => []
  banks : List Nat := []
  bumps : Tile → List (List Nat) → List (Fld × Nat) := fun _ _ => []
  marks : Tile → List (List Nat) → List Fld := fun _ _ => []
  mont : Bool := false

/-- Words of the sources, as the machine stands before the instruction. -/
def Sys2Proof.Claims.StepWork.words (u : StepWork) (s : State) (i : Nat) : List (List Nat) :=
  u.srcs.map fun r => s.readWords (opndAddr i r.1) r.2.1

/-- The operands are in order (R52, R82, R83, R240), as for an instruction of one limb. -/
def Sys2Proof.Claims.StepWork.ready (u : StepWork) (s : State) (i : Nat) : Prop :=
  limbsReady s i [{ srcs := u.srcs, dsts := u.dsts, res := fun _ => [] }]

/-- The machine with the instruction's counters and status bits, before its tile and memory change. -/
def Sys2Proof.Claims.StepWork.noted (u : StepWork) (s : State) (i : Nat) (x : Tile) (ws : List (List Nat)) : State :=
  ((u.marks x ws).foldl (fun t f => t.setFld f 1 i) ((u.bumps x ws).foldl (fun t b => t.bump b.1 b.2 i)
    ((u.folds.foldl (fun t f => t.bump f 1 i) (begin s)).when u.mont fun t => t.bump TILE.RESCNT.GENERIC 1 i))).now

/-- An instruction of one step on a tile that can issue it: the destinations take the result, every other byte stays, the tile
becomes what the instruction makes of it with the instruction in flight, and nothing else changes but its counters, and poison and key
tags of lines written. -/
def Sys2Proof.Claims.StepOp (c : Fin 64 → Side → NInstr → Instr) (unit op : Nat)
    (work : State → Fin 64 → NInstr → Option StepWork) : Prop :=
  ∀ (i : Fin 64) (w : NInstr) (s : State) (u : StepWork), s.readyTile i unit .execute w = true → work s i w = some u →
    u.ready s i →
    let x := u.start (issueTile (s.tilesAt i) .execute w)
    let ws := u.words s i
    u.ok x ws = true →
    ∃ t, exec (c i .execute w) s = .next t ∧
      (∀ p ∈ u.dsts.zip (u.res x ws), t.readWords (opndAddr i p.1.1) p.1.2 = p.2.map (· % 2 ^ 32)) ∧
      (∀ b, (∀ r ∈ u.dsts, b < opndAddr i r.1 ∨ opndAddr i r.1 + 4 * r.2 ≤ b) → memByte t.mem b = memByte s.mem b) ∧
      t.tilesAt i = inFlight (tagTile (u.tile x ws) u.banks (u.srcs.flatMap fun r => s.keyTags i r.1 r.2.1)) unit op w ∧
      (∀ j, j ≠ i.val → t.tilesAt j = s.tilesAt j) ∧
      { t with mem := s.mem, poison := s.poison, landTag := s.landTag, tiles := s.tiles } =
        { u.noted s i x ws with tiles := s.tiles }

/-- The tile with a bank whose entries took one product each, after the fold of a full bank (R87). -/
def Sys2Proof.Claims.macBank (x : Tile) (b q : Nat) (a y : List Nat) : Tile :=
  let k := x.bank b
  x.setBank b { k with entries := addEntries k.entries (List.zipWith (fun u v => (u % q) * (v % q)) a y)
                       terms := k.terms + 1, live := true }

/-- A full bank folds before its next product (R87): entries reduced, its term count 1. -/
def Sys2Proof.Claims.foldBank (x : Tile) (b q : Nat) : Tile :=
  if 65536 ≤ (x.bank b).terms then
    x.setBank b { x.bank b with entries := (x.bank b).entries.map (· % q), terms := 1 } else x

/-- The one step of MAC; none where the word is of another form. -/
def Sys2Proof.Claims.macWork (s : State) (i : Fin 64) (w : NInstr) : Option StepWork :=
  (s.rawEng i w 3 (rawBasis w)).bind fun e =>
    match bankOf e.n (bits w.imm 1 0), e.limbs with
    | some b, [tl] =>
      if (s.tilesAt i).bconvUses b then none
      else some { srcs := [e.rd e.r1 0 tl.1 tl.2.q, e.rd e.r2 0 tl.1 tl.2.q], dsts := []
                  start := fun x => foldBank { x with accWide := e.n = 2 ^ 17 } b tl.2.q
                  folds := if 65536 ≤ ((s.tilesAt i).bank b).terms then [TILE.WSTCNT.FOLD] else []
                  tile := fun x ws => macBank x b tl.2.q (ws.getD 0 []) (ws.getD 1 []), banks := [b], mont := e.mont }
    | _, _ => none

/-- The one step of MAC2; none where the word is of another form. -/
def Sys2Proof.Claims.mac2Work (s : State) (i : Fin 64) (w : NInstr) : Option StepWork :=
  (s.rawEng i w 0 (rawBasis w)).bind fun e =>
    match e.limbs with
    | [tl] =>
      if e.n = 2 ^ 17 ∨ (s.tilesAt i).bconvUses 0 = true ∨ (s.tilesAt i).bconvUses 1 = true then none
      else some { srcs := [e.rd e.r1 0 tl.1 tl.2.q, e.rd e.r2 0 tl.1 tl.2.q, e.rd e.r0 0 tl.1 tl.2.q], dsts := []
                  start := fun x => foldBank (foldBank { x with accWide := false } 0 tl.2.q) 1 tl.2.q
                  folds := (if 65536 ≤ (s.tilesAt i).acc0.terms then [TILE.WSTCNT.FOLD] else []) ++
                    (if 65536 ≤ (s.tilesAt i).acc1.terms then [TILE.WSTCNT.FOLD] else [])
                  tile := fun x ws => macBank (macBank x 0 tl.2.q (ws.getD 0 []) (ws.getD 1 [])) 1 tl.2.q (ws.getD 0 []) (ws.getD 2 [])
                  banks := [0, 1], mont := e.mont }
    | _ => none

/-- The one step of ACCRD; none where the word is of another form. -/
def Sys2Proof.Claims.accrdWork (s : State) (i : Fin 64) (w : NInstr) : Option StepWork :=
  (s.rawEng i w 7 (rawBasis w)).bind fun e =>
    match bankOf e.n (bits w.imm 1 0), e.limbs with
    | some b, [tl] => some { srcs := [], dsts := [e.wr e.r0 0 tl.1], start := fun x => { x with accWide := e.n = 2 ^ 17 }
                             tile := fun x _ => x.setBank b (if bit w.imm 2 then {} else { x.bank b with live := false })
                             res := fun x _ => [padTo e.n ((x.bank b).entries.map (· % tl.2.q))], mont := e.mont }
    | _, _ => none

/-- The one step of ACCCLR; none where the word is of another form. -/
def Sys2Proof.Claims.accclrWork (s : State) (i : Fin 64) (w : NInstr) : Option StepWork :=
  (s.rawEng i w 3 (rawBasis w)).bind fun e =>
    match bankOf e.n (bits w.imm 1 0), e.limbs with
    | some b, [_] =>
      if e.o.limb0 ≠ 0 ∨ e.o.ref0 ≠ 0 ∨ e.o.ref1 ≠ 0 ∨ e.o.ref2 ≠ 0 then none
      else some { srcs := [], dsts := [], start := fun x => { x with accWide := e.n = 2 ^ 17 }
                  tile := fun x _ => x.setBank b {}, mont := e.mont }
    | _, _ => none

/-- MAC, MAC2, ACCRD and ACCCLR in raw mode (R74, R81, R87, R110): a bank takes the unreduced products, a full one folding first and
WSTCNT.FOLD counting it; its entries mod q go out and, with CLR, it is zeroed; it is zeroed with its term count. A source that a key
stream landed marks the bank with its key. -/
def Sys2Proof.Claims.AccumulatorBanks : Prop :=
  StepOp .mac 2 0x12 macWork ∧
  StepOp .mac2 2 0x13 mac2Work ∧
  StepOp .accrd 2 0x14 accrdWork ∧
  StepOp .accclr 2 0x15 accclrWork

/-- The one step of BCONV; none where the word is of another form. -/
def Sys2Proof.Claims.bconvWork (s : State) (i : Fin 64) (w : NInstr) : Option StepWork :=
(s.rawEng i w 0x3F (rawBasis w)).bind fun e =>
    match bankOf e.n (bits w.imm 1 0), e.limbs, bconvRange e.c e.level (bits w.imm 5 2) with
    | some b, [tl], some js =>
      if js.contains tl.2.j = true ∨ e.o.ref0 ≠ 0 ∨ e.o.ref2 ≠ 0 then none
      else
        let ls := js.map (extLimb e.c e.level)
        let a := prod (ls.map (·.q))
        some { srcs := ls.zipIdx.map fun lt => e.rd e.r1 0 lt.2 lt.1.q, dsts := [], start := fun x => { x with accWide := e.n = 2 ^ 17 }
               tile := fun x ws => x.setBank b
                { entries := (List.range e.n).map fun k => ((ls.zip ws).map fun p =>
                    (p.2.getD k 0 % p.1.q) * invPrime (a / p.1.q % p.1.q) p.1.q % p.1.q * (a / p.1.q % tl.2.q)).sum
                  terms := 0, live := true, tag := 0 }
               mont := e.mont || ls.any (·.mont) }
    | _, _, _ => none

/-- BCONV in raw mode (R67, R68, R88): entry k of the bank takes Σ_j (x_j[k]·(A/q_j)⁻¹ mod q_j)·(A/q_j mod b), the sum a following
ACCRD reduces mod b; term count and key tag cleared. -/
def Sys2Proof.Claims.BasisConversion : Prop :=
  StepOp .bconv 2 0x17 bconvWork

/-- The one step of DMAC; none where the word is of another form. -/
def Sys2Proof.Claims.dmacWork (s : State) (i : Fin 64) (w : NInstr) : Option StepWork :=
  (s.rawEng i w 0x1F (rawBasis w)).bind fun e =>
    match e.limbs, daccPolys e.n (bit w.imm 4) with
    | [tl], some ps =>
      if (mapGet {} (s.tilesAt i).wbrs (bits w.imm 3 0)).holds (opndAt e.o e.r2 0 tl.1).off e.n then
        some { srcs := ps.map (fun p => e.rd e.r1 p tl.1 tl.2.q) ++ [e.rd e.r2 0 tl.1 tl.2.q], dsts := []
               start := fun x => { x with dacc :=
                if 65536 ≤ x.dacc.terms then { x.dacc with entries := x.dacc.entries.map (· % tl.2.q), terms := 1, untracked := true }
                else { x.dacc with untracked := true } }
               folds := if 65536 ≤ (s.tilesAt i).dacc.terms then [TILE.DMKCNT.FOLD] else []
               tile := fun x ws => { x with dacc := { x.dacc with
                entries := addEntries x.dacc.entries ((ws.take ps.length).flatMap fun y =>
                  List.zipWith (fun a b => a * b % tl.2.q) y (ws.getD ps.length []))
                terms := x.dacc.terms + 1, live := true } }
               mont := e.mont }
      else none
    | _, _ => none

/-- The one step of DRD; none where the word is of another form. -/
def Sys2Proof.Claims.drdWork (s : State) (i : Fin 64) (w : NInstr) : Option StepWork :=
  (s.rawEng i w 0 (rawBasis w)).bind fun e =>
    match e.limbs with
    | [tl] => some { srcs := [], dsts := (if e.n = 2 ^ 17 then [0] else [0, 1]).map fun p => e.wr e.r0 p tl.1
                     tile := fun x _ => { x with dacc := {} }
                     res := fun x _ =>
                      let v := padTo (2 * e.n) (x.dacc.entries.map (· % tl.2.q))
                      if e.n = 2 ^ 17 then [v.take e.n] else [v.take e.n, v.drop e.n]
                     mont := e.mont }
    | _ => none

/-- DMAC and DRD in raw mode (R136, R137, R139): DACC takes one product per coefficient of each polynomial, a full one folding first and
DMKCNT.FOLD counting it; its entries mod q go out and it is zeroed with its term count and its shadow. -/
def Obligations.DamaskAccumulator : Prop :=
  StepOp .dmac 3 0x02 dmacWork ∧
  StepOp .drd 3 0x03 drdWork

/-- The one step of DENC; none where the word is of another form. -/
def Sys2Proof.Claims.dencWork (s : State) (i : Fin 64) (w : NInstr) : Option StepWork :=
let o := opWord w; let c := s.psetCtx w.pset; let nb := bits w.imm 14 6 + 1; let n := c.ps.n
    match (s.tilesAt i).wslots.find? (·.1 = bits w.imm 5 4), refOpnd o.ref0, refOpnd o.ref1, refOpnd o.ref2 with
    | some (_, d), some (.spad off), some (.spad src), some _ =>
      let ls := tileLimbs c w.level .chain (i % 8)
      let enc (ws : List (List Nat)) := encode d n (blocksOf d nb (ws.getD 0 []))
      if w.ldg = 0 ∧ bits w.a 35 27 = 0 ∧ immOk w 0x7FFF = true ∧ w.basis ≠ 1 ∧ o.resv = 0 ∧ c.ps.live = true ∧
          w.level < c.ps.numQ ∧ d.order = false ∧ nb ≤ n / 256 ∧ d.pbase < n then
        some { srcs := [(.spad src, blockWords d nb, 0)]
               dsts := ls.zipIdx.map fun lt => (.spad (off + lt.2 * o.lstride * 64), n)
               ok := fun _ ws => match enc ws with
                | some e => !e.rounded || !(begin s).flagEff TILE.DMKCTL.ROUND_TRAP i
                | none => false
               tile := fun x ws =>
                let b : Wbr := { valid := true, wsum := ((enc ws).map (·.wsum)).getD 0, pset := w.pset, level := w.level, ws := d.ws
                                 exact := !((enc ws).map (·.rounded)).getD false, off := off, stride := o.lstride * 64
                                 limbs := ls.length }
                { x with wbrs := mapPut {} x.wbrs (bits w.imm 3 0) b }
               res := fun _ ws => ls.map fun l => (((enc ws).map (·.coeffs)).getD []).map fun v => (v % (l.q : Int)).toNat
               bumps := fun _ ws => (TILE.DMKENC.ESC, ((enc ws).map (·.esc)).getD 0) ::
                (if ((enc ws).map (·.rounded)).getD false then [(TILE.DMKENC.ROUNDED, 1)] else [])
               marks := fun _ ws => if ((enc ws).map (·.rounded)).getD false then [TILE.DMKSTAT.ROUNDED] else []
               mont := ls.any (·.mont) }
      else none
    | _, _, _, _ => none

/-- DENC (R128, R133 to R135): the blocks decode and encode to one row of coefficients, each limb takes their residues, the weight bound
register takes WSUM and where the row lies; DMKENC counts escapes and rounded encodings. Shown with ROUND_TRAP off or nothing
rounded. -/
def Obligations.WeightEncoding : Prop :=
  StepOp .denc 3 0x01 dencWork

/-- The one step of DIMM; none where the word is of another form. -/
def Sys2Proof.Claims.dimmWork (s : State) (i : Fin 64) (w : NInstr) : Option StepWork :=
  let o := opWord w; let fp := bit w.imm 2
    let nv := bits w.imm 8 4 + 1; let nr := bits w.imm 13 9 + 1; let cols := bits w.imm 26 14 + 1
    let mode := (s.tilesAt i).iacc.mode
    match (s.tilesAt i).wslots.find? (·.1 = bits w.imm 1 0), refOpnd o.ref0, refOpnd o.ref1, refOpnd o.ref2 with
    | some (_, d), some _, some (.spad av), some (.spad src) =>
      let dec (ws : List (List Nat)) := (blocksOf d (nr * cols) (ws.getD nv [])).mapM (decodeBlock d.fmt d.esc)
      let sums (x : Tile) (ws : List (List Nat)) :=
        dimmEntries fp x.iacc.entries ((ws.take nv).map (activations (bit w.imm 3) (256 * cols))) ((dec ws).getD []) nr cols
      let sat (x : Tile) (ws : List (List Nat)) := (sums x ws).any fun e => e.clamps ≠ 0 || e.bad
      if w.ldg = 0 ∧ bits w.a 35 27 = 0 ∧ o.resv = 0 ∧ nv ≤ 16 ∧ d.order = true ∧ (fp = true ∨ d.fmt ≠ 5) ∧
          (mode = 0 ∨ mode = if fp then 2 else 1) then
        some { srcs := (List.range nv).map (fun v => (.spad (av + v * o.lstride * 64), if bit w.imm 3 then 64 * cols else 32 * cols, 0)) ++
                [(.spad src, blockWords d (nr * cols), 0)]
               dsts := []
               ok := fun x ws => match dec ws with
                | some bs => (fp || !bs.any fun b => b.us.any (· ≠ 0)) && !((begin s).flagEff TILE.DMKCTL.SAT_TRAP i && sat x ws)
                | none => false
               tile := fun x ws => { x with iacc := { mode := if fp then 2 else 1, entries := (sums x ws).map (·.v)
                                                      chunks := x.iacc.chunks + 8 * cols } }
               bumps := fun x ws => (TILE.DMKENC.ESC, (((dec ws).getD []).map (·.nesc)).sum) ::
                (if sat x ws then [(TILE.DMKCNT.SATCNT, ((sums x ws).map (·.clamps)).sum)] else [])
               marks := fun x ws => (if sat x ws then [TILE.DMKSTAT.SAT] else []) ++
                if fp = true ∧ 65536 < x.iacc.chunks + 8 * cols then [TILE.DMKSTAT.LONG] else [] }
      else none
    | _, _, _, _ => none

/-- The one step of DIRD; none where the word is of another form. -/
def Sys2Proof.Claims.dirdWork (s : State) (i : Fin 64) (w : NInstr) : Option StepWork :=
  let o := opWord w; let fmt := bits w.imm 2 0; let sh := bits w.imm 7 3
    match refOpnd o.ref0, refOpnd o.ref1, refOpnd o.ref2 with
    | some (.spad off), some _, some _ =>
      let out (x : Tile) := (padTo 512 x.iacc.entries).map (dirdEntry x.iacc.mode fmt sh)
      let bad (x : Tile) := (out x).any fun e => e.2.1 || e.2.2
      let k := if fmt < 2 then 32 else if fmt = 2 then 8 else 4
      if w.ldg = 0 ∧ bits w.a 35 27 = 0 ∧ o.resv = 0 ∧ immOk w 0xFF = true ∧ fmt ≤ 3 ∧ (2 ≤ fmt ∨ sh = 0) then
        some { srcs := [], dsts := [(.spad off, 16 * k)]
               ok := fun x _ => !((begin s).flagEff TILE.DMKCTL.SAT_TRAP i && bad x)
               tile := fun x _ => { x with iacc := {} }, res := fun x _ => [packElems k (16 * k) ((out x).map (·.1))]
               bumps := fun x _ => if bad x then [(TILE.DMKCNT.SATCNT, ((out x).filter (·.2.1)).length)] else []
               marks := fun x _ => if bad x then [TILE.DMKSTAT.SAT] else [] }
      else none
    | _, _, _ => none

/-- DIMM and DIRD (R141 to R144): IACC takes the chunk sums of every vector with every weight row, clamping to INT32 or adding in FP32;
its 512 entries go out in the format asked for and it is cleared; DMKSTAT and DMKCNT note clamps, non-finite entries and long sums.
Shown with SAT_TRAP off or nothing to trap. -/
def Obligations.IntegerDomain : Prop :=
  StepOp .dimm 3 0x04 dimmWork ∧
  StepOp .dird 3 0x05 dirdWork

/-- The one step of SLOTENC; none where the word is of another form. -/
def Sys2Proof.Claims.slotencWork (s : State) (i : Fin 64) (w : NInstr) : Option StepWork :=
  let o := opWord w; let c := s.psetCtx w.pset
    match refOpnd o.ref0, refOpnd o.ref1, refOpnd o.ref2 with
    | some d, some a, some _ =>
      if w.ldg = 0 ∧ bits w.a 35 27 = 0 ∧ immOk w 3 = true ∧ o.resv = 0 ∧ c.ps.live = true then
        some { srcs := [(a, 2 * c.ps.n, 0)], dsts := [(d, 2 * c.ps.n)]
               ok := fun _ ws => (slotMags (streamVals fmt64 (ws.getD 0 []))).isSome
               tile := fun x ws =>
                let v := ws.getD 0 []; let b := bits w.imm 1 0
                { x with pbrs := mapPut {} x.pbrs b { mapGet {} x.pbrs b with
                  mp := slotMp v ((slotMags (streamVals fmt64 v)).getD []) } }
               res := fun _ ws => [slotencWords c.ps.logn (ws.getD 0 [])] }
      else none
    | _, _, _ => none

/-- The one step of SLOTDEC; none where the word is of another form. -/
def Sys2Proof.Claims.slotdecWork (s : State) (i : Fin 64) (w : NInstr) : Option StepWork :=
  let o := opWord w; let c := s.psetCtx w.pset
    match refOpnd o.ref0, refOpnd o.ref1, refOpnd o.ref2 with
    | some d, some a, some _ =>
      if w.ldg = 0 ∧ bits w.a 35 27 = 0 ∧ immOk w 0 = true ∧ o.resv = 0 ∧ c.ps.live = true then
        some { srcs := [(a, 2 * c.ps.n, 0)], dsts := [(d, 2 * c.ps.n)]
               res := fun _ ws => [slotdecWords c.ps.logn (ws.getD 0 [])] }
      else none
    | _, _, _ => none

/-- SLOTENC and SLOTDEC (R190, R191): 2N words out whose bits are one function of LOGN and the words in, within the bound R190 states for
their error and otherwise open (log entry 2); the PBR takes log2 of the largest |Re| + |Im|. A slot that is not finite stops the tile
with RANGE, nothing written beyond issue itself. -/
def Obligations.SlotTransforms : Prop :=
  StepOp .slotenc 4 0x49 slotencWork ∧
  StepOp .slotdec 4 0x4A slotdecWork ∧
  ∀ (i : Fin 64) (w : NInstr) (s : State) (u : StepWork), s.readyTile i 4 .execute w = true → slotencWork s i w = some u →
    u.ready s i → u.ok (s.tilesAt i) (u.words s i) = false →
    ∃ t, exec (.slotenc i .execute w) s = .next t ∧ ThenStops s t i (issueTile (s.tilesAt i) .execute w).settle .RANGE 0

/-! ### Gauze's order, and the access unit (ch. 07, 09) -/

/-- The tiles of a cluster issue the same macros in the same order (R160), and only the LWE_KS that names its destination may follow
an EXTRACT (R161): any other macro stops the tile with RANGE and discards the pending bundle, and a macro that is not the cluster's
next stops it with RANGE. -/
def Sys2Proof.Claims.GauzeOrder : Prop :=
  ∀ (c : Instr) (k : EngineCmd) (s : State), engineOf c = some k → k.unit = 5 →
    s.readyTile k.tile 5 k.side k.word = true →
    ((s.tilesAt k.tile).holdsOther k.op k.word = true →
      ∃ u t, exec c s = .next t ∧ ThenStops s u k.tile (s.tilesAt k.tile).settle .RANGE 0 ∧
        TileBecomes u t k.tile { (s.tilesAt k.tile).settle with gauze := none }) ∧
    ((s.tilesAt k.tile).holdsOther k.op k.word = false → s.nextMacro k.tile k.op k.word = false →
      ∃ t, exec c s = .next t ∧ ThenStops s t k.tile (s.tilesAt k.tile).settle .RANGE 0)

/-- EXTRACT on a CKKS source of level 0 that its ledger row passes (R160, R161): the bundle's positions wait on the tile for the LWE_KS
that names the destination, whose slot takes the row's descriptor; the first tile of the cluster to issue the macro fixes it for the
others; memory and every other tile stay. -/
def Sys2Proof.Claims.ExtractHoldsBundle : Prop :=
  ∀ (i : Fin 64) (w : NInstr) (s : State) (a d : Ctd) (b off p : Nat) (r0 : Opnd),
    s.readyTile i 5 .execute w = true → (s.tilesAt i).holdsOther 1 w = false → s.nextMacro i 1 w = true →
    s.srcCtd i w.src1 = some a → bundleOf w = some b → refOpnd (opWord w).ref0 = some r0 →
    refOpnd (opWord w).ref1 = some (.spad off) → refOpnd (opWord w).ref2 = some (.spad p) →
    w.ldg ≠ 0 → immOk w 0x1F = true → (opWord w).resv = 0 → a.kind = 0 → a.level = 0 → a.ntt = false → a.comp = 2 →
    (s.psetCtx a.pset).ps.logn ≠ 17 → bit (s.psetCtx a.pset).ps.kinds 2 = true → (s.psetCtx a.pset).mont.getD 0 false = false →
    s.limbFits i off (s.psetCtx a.pset).ps.n = true → s.limbFits i (off + (opWord w).pstride * 64) (s.psetCtx a.pset).ps.n = true →
    Memory.wf s.mem = true → p % 64 = 0 → p + 4 * b ≤ s.spadEnd i → s.poisoned (spadBase i + p) (4 * b) = false →
    (∀ v ∈ s.readWords (spadBase i + p) b, v < (s.psetCtx a.pset).ps.n) →
    ledger (s.psetCtx a.pset) .extract [a] {} = .passed d →
    ∃ t, exec (.extract i .execute w) s = .next t ∧
      t.tilesAt i = inFlight { (issueTile (s.tilesAt i) .execute w).putCtd w.dst d with
        gauze := some ⟨s.readWords (spadBase i + p) b, w.dst, off, off + (opWord w).pstride * 64⟩
        gzCount := (s.tilesAt i).gzCount + 1 } 5 1 w ∧
      (∀ j, j ≠ i.val → t.tilesAt j = s.tilesAt j) ∧ SameMemory s t ∧
      t.clustersAt (i / 8) = { s.clustersAt (i / 8) with gzHeads :=
        (s.clustersAt (i / 8)).gzHeads ++
          if (s.tilesAt i).gzCount = (s.clustersAt (i / 8)).gzHeads.length then [gauzeKey 1 w] else [] } ∧
      ∀ j, j ≠ i.val / 8 → t.clustersAt j = s.clustersAt j

/-- A macro that the cluster's order lets a tile issue (R160, R161), the issue being this tile's next. -/
def Sys2Proof.Claims.inOrder (s : State) (i : Fin 64) (op : Nat) (w : NInstr) : Prop :=
  s.readyTile i 5 .execute w = true ∧ (s.tilesAt i).holdsOther op w = false ∧ s.nextMacro i op w = true

/-- The macros that the cluster has fixed, once the tile has issued one more (R160). -/
def Sys2Proof.Claims.headsAfter (s : State) (i : Fin 64) (op : Nat) (w : NInstr) : List (List Nat) :=
  let h := (s.clustersAt (i / 8)).gzHeads
  h ++ if (s.tilesAt i).gzCount = h.length then [gauzeKey op w] else []

/-- The tile once it has issued a macro: counted, the destination's slot filled. -/
def Sys2Proof.Claims.macroTile (s : State) (i : Fin 64) (w : NInstr) (d : Ctd) : Tile :=
  { (issueTile (s.tilesAt i) .execute w).putCtd w.dst d with gzCount := (s.tilesAt i).gzCount + 1 }

/-- A bundle reference: `b`/8 samples of `n` masks and a body on each tile (R160). -/
def Sys2Proof.Claims.sampleAt (i off k n : Nat) : Nat := spadBase i + off + k * sampleStride n

/-- The operands of a macro from descriptors: a legal source, B samples, three references, LDG nonzero, no stray bit. -/
def Sys2Proof.Claims.macroWord (s : State) (i : Fin 64) (w : NInstr) (used : Nat) (a : Ctd) (b dst src : Nat) (r2 : Opnd) : Prop :=
  s.srcCtd i w.src1 = some a ∧ bundleOf w = some b ∧ refOpnd (opWord w).ref0 = some (.spad dst) ∧
    refOpnd (opWord w).ref1 = some (.spad src) ∧ refOpnd (opWord w).ref2 = some r2 ∧ w.ldg ≠ 0 ∧ immOk w used = true ∧
    (opWord w).resv = 0

/-- MODSW (R163) on an LWE source modulo 2^LWE_LOGQ: each word x of the tile's samples becomes x·2N/2^LWE_LOGQ rounded half up to a
multiple of 2^D, modulo 2N. -/
def Sys2Proof.Claims.ModswSwitches : Prop :=
  ∀ (i : Fin 64) (w : NInstr) (s : State) (a d : Ctd) (b dst src : Nat) (r2 : Opnd), inOrder s i 3 w →
    macroWord s i w 0x1F a b dst src r2 → a.kind = 2 → a.lwemod = 1 →
    let ps := (s.psetCtx a.pset).ps
    let dd := ps.logn - ps.gauze.brLogn
    let sh := ps.lweLogq - (ps.logn + 1) + dd
    ps.logn + 1 ≤ ps.lweLogq → ledger (s.psetCtx a.pset) .lweModsw [a] {} = .passed d →
    let ls : List LimbWork := (List.range (b / 8)).map fun k =>
      { srcs := [(.spad (src + k * sampleStride ps.lweN), ps.lweN + 1, 0)]
        dsts := [(.spad (dst + k * sampleStride ps.lweN), ps.lweN + 1)]
        res := fun ws => [(ws.getD 0 []).map fun x =>
          (if sh = 0 then x % 2 ^ ps.lweLogq else (x % 2 ^ ps.lweLogq + 2 ^ (sh - 1)) / 2 ^ sh) * 2 ^ dd % (2 * ps.n)] }
    limbsReady s i ls →
    ∃ t, exec (.modsw i .execute w) s = .next t ∧ LimbsWritten s t i ls ∧
      t.tilesAt i = inFlight (macroTile s i w d) 5 3 w ∧ (∀ j, j ≠ i.val → t.tilesAt j = s.tilesAt j) ∧
      t.clustersAt (i / 8) = { s.clustersAt (i / 8) with gzHeads := headsAfter s i 3 w } ∧
      ∀ j, j ≠ i.val / 8 → t.clustersAt j = s.clustersAt j

/-- The tile with a macro in flight that has `n` steps left. -/
def Sys2Proof.Claims.inWork (x : Tile) (op : Nat) (w : NInstr) (f : InFlight → InFlight) : Tile :=
  Tile.settle { x with engines := x.engines ++ [f (x.flying 5 op w [] [])] }

/-- LWE_KS on a tile other than the cluster's first (R161, R162, R168): the pending bundle ends, the slot takes the row's descriptor, and
the macro waits for the scatter where the first tile, at work for the same record, has not yet issued it. -/
def Sys2Proof.Claims.LweKsEndsBundle : Prop :=
  ∀ (i : Fin 64) (w : NInstr) (s : State) (a d : Ctd) (b dst src : Nat) (r2 : Opnd) (pb : PendingBundle) (ks : KeySet) (e : DirEntry),
    inOrder s i 2 w → macroWord s i w 0x1F a b dst src r2 → i.val % 8 ≠ 0 → a.kind = 2 → a.lwemod = 0 →
    (s.tilesAt i).gauze = some pb → pb.positions.length = b →
    s.bundleFits i dst (b / 8) (s.psetCtx a.pset).ps.lweN = true → s.recKeys i = some ks → ks.find (2 ^ 18) = some e →
    ledger (s.psetCtx a.pset) .lweKs [a] {} = .passed d →
    let h := 8 * (i.val / 8)
    let waits := (s.tilesAt h).gzCount ≤ (s.tilesAt i).gzCount ∧ s.keyWaits h = true ∧ (s.tilesAt h).rec? = (s.tilesAt i).rec?
    ∃ t n, exec (.lweKs i .execute w) s = .next t ∧ (waits → n = 1) ∧ (¬ waits → n = 0) ∧
      t.tilesAt i = inWork { macroTile s i w d with gauze := none } 2 w (fun e => { e with left := n }) ∧
      (∀ j, j ≠ i.val → t.tilesAt j = s.tilesAt j) ∧ t.mem = s.mem ∧
      t.clustersAt (i / 8) = { s.clustersAt (i / 8) with gzHeads := headsAfter s i 2 w }

/-- LWE_KS on the cluster's first tile (R161, R162): the source, switched with the class 1 key of index 0, gives a sample at each of the
bundle's positions, on tile k mod 8 at the bundle's place k/8; every other byte of memory stays. Shown where the key cache holds none of
the set, and the key's lines are in reach, unpoisoned and canonical. -/
def Sys2Proof.Claims.LweKsScatters : Prop :=
  ∀ (i : Fin 64) (w : NInstr) (s : State) (a d : Ctd) (b dst src : Nat) (r2 : Opnd) (pb : PendingBundle) (ks : KeySet) (e : DirEntry),
    inOrder s i 2 w → macroWord s i w 0x1F a b dst src r2 → i.val % 8 = 0 → a.kind = 2 → a.lwemod = 0 →
    (s.tilesAt i).gauze = some pb → pb.positions.length = b →
    let c := s.psetCtx a.pset
    let ps := c.ps
    let n := ps.n
    let l := extLimb c 0 0
    s.bundleFits i dst (b / 8) ps.lweN = true → s.recKeys i = some ks → ks.find (2 ^ 18) = some e →
    ledger c .lweKs [a] {} = .passed d → (∀ v ∈ (s.clustersAt (i / 8)).keyCache, v.ksid ≠ s.tileKsid i) →
    limbsReady s i [{ srcs := [(.spad pb.off0, n, l.q), (.spad pb.off1, n, l.q)], dsts := [], res := fun _ => [] }] →
    let key (g : Nat) : Nat := s.keyCopy (i / 8) e + g * (4 * n)
    (∀ g, g < ps.gauze.ksDigits → s.rangeStatus (.tile i) (key g) (4 * n) = .OK ∧ s.poisoned (key g) (4 * n) = false ∧
      nonCanonical l.q (s.readWords (key g) n) = false) →
    let gs := List.range ps.gauze.ksDigits
    let y := lweSwitch l ps.logn ps.gauze.ksDigits ps.gauze.ksBaseLog (gs.map fun g => s.readWords (key g) n)
      (gs.map fun g => muslinLimb ks.seed (2 ^ 18) g 0 0 l.q n) (s.readWords (spadBase i + pb.off0) n) (s.readWords (spadBase i + pb.off1) n)
    let at_ (k : Nat) : Nat := sampleAt (8 * (i.val / 8) + k % 8) dst (k / 8) ps.lweN
    ∃ t, exec (.lweKs i .execute w) s = .next t ∧
      (∀ k, k < b → t.readWords (at_ k) (ps.lweN + 1) = (extractSample l.q n (n / ps.lweN) ps.lweN (pb.positions.getD k 0) y.1 y.2).map
        (fun x => switchWord l.q ps.lweLogq x % 2 ^ 32)) ∧
      (∀ p, (∀ k, k < b → p < at_ k ∨ at_ k + 4 * (ps.lweN + 1) ≤ p) → memByte t.mem p = memByte s.mem p) ∧
      t.tilesAt i = inFlight { macroTile s i w d with gauze := none } 5 2 w ∧
      (t.clustersAt (i / 8)).gzHeads = headsAfter s i 2 w

/-- BLINDROT at issue (R154, R155, R164, R166): its samples and its table are taken, its key stream is open, all coordinates are left to
do, and the slots of its outputs hold the row's descriptor; no byte of memory has changed, the work area being outside the model's
scratchpad (log entry 75). -/
def Sys2Proof.Claims.BlindrotStarts : Prop :=
  ∀ (i : Fin 64) (w : NInstr) (s : State) (a d : Ctd) (b dst src lo : Nat) (u : Lut) (ks : KeySet),
    inOrder s i 4 w → macroWord s i w 0x1F a b dst src (.spad lo) → a.kind = 2 → a.lwemod = 2 →
    let c := s.psetCtx a.pset
    let ps := c.ps
    let outs := 2 ^ u.outsLog
    let step := (opWord w).pstride * 64
    lutOf (s.read (spadBase i + lo) 64) = some u → ((a.scale : Int) - ((ps.logn : Int) - u.hLog) * 65536).natAbs ≤ 256 →
    w.dst + outs ≤ 256 → (w.src1 < w.dst ∨ w.dst + outs ≤ w.src1) → s.keyHeld i = false → s.recKeys i = some ks →
    (ks.find (2 * 2 ^ 18)).isSome = true → (ks.find (2 ^ 18 + 1)).isSome = true →
    s.keyDiffers i (rotationStream (s.tileKsid i)) = false → blindrotLedger c u a = .passed d →
    limbsReady s i ((List.range (b / 8)).map fun k =>
      { srcs := [(.spad (src + k * sampleStride ps.lweN), ps.lweN + 1, 0), (.spad lo, 16, 0)]
        dsts := (List.range outs).map fun v => (.spad (dst + v * step + k * sampleStride ps.lweN), ps.lweN + 1)
        res := fun _ => [] }) →
    let samples := (List.range (b / 8)).map fun k => s.readWords (sampleAt i src k ps.lweN) (ps.lweN + 1)
    let g : GzRun := { pset := a.pset, dst := dst, step := step, outs := outs, vs := u.sub (2 ^ ps.gauze.brLogn), samples := samples
                       accs := samples.map (rotationStart (extLimb c 0 0) ps u) }
    let x := (issueTile (s.tilesAt i) .execute w).putOutputs w.dst outs step d
    ∃ t, exec (.blindrot i .execute w) s = .next t ∧
      t.tilesAt i = { inWork { x with gzCount := (s.tilesAt i).gzCount + 1 } 4 w (fun e =>
          { e with left := ps.lweN, gz := some g, view := s.issueView i }) with
        kstream := some { rotationStream (s.tileKsid i) with head := (s.tilesAt i).kCount }, kCount := (s.tilesAt i).kCount + 1 } ∧
      (∀ j, j ≠ i.val → t.tilesAt j = s.tilesAt j) ∧ t.mem = s.mem ∧
      (t.clustersAt (i / 8)).gzHeads = headsAfter s i 4 w

/-- REPACK (R165) once the tiles of the record have ended their macros before it: the tile's limbs of both polynomials take a function of
the sequence, St, the parameters, the key set's seed and stored keys, and the bundle's samples on all eight tiles, which the spec leaves
to the vendor (log entry 2), whatever it is. -/
def Sys2Proof.Claims.RepackWrites : Prop :=
  ∀ (i : Fin 64) (w : NInstr) (s : State) (a d : Ctd) (b dst src : Nat) (r2 : Opnd) (ks : KeySet),
    inOrder s i 5 w → macroWord s i w 0x7FF a b dst src r2 → a.kind = 2 → a.lwemod = 1 →
    let c := s.psetCtx a.pset
    let ps := c.ps
    let g := ps.gauze
    let st := bits w.imm 10 5
    let seqs := s.fw.vendor.repacks
    let kids := repackKids ps b (mapGet [] seqs g.repackSeq)
    g.repackSeq ≠ 0 → seqs.any (·.1 = g.repackSeq) = true → 1 ≤ st → st ≤ 60 → s.bundleFits i src (b / 8) ps.lweN = true →
    s.macrosDone i (s.tilesAt i).gzCount = true → s.recKeys i = some ks → (∀ k ∈ kids, (ks.find k).isSome = true) →
    (∀ k ∈ kids, ∀ e, ks.find k = some e → s.keyPoisoned (i / 8) e (keyBytes ps k) = false) →
    s.bundlePoison (i / 8) src b ps.lweN = none → ledger c (.repack (st * 65536 : Nat) b g.repackLevel) [a] {} = .passed d →
    let words := s.bundleWords (i / 8) src b ps.lweN
    let keys := kids.map fun k => (ks.find k).elim [] fun e => s.readWords (s.keyCopy (i / 8) e) (keyBytes ps k / 4)
    let ls := (tileLimbs c g.repackLevel .chain (i % 8)).zipIdx
    let u : LimbWork :=
      { srcs := (List.range (b / 8)).map fun k => (.spad (src + k * sampleStride ps.lweN), ps.lweN + 1, 0)
        dsts := ls.flatMap fun lt => [0, 1].map fun p => (.spad (dst + (p * (opWord w).pstride + lt.2 * (opWord w).lstride) * 64), ps.n)
        res := fun _ => ls.flatMap fun lt => [0, 1].map fun p => padTo ps.n
          ((Config.repack [g.repackSeq, st, ps.logn, b, ps.lweN, ps.lweLogq, lt.1.q, p] ks.seed keys words).map (· % lt.1.q)) }
    limbsReady s i [u] →
    ∃ t, exec (.repack i .execute w) s = .next t ∧ LimbsWritten s t i [u] ∧
      t.tilesAt i = inFlight (macroTile s i w d) 5 5 w ∧ (∀ j, j ≠ i.val → t.tilesAt j = s.tilesAt j) ∧
      t.clustersAt (i / 8) = { s.clustersAt (i / 8) with gzHeads := headsAfter s i 5 w }

/-! ### The access unit (ch. 09) -/

/-- An access-unit instruction: its tile, OP code, stream, word, and what the unit makes of it. -/
structure Sys2Proof.Claims.AccessCmd where
  tile : Fin 64
  op : Nat
  side : Side
  word : NInstr
  plan : (s : State) → Tx s → AccessPlan s

/-- The access unit's instructions (R173, R212). -/
def Sys2Proof.Claims.accessOf : Instr → Option AccessCmd
  | .move i d w => some ⟨i, 0x01, d, w, fun _ => movePlan i false w⟩
  | .moveo i d w => some ⟨i, 0x02, d, w, fun _ => movePlan i true w⟩
  | .sprog i d w => some ⟨i, 0x03, d, w, fun _ => sprogPlan i w⟩
  | .kstream i d w => some ⟨i, 0x04, d, w, fun _ => kstreamPlan i w⟩
  | .wstream i d w => some ⟨i, 0x05, d, w, fun _ => wstreamPlan i w⟩
  | .ocld i d w => some ⟨i, 0x06, d, w.word, fun _ => oclPlan i w.word fun t k a =>
      if w.lost.any (·.toNat = k) then t.bump TILE.PCLCNT.COLLIDE 1 i
      else (t.modTiles i (·.setOcLine k (t.now.readWords a 256))).when (t.now.poisoned a 1024) fun t =>
        t.modTiles i fun x => { x with ocBad := insertSorted x.ocBad k }⟩
  | .ocst i d w => some ⟨i, 0x07, d, w, fun _ => oclPlan i w fun t k a =>
      (t.writeWords a ((t.tilesAt i).ocLine k)).when ((t.tilesAt i).ocBad.contains k) fun t => t.poisonRange a 1024⟩
  | _ => none

/-- An access-unit instruction on a tile that can issue it (R196, R197, R212, R214): where its operands are in order it issues and the
unit starts its transfer or stream; where the unit refuses it the tile stops with the refusal's status and it has not issued; where it
must wait for the unit nothing moves. -/
def Sys2Proof.Claims.AccessIssues : Prop :=
  ∀ (c : Instr) (k : AccessCmd) (s : State), accessOf c = some k → s.readyTile k.tile 1 k.side k.word = true →
    (∀ f, k.plan s (begin s) = .run f → exec c s =
      done ((f ((begin s).putTiles k.tile (issueTile (s.tilesAt k.tile) k.side k.word))).modTiles k.tile Tile.settle)) ∧
    (∀ st, st ≠ .LEDGER → k.plan s (begin s) = .refuse st →
      ∃ t, exec c s = .next t ∧ ThenStops s t k.tile (s.tilesAt k.tile).settle st 0) ∧
    (∀ st a, k.plan s (begin s) = .refuseAt st a → exec c s =
      done ((((begin s).logAccess a st false).stopTile k.tile (issueErr (s.tilesAt k.tile) k.side 1 k.op k.word st)).modTiles k.tile
        Tile.settle)) ∧
    (k.plan s (begin s) = .wait → ∃ t, exec c s = .next t ∧ TileBecomes s t k.tile (s.tilesAt k.tile).settle)

/-- An instruction of a legal OCLD or OCST: `n` operand-cache lines from line `k`, and the scratchpad rows at `off` (R212). -/
def Sys2Proof.Claims.oclWord (s : State) (i : Fin 64) (w : NInstr) (k n off : Nat) : Prop :=
  s.readyTile i 1 .access w = true ∧ w.a = 0 ∧ bits w.opd.toNat 80 0 = 0 ∧ refOpnd (bits w.opd.toNat 127 102) = some (.spad off) ∧
    k = bits w.opd.toNat 101 92 ∧ n = bits w.opd.toNat 91 81 ∧ 0 < n ∧ k + n ≤ 1024 ∧ off + 1024 * n ≤ s.spadEnd i

/-- The tile of an OCLD or OCST but for its operand cache: issued, the transfer awaiting its SIGNAL. -/
def Sys2Proof.Claims.oclTile (s : State) (i : Fin 64) (w : NInstr) : Tile :=
  ((issueTile (s.tilesAt i) .access w).addTransfer { sig := w.sig.toNat }).settle

/-- OCLD (R173, R174, R212, R342): `n` operand-cache lines from line `k` take the scratchpad's words at the reference, one line of 256 words
each 1,024 bytes; a line whose rows are poisoned is poisoned; a line that a PST writes in the same cycle keeps what it has, and
PCLCNT.COLLIDE counts it; no other line changes, and nothing else. OCST: the rows take the lines' words, poisoned where the line is, and
nothing else changes. -/
def Sys2Proof.Claims.OperandCacheLines : Prop :=
  (∀ (i : Fin 64) (w : NInstr) (lost : List (BitVec 10)) (s : State) (k n off : Nat), oclWord s i w k n off →
    let gone (j : Nat) : Bool := lost.any (·.toNat = k + j)
    ∃ t x, exec (.ocld i .access ⟨w, lost⟩) s = .next t ∧ t.tilesAt i = x ∧ (∀ j, j ≠ i.val → t.tilesAt j = s.tilesAt j) ∧
      { x with ocache := (oclTile s i w).ocache, ocBad := (oclTile s i w).ocBad } = oclTile s i w ∧
      (∀ j, j < n → gone j = false → x.ocLine (k + j) = s.readWords (spadBase i + off + 1024 * j) 256 ∧
        (k + j ∈ x.ocBad ↔ s.poisoned (spadBase i + off + 1024 * j) 1024 = true)) ∧
      (∀ j, (j < k ∨ k + n ≤ j ∨ ∃ m, j = k + m ∧ gone m = true) →
        x.ocLine j = (s.tilesAt i).ocLine j ∧ (j ∈ x.ocBad ↔ j ∈ (s.tilesAt i).ocBad)) ∧
      t.fld TILE.PCLCNT.COLLIDE i = min (s.fld TILE.PCLCNT.COLLIDE i + ((List.range n).filter gone).length) 0xFFFF ∧
      { t with tiles := s.tiles, regs := s.regs } = s ∧ RegsBut s t [TILE.PCLCNT.COLLIDE.at_ i]) ∧
  ∀ (i : Fin 64) (w : NInstr) (s : State) (k n off : Nat), oclWord s i w k n off → Memory.wf s.mem = true →
    (∀ j, j < n → ((s.tilesAt i).ocLine (k + j)).length = 256) →
    ∃ t, exec (.ocst i .access w) s = .next t ∧ t.tilesAt i = oclTile s i w ∧ (∀ j, j ≠ i.val → t.tilesAt j = s.tilesAt j) ∧
      (∀ j, j < n → t.readWords (spadBase i + off + 1024 * j) 256 = ((s.tilesAt i).ocLine (k + j)).map (· % 2 ^ 32) ∧
        t.poisoned (spadBase i + off + 1024 * j) 1024 = (s.tilesAt i).ocBad.contains (k + j)) ∧
      SameOutside s t (spadBase i + off) (1024 * n) ∧
      { t with tiles := s.tiles, mem := s.mem, poison := s.poison, landTag := s.landTag } = s

/-- Operands of a MOVE or MOVEO between `n` lines of this module at local address `a` and the scratchpad at `off`, that the unit moves at
once: every line in reach, and a line of the tiers let through by a work-conserving regulator at which nothing waits (R212, R283, R284). -/
def Sys2Proof.Claims.moveReady (s : State) (i : Fin 64) (w : NInstr) (n a off : Nat) : Prop :=
  let o := w.opd.toNat
  s.readyTile i 1 .access w = true ∧ w.a = 0 ∧ bits o 17 0 = 0 ∧ n = bits o 41 18 ∧ 0 < n ∧ a = bits o 127 68 % 2 ^ 44 ∧
    bits o 127 68 / 2 ^ 44 = s.devId ∧ a % 64 = 0 ∧ a + 64 * n ≤ 2 ^ 44 ∧ refOpnd (bits o 67 42) = some (.spad off) ∧
    off + 64 * n ≤ s.spadEnd i ∧ (∀ k, k < n → s.access (.tile i) (a + 64 * k) = .OK) ∧
    (∀ k, k < n → isSpad (a + 64 * k) = true ∨
      ((s.memctlAt (s.controllerOf (a + 64 * k))).waiting = [] ∧
        bit (s.regulator (s.controllerOf (a + 64 * k)) (s.partition 0)) 31 = true)) ∧
    (spadBase i + off + 64 * n ≤ a ∨ a + 64 * n ≤ spadBase i + off) ∧ Memory.wf s.mem = true ∧
    ∀ v ∈ (s.tilesAt i).transfers, v.id ≠ (s.tilesAt i).xferNext

/-- The tile of a MOVE or MOVEO whose lines have all moved: issued, the transfer awaiting its SIGNAL. -/
def Sys2Proof.Claims.movedTile (s : State) (i : Fin 64) (w : NInstr) (out : Bool) (n off : Nat) : Tile :=
  ((issueTile (s.tilesAt i) .access w).addTransfer { sig := w.sig.toNat, out := out, gaddr := bits w.opd.toNat 127 68, lines := n
                                                     ref := .spad off, next := n }).settle

/-- MOVE and MOVEO within this module, to and from the scratchpad (R212, R283): the lines' bytes stand at their destination, every other
byte and every other tile as before, and the transfer awaits its SIGNAL. Shown where no source line is poisoned. -/
def Sys2Proof.Claims.LinesMove : Prop :=
  (∀ (i : Fin 64) (w : NInstr) (s : State) (n a off : Nat), moveReady s i w n a off → s.poisoned a (64 * n) = false →
    ∃ t, exec (.move i .access w) s = .next t ∧
      (∀ k, k < 64 * n → memByte t.mem (spadBase i + off + k) = memByte s.mem (a + k)) ∧
      SameOutside s t (spadBase i + off) (64 * n) ∧ t.tilesAt i = movedTile s i w false n off ∧
      ∀ j, j ≠ i.val → t.tilesAt j = s.tilesAt j) ∧
  ∀ (i : Fin 64) (w : NInstr) (s : State) (n a off : Nat), moveReady s i w n a off →
    s.poisoned (spadBase i + off) (64 * n) = false →
    ∃ t, exec (.moveo i .access w) s = .next t ∧
      (∀ k, k < 64 * n → memByte t.mem (a + k) = memByte s.mem (spadBase i + off + k)) ∧
      SameOutside s t a (64 * n) ∧ t.tilesAt i = movedTile s i w true n off ∧
      ∀ j, j ≠ i.val → t.tilesAt j = s.tilesAt j

/-- SPROG (R262, R277): a header and entries that are legal and not poisoned start their program, STRMSTAT showing it. Shown where an
entry has a tile or block to move. -/
def Sys2Proof.Claims.ProgramStarts : Prop :=
  ∀ (i : Fin 64) (w : NInstr) (s : State),
    let off := bits w.a 24 0
    let rd (a n : Nat) : List Byte := s.read (spadBase i + off + a) n
    let h := rd 0 64
    let n := leBytes h 0 1
    let width := (s.graphsAt (s.recordsAt ((s.tilesAt i).rec?.getD 0)).graph).width
    let es := (List.range n).filterMap fun k => s.entryAt i width (rd (64 + 128 * k) 128)
    s.readyTile i 1 .access w = true → bits w.a 50 25 = 0 → w.opd = 0 → (s.tilesAt i).prog = none → 0 < n → n ≤ 8 →
    leBytes h 1 1 ≤ 1 → leBytes h 2 2 = 0 → leBytes h 8 56 = 0 → off + 64 + 128 * n ≤ s.spadEnd i →
    s.poisoned (spadBase i + off) (64 + 128 * n) = false → s.poisoned (spadBase i + off) 64 = false →
    (∀ k, k < n → s.blockListPoison i (entryOf (rd (64 + 128 * k) 128)) = false) →
    (∀ k, k < n → ∃ e, s.entryAt i width (rd (64 + 128 * k) 128) = some e ∧ s.contribFits e = true) →
    (∃ e ∈ es, e.total ≠ 0) →
    ∃ t, exec (.sprog i .access w) s = .next t ∧
      t.tilesAt i = Tile.settle { issueTile (s.tilesAt i) .access w with
        prog := some { cache := leBytes h 1 1 = 1, pad := leBytes h 4 4, sig := w.sig.toNat
                       entries := es.map fun e => { e with ended := e.total = 0 } } } ∧
      (∀ j, j ≠ i.val → t.tilesAt j = s.tilesAt j) ∧ { t with tiles := s.tiles, regs := s.regs } = s ∧
      t.fld TILE.STRMSTAT.ACTIVE i = 1 ∧
      RegsBut s t [TILE.STRMSTAT.ACTIVE.at_ i, TILE.STRMSTAT.RUN.at_ i, TILE.STRMSTAT.WAITING.at_ i]

/-- KSTREAM (R112, R115): operands in order, its set bound to the record's session, its key in the directory, and no earlier stream of the
cluster still running: the stream is open on the tile, and the first tile of the cluster gives the header. -/
def Sys2Proof.Claims.KeyStreamOpens : Prop :=
  ∀ (i : Fin 64) (w : NInstr) (s : State) (e : DirEntry) (n : Nat) (bs : List Byte),
    let k := kstreamOf w
    let set := s.ksetsAt k.ksid
    let c := s.psetCtx set.pset
    let x := s.tilesAt i
    s.readyTile i 1 .access w = true → w.a = 0 → bits w.opd.toNat 45 0 = 0 → k.bq ≠ k.aq → k.dlo ≤ k.dhi → k.land % 64 = 0 →
    s.keyHeld i = false → k.ksid = s.tileKsid i → set.bound = true → set.dir.zipIdx.find? (·.1.kid = k.kid) = some (e, n) →
    k.level < c.ps.numQ → k.dhi < k.digitBound c.ps →
    (k.dest = false → (x.inq.getD k.bq {}).opened = true ∧ (x.inq.getD k.aq {}).opened = true) →
    (k.dest = true → k.land + (streamRows c k (i % 8)).length * k.digits * 2 * (4 * keyRing c.ps k.kid) ≤ s.spadEnd i) →
    s.keyDiffers i k = false → s.lineOf (.tile i) ((set.dirAddr + 16 * n) / 64 * 64) = .ok bs →
    ∃ t, exec (.kstream i .access w) s = .next t ∧
      t.tilesAt i = Tile.settle { issueTile x .access w with kstream := some { k with head := x.kCount }, kCount := x.kCount + 1 } ∧
      (∀ j, j ≠ i.val → t.tilesAt j = s.tilesAt j) ∧ t.mem = s.mem ∧
      (t.clustersAt (i / 8)).kheads = (s.clustersAt (i / 8)).kheads ++
        if (s.clustersAt (i / 8)).kheads.length ≤ x.kCount then [k.header] else []

/-- WSTREAM (R129 to R132): a WSD that is in reach, not poisoned and legal, whose blocks lie in a tier, fills the weight slot and opens the
stream, which the cluster's first tile fixes for the others. Shown for weights that are not sealed. -/
def Sys2Proof.Claims.WeightStreamOpens : Prop :=
  ∀ (i : Fin 64) (w : NInstr) (s : State),
    let x := s.tilesAt i
    let v := wstreamOf w x.wCount
    let a := bits w.a 43 0
    let d : Wsd := { wsdOfNat (leNat (s.read a 32)) with order := v.order }
    let last := d.blockAddr (d.rows - 1) (d.rowblk - 1) + blockBytes d.fmt d.esc
    let c := s.clustersAt (i / 8)
    s.readyTile i 1 .access w = true → bits w.a 50 44 = 0 → bits w.opd.toNat 31 0 = 0 → a % 32 = 0 → v.land % 64 = 0 →
    x.slotBusy v.slot = false → s.access (.tile i) a = .OK → s.poisoned a 32 = false → d.legal = true →
    s.withinTier d.addr (last - d.addr) = true → 0 < v.nr → v.r0 + v.nr ≤ d.rows → 0 < v.nb → v.b0 + v.nb ≤ d.rowblk →
    (v.dest = false → (x.inq.getD v.qn {}).opened = true) → (v.dest = true → v.land + v.landBytes d ≤ s.spadEnd i) →
    (∀ h, c.wheads[x.wCount]? = some h → h = [a, w.opd.toNat]) → d.isSealed = false →
    ∃ t, exec (.wstream i .access w) s = .next t ∧
      t.tilesAt i = Tile.settle { issueTile x .access w with
        wCount := x.wCount + 1, wslots := mapInsert x.wslots v.slot d, wstreams := x.wstreams ++ [{ v with wsd := d }] } ∧
      (∀ j, j ≠ i.val → t.tilesAt j = s.tilesAt j) ∧
      t.clustersAt (i / 8) = { c with wheads := c.wheads ++ if c.wheads[x.wCount]? = none then [[a, w.opd.toNat]] else [] } ∧
      (∀ j, j ≠ i.val / 8 → t.clustersAt j = s.clustersAt j) ∧ { t with tiles := s.tiles, clusters := s.clusters } = s

/-! ### Tiles from outside their streams (ch. 09, 18) -/

/-- The tile after a SIGNAL on a flag or a counter, or none (R205). -/
def Sys2Proof.Claims.signalled (x : Tile) (g : Nat) : Tile :=
  match bits g 11 10 with
  | 1 => setFlag x (bits g 9 4)
  | 2 => addCtr x (bits g 9 4) (bits g 3 0 + 1)
  | _ => x

/-- Channels of a tile with nothing to send: no token waits, and less than a line of words. -/
def Sys2Proof.Claims.nothingToSend (x : Tile) : Prop :=
  ∀ c, (x.chans.getD c {}).bound = true → (x.chans.getD c {}).toks = [] ∧
    (x.outq.getD (x.chans.getD c {}).sq {}).words.length < 16

/-- Nothing waits to enter an inbound queue of the tile: no key stream, no line of a transfer, no message in admission. -/
def Sys2Proof.Claims.nothingToEnter (x : Tile) : Prop :=
  x.kstream = none ∧ (∀ v ∈ x.transfers, v.got = []) ∧ ∀ r ∈ x.rx, r.2.left = 0

/-- The stalled instruction that a tile goes on with: the first in flight with steps left, no BLINDROT, that `p` picks. -/
def Sys2Proof.Claims.stalledFirst (x : Tile) (p : InFlight → Bool) (e : InFlight) : Prop :=
  x.engines.find? (fun e => e.left ≠ 0 && e.gz.isNone && p e) = some e

/-- Stalls end (R16, R92, R202). UNDERRUN_RESUME: a running tile's stalled engine goes on with the steps it has left, under what it
issued with; where its queue is still empty nothing moves, and a unit that does not stall has nothing to resume. OVERRUN_RESUME: once a
full outbound queue has given a line away it stalls no more, and the engine that waits on it goes on. -/
def Sys2Proof.Claims.StallsEnd : Prop :=
  (∀ (i : Fin 64) (unit : Fin 7) (s : State) (e : InFlight), s.runState i = runRunning →
    (s.tilesAt i).stallQ.contains unit.val = true → stalledFirst (s.tilesAt i) (·.unit = unit.val) e →
    exec (.underrunResume i unit) s = done ((begin s).goOn i e (enginePlan i e.unit e.op e.word))) ∧
  (∀ (i : Fin 64) (unit : Fin 7) (s : State), (s.runState i ≠ runRunning ∨ (s.tilesAt i).stallQ.contains unit.val = false) →
    exec (.underrunResume i unit) s = .next s) ∧
  (∀ (i : Fin 64) (q : Fin 8) (s : State), ((s.tilesAt i).outq.getD q {}).words.length ≤ 4096 →
    (s.runState i ≠ runRunning ∨ ∀ e ∈ (s.tilesAt i).engines, e.left = 0 ∨ e.gz.isSome = true ∨ e.outs.contains q.val = false) →
    ∃ t, exec (.overrunResume i q) s = .next t ∧
      TileBecomes s t i { s.tilesAt i with outq := (s.tilesAt i).outq.set q { (s.tilesAt i).outq.getD q {} with stalled := false } }) ∧
  ∀ (i : Fin 64) (q : Fin 8) (s : State) (e : InFlight), ((s.tilesAt i).outq.getD q {}).words.length ≤ 4096 →
    s.runState i = runRunning → stalledFirst (s.tilesAt i) (·.outs.contains q.val) e →
    exec (.overrunResume i q) s = done (((begin s).modTiles i fun x =>
      { x with outq := x.outq.set q { x.outq.getD q {} with stalled := false } }).goOn i e (enginePlan i e.unit e.op e.word))

/-- What becomes visible on a tile, and its stalls (R16, R73, R92, R96, R200, R202, R205, R217, R224, R332): an engine instruction that
has done its work, none before it on its pipe, ends its occupancy, WSTACC and DMKDACC show what it left, and its SIGNAL takes effect; a
transfer whose lines have all moved leaves and signals; stalls end; a queue admits the message that its mode chooses, and SELLAST shows the
choice and counts it; a tile whose streams have ended is idle, its part of its record over, others of the record at work. Nothing else
changes. Shown for SIGNALs that are no tokens. -/
def Obligations.ResultsAndStalls : Prop :=
  (∀ (i : Fin 64) (k : Nat) (s : State) (e : InFlight), (s.tilesAt i).engines[k]? = some e → s.inEpoch i = true →
    (s.tilesAt i).working e = false → (s.tilesAt i).pipeBefore k e = false → bits e.sig 11 10 ≠ 3 →
    ∃ t, exec (.instrResultVisible i k) s = .next t ∧
      TileBecomes s t i (signalled { s.tilesAt i with
        engines := (s.tilesAt i).engines.eraseIdx k, shown := e.show_ (s.tilesAt i).shown, progress := true } e.sig)) ∧
  (∀ (i : Fin 64) (k : Nat) (ans : HostAnswer) (s : State) (v : Transfer), (s.tilesAt i).transfers[k]? = some v →
    ((s.tilesAt i).transfers.map (·.id)).Nodup → nothingToEnter (s.tilesAt i) → v.complete = true → v.status = .OK →
    s.inEpoch i = true → bits v.sig 11 10 ≠ 3 → ∃ t, exec (.transferSignal i k ans) s = .next t ∧
      TileBecomes s t i (signalled { (s.tilesAt i).dropTransfer v.id with progress := true } v.sig)) ∧
  StallsEnd ∧
  (∀ (i : Fin 64) (s : State) (r : Nat), (s.tilesAt i).rec? = some r → (s.recordsAt r).stage = .dispatched →
    (s.recordsAt r).tilesDone.contains i.val = false → s.runState i = runRunning → (s.tilesAt i).finished = true → i.val % 8 ≠ 0 →
    s.writesOut i = false → (s.contextsAt (s.ctxBase i)).live = false →
    (∃ j ∈ (s.recordsAt r).tiles, j ≠ i.val ∧ (s.recordsAt r).tilesDone.contains j = false) →
    ∃ t, exec (.tileRecordDone i) s = .next t ∧ t.runState i = runIdle ∧ t.tilesAt i = { s.tilesAt i with
        rec? := none, lanes := [], kstream := none, wstreams := [], transfers := [], prog := none } ∧
      (∀ j, j ≠ i.val → t.tilesAt j = s.tilesAt j) ∧
      t.recordsAt r = { s.recordsAt r with tilesDone := insertSorted (s.recordsAt r).tilesDone i } ∧
      (∀ j, j ≠ r → t.recordsAt j = s.recordsAt j) ∧ { t with tiles := s.tiles, records := s.records, regs := s.regs } = s ∧
      RegsBut s t [TILE.RUNSTAT.STATE.at_ i]) ∧
  ∀ (i : Fin 64) (q : Fin 8) (s : State) (key : Nat), ((s.tilesAt i).inq.getD q {}).opened = true →
    (∀ r ∈ (s.tilesAt i).rx, r.2.dq = q.val → r.2.left = 0) →
    admitChoice ((s.tilesAt i).inq.getD q {}).rotate ((s.tilesAt i).inq.getD q {}).last ((s.tilesAt i).readyKeys q) = some key →
    key < 128 → nothingToSend (s.tilesAt (8 * (i.val / 8) + key / 16)) →
    ∃ t, exec (.messageAdmit i q) s = .next t ∧
      t.tilesAt i = Tile.rxRun { s.tilesAt i with
        rx := mapPut {} (s.tilesAt i).rx key { mapGet {} (s.tilesAt i).rx key with left := (mapGet {} (s.tilesAt i).rx key).msglen }
        inq := (s.tilesAt i).inq.set q { (s.tilesAt i).inq.getD q {} with last := some key } } key ∧
      (∀ j, j ≠ i.val → t.tilesAt j = s.tilesAt j) ∧
      t.fld TILE.SELLAST.LAST i = key ∧ t.fld TILE.SELLAST.COUNT i = min (s.fld TILE.SELLAST.COUNT i + 1) 0xFFFF ∧
      { t with tiles := s.tiles, regs := s.regs } = s ∧ ∀ a, a ≠ TILE.SELLAST.LAST.addr i 0 → t.regsAt a = s.regsAt a

/-- A tile's run state and contents change, and nothing else but what its interrupts report, and the registers named. -/
def Sys2Proof.Claims.RunBecomes (s t : State) (i st : Nat) (x : Tile) (ws : List Nat) : Prop :=
  t.runState i = st ∧ t.tilesAt i = x ∧ (∀ j, j ≠ i → t.tilesAt j = s.tilesAt j) ∧ t.mem = s.mem ∧
    ∀ a, reportWord a = false → a ≠ TILE.RUNSTAT.STATE.addr i 0 → a ∉ ws → t.regsAt a = s.regsAt a

/-- HALT freezes a running tile and its release runs it on, its epoch perturbed (R228); PREEMPT makes an idle tile SAVED at once with an
empty context, and a running one, or a restored one before its boundary, SAVING (R223, R228); RESUME starts the restore of a SAVED tile
whose context is held (R229). -/
def Sys2Proof.Claims.RunControl : Prop :=
  (∀ (o : RegFrom) (i : Fin 64) (s : State), s.takesWrite o .TILE i = true → s.runState i = runRunning →
    ∃ t, exec (.halt o i) s = .next t ∧ RunBecomes s t i runHalted (s.tilesAt i) [TILE.RUNCTL.HALT.addr i 0] ∧
      t.fld TILE.RUNCTL.HALT i = 1) ∧
  (∀ (o : RegFrom) (i : Fin 64) (s : State), s.takesWrite o .TILE i = true → s.runState i = runHalted →
    ∃ t, exec (.haltRelease o i) s = .next t ∧
      RunBecomes s t i runRunning (s.tilesAt i) [TILE.RUNCTL.HALT.addr i 0, TILE.PTBCNT.EPOCHS.addr i 0] ∧
      t.fld TILE.RUNCTL.HALT i = 0 ∧ t.fld TILE.RUNSTAT.PERTURBED i = 1) ∧
  (∀ (o : RegFrom) (i : Fin 64) (s : State), s.takesWrite o .TILE i = true → (s.tilesAt i).rec? = none → s.runState i = runIdle →
    ∃ t, exec (.preempt o i) s = .next t ∧ RunBecomes s t i runSaved (s.tilesAt i) [] ∧
      t.contextsAt (s.ctxBase i) = { live := true }) ∧
  (∀ (o : RegFrom) (i : Fin 64) (s : State), s.takesWrite o .TILE i = true → (s.tilesAt i).rec? ≠ none → s.runState i = runRunning →
    ∃ t, exec (.preempt o i) s = .next t ∧ RunBecomes s t i runSaving { s.tilesAt i with preempting := true }
      [TILE.WSTCNT.RESUME.addr i 0, PWR.DVFS.CUR.addr 0 i]) ∧
  (∀ (o : RegFrom) (i : Fin 64) (s : State), s.takesWrite o .TILE i = true → (s.tilesAt i).rec? ≠ none → s.runState i = runRestoring →
    (s.tilesAt i).restored = true → ∃ t, exec (.preempt o i) s = .next t ∧
      RunBecomes s t i runSaving { s.tilesAt i with preempting := true, restored := false } [PWR.DVFS.CUR.addr 0 i]) ∧
  ∀ (o : RegFrom) (i : Fin 64) (s : State), s.takesWrite o .TILE i = true → s.runState i = runSaved →
    (s.contextsAt (s.ctxBase i)).live = true →
    ∃ t, exec (.tileResume o i) s = .next t ∧ RunBecomes s t i runRestoring (s.tilesAt i) []

/-- CONTEXT_SAVED: the tile reads SAVED, its context is held at CTXBASE with what its streams have at their stopping points, and nothing
below the context area is written (R224, R226). CONTEXT_RESTORED: the tile takes its context back and waits for the boundary, or saves
again where it was preempted meanwhile (R228, R229); shown where the context has no poison and no slot beyond its entry. -/
def Sys2Proof.Claims.ContextSwitch : Prop :=
  (∀ (i : Fin 64) (s : State), s.runState i = runSaving →
    ∃ t, exec (.contextSaved i) s = .next t ∧ t.runState i = runSaved ∧ (t.tilesAt i).saved = true ∧
      (t.tilesAt i).preempting = false ∧ (t.contextsAt (s.ctxBase i)).live = true ∧
      t.tilesAt i = { (t.contextsAt (s.ctxBase i)).tile with saved := true } ∧
      (∀ j, j ≠ i.val → t.tilesAt j = s.tilesAt j) ∧ ∀ b, b < s.ctxBase i → memByte t.mem b = memByte s.mem b) ∧
  ∀ (i : Fin 64) (s : State) (x : Tile), s.runState i = runRestoring → (s.tilesAt i).restored = false →
    s.contextPoison (s.ctxBase i) = false → x = s.readContext (s.ctxBase i) (s.contextsAt (s.ctxBase i)).tile →
    (∀ v ∈ x.dacc.entries, v < 2 ^ 48) → (x.acc0.live = true → ∀ v ∈ x.acc0.entries, v < 2 ^ 80) →
    (x.acc1.live = true → ∀ v ∈ x.acc1.entries, v < 2 ^ 80) → (s.contextsAt (s.ctxBase i)).scratchEnd = 0 →
    ∃ t, exec (.contextRestored i) s = .next t ∧
      t.tilesAt i = { x with
        saved := false, restored := !(s.tilesAt i).preempting, preempting := (s.tilesAt i).preempting
        sptUnit := (s.tilesAt i).sptUnit, sptOn := (s.tilesAt i).sptOn, spares := (s.tilesAt i).spares, pinned := (s.tilesAt i).pinned } ∧
      (∀ j, j ≠ i.val → t.tilesAt j = s.tilesAt j) ∧
      t.runState i = (if (s.tilesAt i).preempting then runSaving else runRestoring) ∧
      t.contextsAt (s.ctxBase i) = {} ∧ t.mem = s.mem

/-- DEADLOCK_DETECT (R231, R232): a running tile that made no progress through WINDOW epochs stops with DEADLOCK, and every other tile
at work for its record stops with ABORTED. -/
def Obligations.DeadlockStops : Prop :=
  ∀ (i : Fin 64) (s : State), s.runState i = runRunning → (begin s).fldEff TILE.DLKCTL.WINDOW i ≠ 0 →
    (begin s).fldEff TILE.DLKCTL.WINDOW i ≤ (s.tilesAt i).idleEpochs →
    ∃ t, exec (.deadlockDetect i) s = .next t ∧ t.runState i = runStopped ∧ t.fld TILE.RUNSTAT.STATUS i = Status.DEADLOCK.code ∧
      (∀ j, t.tilesAt j = s.tilesAt j) ∧ t.mem = s.mem ∧
      ∀ r, (s.tilesAt i).rec? = some r → ∀ j ∈ (s.recordsAt r).tiles, j < 64 → j ≠ i.val → (s.tilesAt j).rec? = some r →
        s.working j = true → t.runState j = runStopped ∧ t.fld TILE.RUNSTAT.STATUS j = Status.ABORTED.code

/-- Memory holds `bs` at `a`, and every other byte reads as before. -/
def Sys2Proof.Claims.StoresAt (s t : State) (a : Nat) (bs : List Byte) : Prop :=
  ∀ j, memByte t.mem j = if a ≤ j ∧ j < a + bs.length then bs.getD (j - a) 0 else memByte s.mem j

/-- Entry `k` of the tile's program, of the kind given, may move its next tile or block: its counter lets it, no word of the one before
still waits for room, and its lane is bound (R269, R274). -/
def Sys2Proof.Claims.entryMoves (s : State) (i : Fin 64) (k : Fin 8) (kind : Nat) (p : StreamProg) (e : StreamEntry) : Prop :=
  s.entry i k [kind] = some (p, e) ∧ (s.tilesAt i).mayStart e = true ∧ e.held = [] ∧ (s.tilesAt i).void e = false

/-- An entry whose tile lies in its scratchpad buffer, each line of it wholly inbound or not at all (R264, R268). -/
def Sys2Proof.Claims.wholeLines (e : StreamEntry) : Prop :=
  e.toq = false ∧ e.esize ∈ [1, 2, 4, 8] ∧ ∀ l ∈ e.tileLines e.next, l.ok.all id = true ∨ l.ok.any id = false

/-- Where a line of an entry's tile lies in its buffer, and in the tensor (R263, R268). -/
def Sys2Proof.Claims.lineBuf (i : Fin 64) (e : StreamEntry) (l : SLine) : Nat := spadBase i + e.buffer e.next + l.off
@[inherit_doc Sys2Proof.Claims.lineBuf]
def Sys2Proof.Claims.lineAt (s : State) (i : Fin 64) (e : StreamEntry) (l : SLine) : Int :=
  (e.base + s.lanePtr (s.tilesAt i) e : Nat) + l.addr

/-- A line of PAD (R262). -/
def Sys2Proof.Claims.padOf (e : StreamEntry) (p : StreamProg) : List Byte := (List.replicate (64 / e.esize) (e.padElem p.pad)).flatten

/-- A line of this module's memory that an access by the tile reaches: whole, none of the host window's, not refused. -/
def Sys2Proof.Claims.reaches (s : State) (i : Fin 64) (g : Int) : Prop :=
  0 ≤ g ∧ g % 64 = 0 ∧ g / 2 ^ 44 % 2 ^ 16 = s.devId ∧ isHostWin (g.toNat % 2 ^ 44) = false ∧ s.access (.tile i) (g.toNat % 2 ^ 44) = .OK

/-- A tile of LOAD, RREAD, STORE and CONTRIB within this module (R264, R268, R270): each inbound line moves between its place in the
tensor, or the reduction's buffer, and the tile's buffer; a line that is not takes PAD, or is dropped, and is counted so; then the tile is
done. Shown for lines whole or not at all inbound, in reach and unpoisoned, a LOAD that is not cached. -/
def Sys2Proof.Claims.AffineTiles : Prop :=
  (∀ (i : Fin 64) (k : Fin 8) (ans : HostAnswer) (s : State) (p : StreamProg) (e : StreamEntry), entryMoves s i k 1 p e → wholeLines e →
    p.cache = false → let ls := e.tileLines e.next
    (∀ l ∈ ls, l.ok.all id = true → reaches s i (lineAt s i e l) ∧ s.poisoned ((lineAt s i e l).toNat % 2 ^ 44) 64 = false) →
    exec (.streamLoadTile i k ans) s = done ((((begin s).bump TILE.STRMCNT.PADDED (droppedLines ls) i).forEach ls fun t l =>
      t.write (lineBuf i e l) (if l.ok.all id then s.read ((lineAt s i e l).toNat % 2 ^ 44) 64 else padOf e p)).tileDone i k e)) ∧
  (∀ (i : Fin 64) (k : Fin 8) (s : State) (p : StreamProg) (e : StreamEntry) (got : SLine → List Byte), entryMoves s i k 4 p e →
    wholeLines e → bits e.base 59 44 = s.devId → let ls := e.tileLines e.next
    let r := (s.clustersAt (bits e.base 42 40)).reduction (bits e.base 39 32)
    (∀ l ∈ ls, l.ok.all id = true → 0 ≤ l.addr ∧ l.addr % 64 = 0 ∧ r.readLine (l.addr.toNat / 64) = some (.ok (got l)) ∧
      (got l).length = 64) →
    exec (.streamRread i k) s = done ((((begin s).bump TILE.STRMCNT.PADDED (droppedLines ls) i).forEach ls fun t l =>
      t.write (lineBuf i e l) (if l.ok.all id then got l else padOf e p)).tileDone i k e)) ∧
  (∀ (i : Fin 64) (k : Fin 8) (s : State) (p : StreamProg) (e : StreamEntry), entryMoves s i k 2 p e → wholeLines e →
    let ls := e.tileLines e.next
    (∀ l ∈ ls, s.poisoned (lineBuf i e l) 64 = false ∧ (l.ok.all id = true → reaches s i (lineAt s i e l))) →
    exec (.streamStoreTile i k) s = done ((((begin s).forEach ls fun t l => t.when (l.ok.all id) fun t =>
      t.write ((lineAt s i e l).toNat % 2 ^ 44) (s.read (lineBuf i e l) 64)).bump TILE.STRMCNT.DROPPED (droppedLines ls) i).tileDone
        i k e)) ∧
  ∀ (i : Fin 64) (k : Fin 8) (s : State) (p : StreamProg) (e : StreamEntry), entryMoves s i k 3 p e → wholeLines e →
    bits e.base 59 44 = s.devId → let ls := e.tileLines e.next
    let cl := bits e.base 42 40
    let rid := bits e.base 39 32
    let at_ := ls.filter fun l => l.ok.all id
    (∀ l ∈ ls, s.poisoned (lineBuf i e l) 64 = false) → (at_.map (·.addr)).Nodup →
    (∀ l ∈ at_, 0 ≤ l.addr ∧ l.addr % 64 = 0 ∧
      ((s.clustersAt cl).reduction rid).refuses (bits e.base 9 0) (l.addr.toNat / 64) = false) →
    exec (.streamContrib i k) s = done ((((begin s).forEach at_ fun t l => t.putRed cl rid (((t.clustersAt cl).reduction rid).add
      (s.primeQ ((s.clustersAt cl).reduction rid).slot) (bits e.base 9 0) (l.addr.toNat / 64)
      (some (bytesWords (s.read (lineBuf i e l) 64))))).bump TILE.STRMCNT.DROPPED (droppedLines ls) i).tileDone i k e)

/-- A block of BLOAD and BSTORE within this module (R271): its lines move between its place and its part of the buffer, and the block is
done. Shown for lines in reach and unpoisoned, a BLOAD that is not cached, and a BSTORE to bytes apart from its buffer. -/
def Sys2Proof.Claims.BlockTiles : Prop :=
  (∀ (i : Fin 64) (k : Fin 8) (ans : HostAnswer) (s : State) (p : StreamProg) (e : StreamEntry) (g n : Nat), entryMoves s i k 5 p e →
    e.toq = false → p.cache = false → Memory.wf s.mem = true → n = (e.blocks.getD e.next (0, 0)).1 →
    g = (e.blocks.getD e.next (0, 0)).2 + s.lanePtr (s.tilesAt i) e → g / 2 ^ 44 % 2 ^ 16 = s.devId → isHostWin (g % 2 ^ 44) = false →
    (∀ j, j < n → s.access (.tile i) (g % 2 ^ 44 + 64 * j) = .OK ∧ s.poisoned (g % 2 ^ 44 + 64 * j) 64 = false) →
    exec (.streamBload i k ans) s =
      done (((begin s).write (spadBase i + e.blockOff e.next) (s.read (g % 2 ^ 44) (64 * n))).tileDone i k e)) ∧
  ∀ (i : Fin 64) (k : Fin 8) (s : State) (p : StreamProg) (e : StreamEntry) (g n : Nat), entryMoves s i k 6 p e →
    e.toq = false → e.part = 0 → n = (e.blocks.getD e.next (0, 0)).1 → g = (e.blocks.getD e.next (0, 0)).2 + s.lanePtr (s.tilesAt i) e →
    let src := spadBase i + e.blockOff e.next
    s.poisoned src (64 * n) = false → (∀ j, j < n → reaches s i (g + 64 * j : Nat)) →
    (∀ j, j < n → (g + 64 * j) % 2 ^ 44 + 64 ≤ src ∨ src + 64 * n ≤ (g + 64 * j) % 2 ^ 44) →
    exec (.streamBstore i k) s = done (((begin s).forEach (List.range n) fun t j =>
      t.write ((g + 64 * j) % 2 ^ 44) (s.read (src + 64 * j) 64)).tileDone i k e)

/-- A stream program's entries move their next tile or block (R263 to R271): a LOAD's lines land from memory, an RREAD's from a
reduction, a STORE's and a CONTRIB's go out of the scratchpad or the queue, a BLOAD's block lands and a BSTORE's goes out; the entry
has then finished it: counted, its counter increased, and the program ended with its last. Shown where the entry may start and what it
moves is at hand in full; and, for the scratchpad and this module's memory, from the state alone. -/
def Obligations.StreamTiles : Prop :=
  AffineTiles ∧ BlockTiles ∧
  ∀ (i : Fin 64) (k : Fin 8) (ans : HostAnswer) (s : State) (p : StreamProg) (e : StreamEntry), (s.tilesAt i).mayStart e = true →
    e.held = [] → (s.tilesAt i).void e = false →
    let base := e.base + s.lanePtr (s.tilesAt i) e
    let ls := e.tileLines e.next
    (∀ t bs, s.entry i k [1] = some (p, e) → (begin s).loadLines e p.pad base (fun t l n => t.gather i p.cache (64 * l) n ans) ls =
        (t, .data bs) →
      exec (.streamLoadTile i k ans) s = done
        ((t.bump TILE.STRMCNT.PADDED (ls.filter fun l => l.ok.any (!·)).length i).landTile i k e ls bs)) ∧
    (∀ t bs, s.entry i k [4] = some (p, e) → (begin s).loadLines e p.pad 0 (fun t l n =>
        if bits e.base 59 44 = t.now.devId then (t, t.now.redLines e.base l n) else t.redFetch i e.base l n) ls = (t, .data bs) →
      exec (.streamRread i k) s = done
        ((t.bump TILE.STRMCNT.PADDED (ls.filter fun l => l.ok.any (!·)).length i).landTile i k e ls bs)) ∧
    (∀ t u bs, s.entry i k [2] = some (p, e) → (begin s).storeBytes i e ls = (t, .data bs) → (t.tilesAt i).void e = false →
      t.storeLines i e (e.base + t.now.lanePtr (t.tilesAt i) e) (ls.zip (chunks 64 ls.length bs)) = (u, none) →
      exec (.streamStoreTile i k) s = done ((u.bump TILE.STRMCNT.DROPPED (droppedLines ls) i).tileDone i k e)) ∧
    (∀ t u bs, s.entry i k [3] = some (p, e) → bits e.base 59 44 = s.devId → (begin s).storeBytes i e ls = (t, .data bs) →
      t.contribLines e (ls.zip (chunks 64 ls.length bs)) = (u, .OK) →
      exec (.streamContrib i k) s = done ((u.bump TILE.STRMCNT.DROPPED (droppedLines ls) i).tileDone i k e)) ∧
    (∀ t bs, s.entry i k [5] = some (p, e) → (begin s).gather i p.cache ((e.blocks.getD e.next (0, 0)).2 + s.lanePtr (s.tilesAt i) e)
        (e.blocks.getD e.next (0, 0)).1 ans = (t, .data bs) →
      exec (.streamBload i k ans) s = done (if e.toq then t.feedEntry i k e (bytesWords bs)
        else (t.write (spadBase i + e.blockOff e.next) bs).tileDone i k e)) ∧
    ∀ t n, s.entry i k [6] = some (p, e) → (begin s).blockOut i e ((e.blocks.getD e.next (0, 0)).2 + s.lanePtr (s.tilesAt i) e)
        (e.blocks.getD e.next (0, 0)).1 (e.blocks.getD e.next (0, 0)).1 e.part = (t, .inl n) → (e.blocks.getD e.next (0, 0)).1 ≤ n →
      exec (.streamBstore i k) s = done (t.tileDone i k e)

/-- The key as the cluster of tile `i` fetches it for stream `k` (R107, R117). -/
def Sys2Proof.Claims.keyOf (s : State) (i : Fin 64) (k : KStream) (kid : Nat) (e : DirEntry) (ps : Pset) : KeyRef :=
  { ks := s.ksetsAt k.ksid, ksid := k.ksid, kid := kid, e := e, ps := ps,
    counts := s.firstToGet i k (s.psetCtx (s.ksetsAt k.ksid).pset) k.next }

/-- A limb of a key that the cluster must fetch from memory, and can: no limb of the set is in the key cache, and its lines are in reach
and unpoisoned (R117 to R120). -/
def Sys2Proof.Claims.keyInReach (s : State) (i : Fin 64) (key : KeyRef) (r : KeyRow) (d : Nat) : Prop :=
  let a := key.at_ s (i / 8) r d
  let n := 4 * keyRing key.ps key.kid
  (∀ v ∈ (s.clustersAt (i / 8)).keyCache, v.ksid ≠ key.ksid) ∧ s.rangeStatus (.tile i) a n = .OK ∧ s.poisoned a n = false

/-- The next pair of a KSTREAM (R113, R117 to R119): b-half read from the key's copy, a-half expanded from the set's seed, both carrying
the key's tag, come to the tile, whose two queues take as many words of each as both have room for; the key cache keeps the b-half where
the directory pins the key and quota and space allow. -/
def Sys2Proof.Claims.KeyPairs : Prop :=
  ∀ (i : Fin 64) (s : State) (k : KStream) (r : KeyRow) (e : DirEntry), s.runState i = runRunning → (s.tilesAt i).kstream = some k →
    let x := s.tilesAt i
    let set := s.ksetsAt k.ksid
    let c := s.psetCtx set.pset
    let n := keyRing c.ps k.kid
    let d := k.dlo + k.next % k.digits
    set.bound = true → k.rot = false → k.dest = false → k.split c = false → k.bufB = [] → k.bufA = [] → 8 ≤ n →
    (streamRows c k (i % 8))[k.next / k.perRow c]? = some r → set.find k.kid = some e → s.relayStalls i k c k.next = false →
    k.bq ≠ k.aq → k.bq < x.inq.length → k.aq < x.inq.length → x.transfers = [] → (∀ v ∈ x.rx, v.2.left = 0) →
    keyInReach s i (keyOf s i k k.kid e c.ps) r d → k.next + 1 < k.total c (i % 8) →
    let key := keyOf s i k k.kid e c.ps
    let tag := 1 + k.ksid * 2 ^ 20 + k.kid
    let bw := s.readWords (key.at_ s (i / 8) r d) n
    let b := tagged tag bw
    let a := tagged tag (keyA set.seed c.ps k.kid r d)
    let m := min (min (x.room k.bq) b.length) (min (x.room k.aq) a.length)
    let bq := x.inq.getD k.bq {}
    let aq := x.inq.getD k.aq {}
    let cl := s.clustersAt (i / 8)
    let pinned := e.pin && kidClass k.kid ≠ 2 && cl.keyBytesHeld (some k.ksid) + 4 * n ≤ set.kcQuota * 0x40000 &&
      cl.keyBytesHeld none + 4 * n ≤ cl.kcSize * 2 ^ 20
    ∃ t, exec (.keyLimbDeliver i) s = .next t ∧ t.mem = s.mem ∧
      t.tilesAt i = { x with
        inq := (x.inq.set k.bq { bq with words := bq.words ++ b.take m }).set k.aq { aq with words := aq.words ++ a.take m }
        kstream := some { k with next := k.next + 1, bufB := b.drop m, bufA := a.drop m, fin := false }, progress := true } ∧
      (∀ j, j ≠ i.val → t.tilesAt j = s.tilesAt j) ∧
      t.clustersAt (i / 8) = { cl with keyCache := cl.keyCache ++ if pinned then
        [{ ksid := k.ksid, gen := set.gen, kid := k.kid, k := r.k, d := d, bytes := 4 * n, words := bw }] else [] } ∧
      ∀ j, j ≠ i.val / 8 → t.clustersAt j = s.clustersAt j

/-- The next coordinate of a BLINDROT, not its last (R164, R166): the coordinate's elements come, from memory and from the set's seed, and
every accumulator of the tile takes its step. -/
def Sys2Proof.Claims.RotationSteps : Prop :=
  ∀ (i : Fin 64) (s : State) (k : KStream) (v : InFlight) (g : GzRun) (e1 e2 : DirEntry), s.runState i = runRunning →
    (s.tilesAt i).kstream = some k → k.rot = true → (s.tilesAt i).engines.find? (fun e => e.gz.isSome && e.left ≠ 0) = some v →
    v.gz = some g → 1 < v.left →
    let set := s.ksetsAt k.ksid
    let c := s.psetCtx g.pset
    let l := extLimb c 0 0
    let key := keyOf s i k (2 * 2 ^ 18 + k.next) e2 c.ps
    let rows := (List.range 2).flatMap fun σ => (List.range (2 * c.ps.gauze.glev)).map fun r => (({ q := l.q, w := r } : KeyRow), σ)
    let bw (r : KeyRow × Nat) : List Nat := s.readWords (key.at_ s (i / 8) r.1 r.2) (keyRing c.ps key.kid)
    set.find (2 * 2 ^ 18) = some e2 → set.find (2 ^ 18 + 1) = some e1 →
    s.relayStalls i k (s.psetCtx set.pset) k.next = false →
    (∀ r ∈ rows, keyInReach s i key r.1 r.2 ∧ nonCanonical l.q (bw r) = false) →
    let as := rows.map fun r => keyA set.seed c.ps key.kid r.1 r.2
    let row (sg r : Nat) : List Nat × List Nat :=
      ((rows.map bw).getD (sg * (2 * c.ps.gauze.glev) + r) [], as.getD (sg * (2 * c.ps.gauze.glev) + r) [])
    let g' := { g with
      accs := (g.samples.zip g.accs).map fun a =>
        rotateStep l c.ps.gauze row a.2 (a.1.getD k.next 0 >>> (c.ps.logn - c.ps.gauze.brLogn)) }
    ∃ t, exec (.keyLimbDeliver i) s = .next t ∧ t.mem = s.mem ∧
      t.tilesAt i = { s.tilesAt i with
        kstream := some { k with next := k.next + 1 }, progress := true
        engines := (s.tilesAt i).engines.map fun o => if o.gz.isSome then { o with left := o.left - 1, nc := v.nc, gz := some g' } else o } ∧
      ∀ j, j ≠ i.val → t.tilesAt j = s.tilesAt j

/-- A weight stream whose next block the cluster holds (R132): the block enters the tile's queue, or lands with the stream's SIGNAL, and
the cluster lets it go once the eighth tile has it. Shown for a stream that goes on, and a SIGNAL that is no token. -/
def Sys2Proof.Claims.HeldBlocks : Prop :=
  ∀ (i : Fin 64) (k : Nat) (s : State) (v : WStream) (b : WBlockHeld) (bs : List Byte), s.runState i = runRunning →
    (s.tilesAt i).wstreams[k]? = some v →
    (s.clustersAt (i / 8)).wblocks.find? (fun b => b.head = v.head && b.k = v.next) = some b → b.data = some bs →
    v.next + 1 < v.nr * v.nb →
    let rest := (s.clustersAt (i / 8)).wblocks.filter (· ≠ b)
    let on (x : Tile) : Tile := { x with
      wstreams := x.wstreams.map fun o => if o.head = v.head then { v with next := v.next + 1 } else o, progress := true }
    (v.dest = true → bits v.sig 11 10 ≠ 3 → ∃ t, exec (.weightBlockDeliver i k) s = .next t ∧
      StoresAt s t (spadBase i + v.land + v.next * blockBytes v.wsd.fmt v.wsd.esc) bs ∧
      t.tilesAt i = on (signalled (s.tilesAt i) v.sig) ∧ (∀ j, j ≠ i.val → t.tilesAt j = s.tilesAt j) ∧
      t.clustersAt (i / 8) = { s.clustersAt (i / 8) with
        wblocks := if b.reached = 7 then rest else rest ++ [{ b with reached := b.reached + 1 }] }) ∧
    (v.dest = false → blockBytes v.wsd.fmt v.wsd.esc / 4 ≤ (s.tilesAt i).room v.qn →
      (∀ o ∈ (s.tilesAt i).wstreams, o.head < v.head → o.dest = true ∨ o.qn ≠ v.qn) →
      ∃ t, exec (.weightBlockDeliver i k) s = .next t ∧ t.mem = s.mem ∧
        t.tilesAt i = on ((s.tilesAt i).feed v.qn ((bytesWords bs).map fun w => { w := w })) ∧
        (∀ j, j ≠ i.val → t.tilesAt j = s.tilesAt j) ∧
        t.clustersAt (i / 8) = { s.clustersAt (i / 8) with
          wblocks := if b.reached = 7 then rest else rest ++ [{ b with reached := b.reached + 1 }] })

/-- What a cluster's streams deliver (R113, R117, R132, R164, R210, R319): the next pair of a key stream comes to the tile's two queues;
the next coordinate of a BLINDROT; the next block of a weight stream enters its queue, its bytes with no gap, or its landing area; a
noise limb lands on the tile of its place and its counter goes up by one; the host's answer to a descriptor LOAD is kept for the LOAD's
epoch. -/
def Obligations.ClusterDeliveries : Prop :=
  KeyPairs ∧ RotationSteps ∧ HeldBlocks ∧
  (∀ (i : Fin 64) (k : Nat) (s : State) (v : WStream) (t : Tx s) (bs : List Byte), s.runState i = runRunning →
    (s.tilesAt i).wstreams[k]? = some v → v.dest = true → (begin s).fetchBlock i v v.wsd = (t, .data bs) → v.next + 1 < v.nr * v.nb →
    exec (.weightBlockDeliver i k) s = done (((t.write (spadBase i + v.land + v.next * blockBytes v.wsd.fmt v.wsd.esc) bs).signal i
      v.sig).modTiles i fun x => { x with
        wstreams := x.wstreams.map fun o => if o.head = v.head then { v with next := v.next + 1 } else o, progress := true })) ∧
  (∀ (i : Fin 64) (k : Nat) (s : State) (v : WStream) (t : Tx s) (bs : List Byte), s.runState i = runRunning →
    (s.tilesAt i).wstreams[k]? = some v → v.dest = false → blockBytes v.wsd.fmt v.wsd.esc / 4 ≤ (s.tilesAt i).room v.qn →
    (∀ o ∈ (s.tilesAt i).wstreams, o.head < v.head → o.dest = true ∨ o.qn ≠ v.qn) →
    (begin s).fetchBlock i v v.wsd = (t, .data bs) → v.next + 1 < v.nr * v.nb →
    exec (.weightBlockDeliver i k) s =
      done ((t.modTiles i fun x => x.feed v.qn ((bytesWords bs).map fun w => { w := w })).modTiles i fun x => { x with
        wstreams := x.wstreams.map fun o => if o.head = v.head then { v with next := v.next + 1 } else o, progress := true })) ∧
  (∀ (cl : Fin 8) (s : State) (v : NoiseRun) (rest : List NoiseRun), (s.clustersAt cl).noise = v :: rest →
    (∀ i ∈ clusterTiles cl, (s.tilesAt i).kstream = none) → Memory.wf s.mem = true →
    let c := s.psetCtx v.pset
    let n := c.ps.n
    let j := v.landed
    let i := 8 * cl.val + j % 8
    let a := bits v.desc 63 39 + (v.lane * (tileLimbs c v.level .chain (j % 8)).length + j / 8) * (4 * n)
    a + 4 * n ≤ s.spadEnd i →
    let ws := noiseLimb v.seed (bits v.desc 127 96) (noiseDist v.desc) (noiseParam v.desc) n (c.q.getD j 1)
    ∃ t, exec (.noiseLimbLanded cl) s = .next t ∧ t.readWords (spadBase i + a) ws.length = ws.map (· % 2 ^ 32) ∧
      (∀ b, b < spadBase i + a ∨ spadBase i + a + 4 * ws.length ≤ b → memByte t.mem b = memByte s.mem b) ∧
      t.tilesAt i = addCtr (s.tilesAt i) (bits v.desc 38 35) 1 ∧ (∀ m, m ≠ i → t.tilesAt m = s.tilesAt m) ∧
      (t.clustersAt cl).noise = if v.level ≤ j then rest else { v with landed := j + 1 } :: rest) ∧
  ∀ (cl : Fin 8) (k : Nat) (s : State) (p : Nat × Nat) (l : DescLoad) (bs : List Byte), (s.hostLoads cl)[k]? = some p →
    (s.recordsAt p.1).loads[p.2]? = some l → bs.length = 32 → (s.recordsAt (s.recordsAt p.1).leader).gep < l.gep →
    ∃ t, exec (.descriptorLoadArrive cl k (.data bs)) s = .next t ∧
      t.recordsAt p.1 = { s.recordsAt p.1 with loads := (s.recordsAt p.1).loads.set p.2 { l with got := some (some bs, .OK) } } ∧
      (∀ j, j ≠ p.1 → t.recordsAt j = s.recordsAt j) ∧ { t with records := s.records } = s
/-! ### Register writes (ch. 10, 12, 13, 14, 15, 16, 19, 20, 21, 22) -/

/-- Registers whose write does more than store the word. -/
def Sys2Proof.Claims.effectRegs : List Fld :=
  [TILE.RUNCTL.HALT, TILE.CTXBASE.BASE, ORDER.LQBASE.BASE, QE.FNQ.BASE, TILE.SPAD_SIZE.SIZE, TILE.SPTEST.EN, TILE.DLKCTL.WINDOW,
   TILE.LDGCTL.FORCE_TRAP, TILE.RESCTL.NONCANON_TRAP, TILE.DMKCTL.SAT_TRAP, TILE.PCLCTL.RM, MUSLIN.KCCTL.SIZE, SCACHE.SCCTL.RED, MEMC.REG.WC, MEMC.T1500CTL.OP, MEMC.T1500DATA.DATA,
   MEMC.RPR.SPPR_EN, MEMSYS.PARTMAP.MAP, MEMSYS.HALFCTL.REQ, MEMSYS.LEND.BASE, EPOCH.CTL.LEN, EPOCH.SYNCDLY.DELAY, ORDER.PWTMO.TMO, LINK.CTL.EN,
   ROUTER.CTL.READY, ROUTER.ESET.SEND, ROUTER.BOND.MASK, FN.QCMD.CMD, MBOX.CTL.GO, MBOX.WIDX.INDEX, MBOX.WDATA.DATA,
   SEAL.CMD.CMD, SERGE.SLOTCTL.OP, PWR.REQ.TARGET, PWR.CAP.CAP, PWR.DVFS.TARGET, GLM.EVENT.EV, ERRSYS.CECFG.CETHR,
   ERRSYS.STREQ.TEST, RESET.SWRST.GO, LIFE.CTL.SNAP]

/-- Is the register at an offset of a page plain storage? -/
def Sys2Proof.Claims.plainReg (p : Page) (off : Nat) : Bool :=
  !p.isWindow && p ≠ .HASH && effectRegs.all fun f => f.page ≠ p || f.off ≠ off

/-- REGISTER_WRITE of a plain register of 32 bits (R10, R11): RW fields take the value written, a 1 clears a W1C bit, and no other bit
of the word and nothing else changes. TILE's trap controls read back as written and take effect at a boundary (R49, R72, R150, R195). -/
def Obligations.RegisterWrites : Prop :=
  (∀ (o : RegFrom) (p : Page) (n : Nat) (s : State) (v : Word) (off k : Nat) (r : RegRow), n < p.count → 0x100 ≤ off → off < p.size →
    off % 4 = 0 → findRow p.rows off = some (r, k, 0) → r.words = 1 → r.writable = true → plainReg p r.off = true →
    s.takesWrite o p n = true →
    let a := p.base n + off
    let rw : Word := BitVec.ofNat 32 (accMask (wordRows p n off) .RW)
    let w1c : Word := BitVec.ofNat 32 (accMask (wordRows p n off) .W1C)
    ∃ t, exec (.registerWrite o (BitVec.ofNat 26 a) 4 (v.setWidth 64)) s = .next t ∧ OnlyWords s t [a] ∧
      t.regsAt a = ((s.regsAt a &&& ~~~rw &&& ~~~(w1c &&& v)) ||| (v &&& rw)) &&& definedMask a) ∧
  ∀ (o : RegFrom) (i : Fin 64) (s : State) (v : Word) (f : Fld),
    f ∈ [TILE.LDGCTL.FORCE_TRAP, TILE.RESCTL.NONCANON_TRAP, TILE.DMKCTL.SAT_TRAP, TILE.PCLCTL.RM] → s.takesWrite o .TILE i = true →
    Defers (.registerWrite o (BitVec.ofNat 26 (f.addr i 0)) 4 (v.setWidth 64)) s (f.addr i 0) v

/-- A cluster's shared cache changes, with the register words named, and nothing else. -/
def Sys2Proof.Claims.ClusterBecomes (s t : State) (cl : Nat) (c : Cluster) (ws : List Nat) : Prop :=
  t.clustersAt cl = c ∧ (∀ j, j ≠ cl → t.clustersAt j = s.clustersAt j) ∧
    { t with clusters := s.clusters, regs := s.regs } = s ∧ RegsBut s t ws

/-- Writes that take effect later (R118, R121, R251, R252, R287, R293, R304, R310, R472, R493): the register reads back as written, the value
in effect is unchanged until its boundary, its fill, its patrol period or its group's end. -/
def Obligations.DeferredWrites : Prop :=
  (∀ (o : RegFrom) (m : Fin 28) (p : Fin 8) (v : Word) (s : State), s.takesWrite o .MEMC m = true →
    (bit v.toNat 31 = true ∨ bits v.toNat 24 16 ≠ 0) → Defers (.regulatorWrite o (some (m, p)) v) s (MEMC.REG.WC.addr m p) v) ∧
  (∀ (o : RegFrom) (v : Word) (s : State), s.takesWrite o .MEMSYS 0 = true →
    Defers (.regulatorWrite o none v) s (MEMSYS.PARTMAP.MAP.addr 0 0) (v &&& 0x77777777)) ∧
  (∀ (o : RegFrom) (base : BitVec 10) (size : BitVec 11) (s : State), s.takesWrite o .MEMSYS 0 = true → s.cxl.committed = false →
    base.toNat + size.toNat ≤ s.fld MEMSYS.FARCFG.SIZE → s.fld MEMSYS.FARCFG.HALFOK = 3 → (∀ g ∈ s.regions, g.2.live = false) →
    Defers (.lendWrite o base size) s (MEMSYS.LEND.BASE.addr 0 0) (BitVec.ofNat 32 (2 ^ 31 + size.toNat <<< 20 + base.toNat))) ∧
  (∀ (o : RegFrom) (len : BitVec 17) (role : BitVec 2) (det : Bool) (s : State), s.takesWrite o .EPOCH 0 = true →
    1024 ≤ len.toNat → len.toNat ≤ 65536 → role ≠ 3 → s.dispatchedOn 0xFF = false →
    Defers (.epochCtlWrite o len role det) s (EPOCH.CTL.LEN.addr 0 0)
      (BitVec.ofNat 32 (bnat det <<< 31 + role.toNat <<< 29 + len.toNat))) ∧
  (∀ (o : RegFrom) (v : Word) (s : State), s.takesWrite o .EPOCH 0 = true →
    Defers (.registerWrite o (BitVec.ofNat 26 (EPOCH.SYNCDLY.DELAY.addr 0 0)) 4 (v.setWidth 64)) s (EPOCH.SYNCDLY.DELAY.addr 0 0)
      (BitVec.ofNat 32 (bits v.toNat 15 0))) ∧
  (∀ (o : RegFrom) (cethr : BitVec 8) (patrol : BitVec 16) (s : State), s.takesWrite o .ERRSYS 0 = true → cethr ≠ 0 → patrol ≠ 0 →
    Defers (.cecfgWrite o cethr patrol) s (ERRSYS.CECFG.CETHR.addr 0 0) (BitVec.ofNat 32 (cethr.toNat <<< 16 + patrol.toNat))) ∧
  (∀ (o : RegFrom) (cap brake : BitVec 16) (s : State), s.takesWrite o .PWR 0 = true → 400 ≤ cap.toNat → cap.toNat ≤ 1900 →
    400 ≤ brake.toNat → brake.toNat ≤ 1900 →
    Defers (.capWrite o cap brake) s (PWR.CAP.CAP.addr 0 0) (BitVec.ofNat 32 (brake.toNat <<< 16 + cap.toNat))) ∧
  (∀ (o : RegFrom) (cl : Fin 8) (s : State), s.takesWrite o .MUSLIN cl = true → ∃ t, exec (.kcFlush o cl) s = .next t ∧
    ClusterBecomes s t cl { s.clustersAt cl with kcFlush := true } []) ∧
  (∀ (o : RegFrom) (cl : Fin 8) (v : BitVec 4) (s : State), s.takesWrite o .MUSLIN cl = true →
    ∃ t, exec (.kcSizeWrite o cl v) s = .next t ∧ t.fld MUSLIN.KCCTL.SIZE cl = min v.toNat 12 ∧
      ClusterBecomes s t cl { s.clustersAt cl with kcSizeReq := some (min v.toNat 12) } [MUSLIN.KCCTL.SIZE.at_ cl]) ∧
  (∀ (o : RegFrom) (cl : Fin 8) (s : State), s.takesWrite o .SCACHE cl = true → ∃ t, exec (.scInv o cl) s = .next t ∧
    ClusterBecomes s t cl { s.clustersAt cl with scInv := true } []) ∧
  ∀ (o : RegFrom) (cl : Fin 8) (v : BitVec 4) (s : State), s.takesWrite o .SCACHE cl = true →
    ∃ t, exec (.scRedWrite o cl v) s = .next t ∧ t.fld SCACHE.SCCTL.RED cl = min v.toNat 8 ∧
      ClusterBecomes s t cl { s.clustersAt cl with redReq := some (min v.toNat 8) } [SCACHE.SCCTL.RED.at_ cl]

/-- Writes that take effect at once (R245, R246, R300, R302, R344, R358, R360, R370, R373, R374, R376, R453, R468): the usable size and
the background test of a scratchpad, a range that goes OFFLINE with its controllers in MAINT, the IEEE 1500 wrapper, the late-error
log's base, the router's control, routing and windows, bond groups, the host port's maps, an operating point, and a Gloaming event. -/
def Obligations.ControlWrites : Prop :=
  (∀ (o : RegFrom) (i : Fin 64) (v : BitVec 7) (s : State), s.takesWrite o .TILE i = true → s.runState i = runIdle →
    s.flag TILE.SPTEST.EN i = false → s.spadDeclared i ≤ v.toNat * 0x80000 → v.toNat ≤ s.fld TILE.SPAD_SIZE.MAX i → 8 ≤ v.toNat →
    Sets (.spadSizeWrite o i v) s TILE.SPAD_SIZE.SIZE i 0 v.toNat) ∧
  (∀ (o : RegFrom) (i : Fin 64) (period : BitVec 16) (en : Bool) (s : State), s.takesWrite o .TILE i = true →
    (en = true → s.fld TILE.SPAD_SIZE.SIZE i ≠ 64) → ∃ t, exec (.sptestWrite o i period en) s = .next t ∧
      t.fld TILE.SPTEST.PERIOD i = period.toNat ∧ t.fld TILE.SPTEST.EN i = bnat en ∧
      t.fld TILE.SPTSTAT.STATE i = (if s.fld TILE.SPTSTAT.STATE i = 2 then 2 else bnat en) ∧
      OnlyWords s t [TILE.SPTEST.EN.at_ i, TILE.SPTSTAT.STATE.at_ i]) ∧
  (∀ (o : RegFrom) (b : Fin 4) (s : State), s.takesWrite o .MEMSYS 0 = true → bit (s.fld MEMSYS.HALFCTL.OFFLINE) b = false →
    s.mayOffline b = true →
    (∀ c, c < 4 → bit (s.fld MEMSYS.HALFCTL.OFFLINE) c = true → ∀ m ∈ halfControllers c, s.fld MEMC.STAT.STATE m = 4) →
    exec (.halfctlWrite o (BitVec.ofNat 4 (s.fld MEMSYS.HALFCTL.OFFLINE + 2 ^ b.val))) s =
      done (((begin s).setFld MEMSYS.HALFCTL.REQ (s.fld MEMSYS.HALFCTL.OFFLINE + 2 ^ b.val)).forEach (halfControllers b)
        (fun t m => t.toMaint m) |>.setFld MEMSYS.HALFCTL.OFFLINE (s.fld MEMSYS.HALFCTL.OFFLINE + 2 ^ b.val))) ∧
  (∀ (m : Nat) (s : State) (t : Tx s), m < 28 → (t.now.memctlAt m).waiting = [] →
    (t.toMaint m).now.fld MEMC.STAT.STATE m = 4 ∧ (∀ j, (t.toMaint m).now.memctlAt j = t.now.memctlAt j) ∧
    { (t.toMaint m).now with regs := t.now.regs, memctl := t.now.memctl } = t.now ∧
    RegsBut t.now (t.toMaint m).now [MEMC.STAT.STATE.at_ m]) ∧
  (∀ (o : RegFrom) (m : Fin 12) (len : BitVec 16) (c : Instr) (op : Nat) (s : State), s.takesWrite o .MEMC m = true →
    o.world = .secure → s.fld MEMC.STAT.STATE m = 4 → len ≠ 0 →
    (c, op) ∈ [(Instr.t1500ShiftIr o m len, 1), (Instr.t1500ShiftDr o m len, 2)] → ∃ t, exec c s = .next t ∧
      t.fld MEMC.T1500CTL.LEN m = len.toNat ∧ t.fld MEMC.T1500CTL.BUSY m = 1 ∧
      t.memctlAt m = { s.memctlAt m with shiftOp := op, shiftLeft := len.toNat, shiftIn := [] } ∧
      (∀ j, j ≠ m.val → t.memctlAt j = s.memctlAt j) ∧ { t with regs := s.regs, memctl := s.memctl } = s ∧
      RegsBut s t [MEMC.T1500CTL.LEN.at_ m]) ∧
  (∀ (o : RegFrom) (m : Fin 12) (v back : BitVec 32) (s : State), s.takesWrite o .MEMC m = true → o.world = .secure →
    32 < (s.memctlAt m).shiftLeft →
    ∃ t, exec (.t1500dataWrite o m v back) s = .next t ∧ t.fld MEMC.T1500DATA.DATA m = back.toNat ∧
      t.memctlAt m = { s.memctlAt m with shiftLeft := (s.memctlAt m).shiftLeft - 32, shiftIn := (s.memctlAt m).shiftIn ++ [v.toNat] } ∧
      (∀ j, j ≠ m.val → t.memctlAt j = s.memctlAt j) ∧ { t with regs := s.regs, memctl := s.memctl } = s ∧
      RegsBut s t [MEMC.T1500DATA.DATA.at_ m]) ∧
  (∀ (o : RegFrom) (v : BitVec 27) (s : State), s.takesWrite o .ORDER 0 = true → s.fld ORDER.LQPROD.PROD = s.fld ORDER.LQCONS.CONS →
    ∃ t, exec (.lqbaseWrite o v) s = .next t ∧ t.fld ORDER.LQBASE.BASE = v.toNat ∧
      OnlyWords s t [ORDER.LQBASE.BASE.at_, ORDER.LQBASE.BASE.at_ + 4]) ∧
  (∀ (o : RegFrom) (dev : BitVec 16) (ttl : BitVec 6) (ready : Bool) (s : State), s.takesWrite o .ROUTER 0 = true →
    (ready = true → s.ready = true) → (s.flag ROUTER.CTL.READY = true → ready = true) → (begin s).routerHeld o = false →
    ∃ t, exec (.routerCtlWrite o dev ttl ready) s = .next t ∧
      t.devId = (if s.flag ROUTER.CTL.READY then s.devId else dev.toNat) ∧ t.fld ROUTER.CTL.TTL = ttl.toNat ∧
      t.flag ROUTER.CTL.READY = ready ∧ OnlyWords s t [ROUTER.CTL.READY.at_]) ∧
  (∀ (o : RegFrom) (dev : BitVec 16) (v : Word) (s : State), s.takesWrite o .ROUTE 0 = true → (begin s).routerHeld o = false →
    routeNames v.toNat = true → WritesWords (.routeEntryWrite o dev v) s ((Page.ROUTE).base 0 + 4 * dev.toNat) 1 v.toNat) ∧
  (∀ (o : RegFrom) (dev : BitVec 16) (v : Word) (s : State), s.takesWrite o .ROUTE 0 = true → (begin s).routerHeld o = false →
    routeNames v.toNat = false → RefusedWith (.routeEntryWrite o dev v) s .ROUTER 0 .RANGE) ∧
  (∀ (o : RegFrom) (n : BitVec 8) (v : BitVec 128) (s : State), s.takesWrite o .PWIN 0 = true →
    (bit v.toNat 127 = false ∨ ((o.world = .secure ∨ (bit v.toNat 126 = false ∧ bit (s.pwin n.toNat) 126 = false)) ∧
      bits v.toNat 47 20 ≠ 0 ∧ s.windowPlaced (bits v.toNat 79 48 * 4096) (bits v.toNat 47 20 * 4096) = true)) →
    WritesWords (.pwinWrite o n v) s ((Page.PWIN).base 0 + 16 * n.toNat) 4 v.toNat) ∧
  (∀ (o : RegFrom) (g : Fin 12) (mask : BitVec 24) (s : State), s.takesWrite o .ROUTER 0 = true → (begin s).routerHeld o = false →
    (∀ k, k < 12 → k ≠ g.val → s.fld ROUTER.BOND.MASK 0 k &&& mask.toNat = 0) →
    (∀ l, l < 24 → bit mask.toNat l = true → s.carries l = false) →
    ∃ t, exec (.bondWrite o g mask) s = .next t ∧ t.fld ROUTER.BOND.MASK 0 g = mask.toNat ∧
      (∀ l, t.linksAt l = { s.linksAt l with holding := (s.linksAt l).holding || (l < 24 && bit mask.toNat l) }) ∧
      { t with regs := s.regs, links := s.links } = s ∧ RegsBut s t [ROUTER.BOND.MASK.at_ 0 g]) ∧
  (∀ (o : RegFrom) (f : Fin 64) (base : BitVec 18) (count : BitVec 19) (s : State), s.takesWrite o .QE 0 = true →
    base.toNat + count.toNat ≤ 2 ^ 18 → (f = 0 ∨ count.toNat ≤ 4096) → (∀ g, g < 64 → g ≠ f.val →
      rangesMeet base.toNat count.toNat (s.fld QE.FNQ.BASE 0 g) (s.fld QE.FNQ.COUNT 0 g) = false) → (∀ q ∈ s.queues, q.2.state = 0) →
    ∃ t, exec (.fnqWrite o f base count) s = .next t ∧ t.fld QE.FNQ.BASE 0 f = base.toNat ∧ t.fld QE.FNQ.COUNT 0 f = count.toNat ∧
      OnlyWords s t [QE.FNQ.BASE.at_ 0 f, QE.FNQ.COUNT.at_ 0 f]) ∧
  (∀ (o : RegFrom) (f seg : Fin 64) (v : BitVec 128) (s : State), s.takesWrite o .BAR4MAP 0 = true → s.segCheck f v.toNat = .OK →
    WritesWords (.bar4mapWrite o f seg v) s ((Page.BAR4MAP).base 0 + 16 * (64 * f.val + seg.val)) 4 v.toNat) ∧
  (∀ (o : RegFrom) (k : Fin 256) (v : BitVec 128) (s : State), s.takesWrite o .HWMAP 0 = true →
    WritesWords (.hwmapWrite o k v) s ((Page.HWMAP).base 0 + 16 * k.val) 4 v.toNat) ∧
  (∀ (o : RegFrom) (i : Fin 64) (target : BitVec 3) (s : State), s.takesWrite o .PWR 0 = true → target.toNat ≤ 5 →
    (begin s).det = false → s.flag (HDR.OWNER.HOLD .TILE) i = false →
    ∃ t, exec (.dvfsRequest o i target) s = .next t ∧ t.fld PWR.DVFS.TARGET 0 i = target.toNat ∧
      t.power = { s.power with points := s.power.points.set i (if s.fld PWR.CAPCTL.SKIP = 0 then target.toNat
        else min (s.power.points.getD i 4) target.toNat) } ∧
      { t with regs := s.regs, power := s.power } = s ∧ RegsBut s t [PWR.DVFS.TARGET.at_ 0 i]) ∧
  ∀ (o : RegFrom) (s : State), s.takesWrite o .GLM 0 = true → s.glm.events.contains 4 = false →
    ∃ t, exec (.glmEventWrite o true) s = .next t ∧ t.glm = { s.glm with events := s.glm.events ++ [4] } ∧ { t with glm := s.glm } = s

/-- What a page's common header does (R499, R501): EN and TEST change where nothing stands against it, BLK_STAT.STATE following;
SRST of a tile that does no work clears the tile but for its used spares and a redirected unit that is out of them (R249), and keeps what R502 names; a 1 written to IRQ_SET sets its
IRQ_STAT bit. -/
def Obligations.BlockControl : Prop :=
  (∀ (o : RegFrom) (page : BitVec 14) (p : Page) (n : Nat) (en : Bool) (s : State), p.hasBlkCtrl = true → n < p.count →
    p.base n = 4096 * page.toNat → s.takesWrite o p n = true → s.flag (HDR.OWNER.HOLD p) n = false →
    s.fld (HDR.BLK_CTRL.SRST p) n = 0 → s.flag (HDR.BLK_CTRL.EN p) n ≠ en →
    s.graphsOn (2 ^ pageCluster p n) = false → s.placedOn (2 ^ pageCluster p n) = false →
    ∃ t, exec (.blkEnWrite o page en) s = .next t ∧ t.flag (HDR.BLK_CTRL.EN p) n = en ∧
      t.flag (HDR.BLK_CTRL.TEST p) n = s.flag (HDR.BLK_CTRL.TEST p) n ∧
      t.fld (HDR.BLK_STAT.STATE p) n = (if en then 1 else if s.flag (HDR.BLK_CTRL.TEST p) n then 3 else 2) ∧
      OnlyWords s t [p.base n + 0x0C, p.base n + 0x10]) ∧
  (∀ (o : RegFrom) (page : BitVec 14) (p : Page) (n : Nat) (s : State), p.hasBlkCtrl = true → n < p.count →
    p.base n = 4096 * page.toNat → s.takesWrite o p n = true → s.flag (HDR.OWNER.HOLD p) n = false →
    s.fld (HDR.BLK_CTRL.SRST p) n = 0 → s.flag (HDR.BLK_CTRL.EN p) n = false → s.flag (HDR.BLK_CTRL.TEST p) n = false →
    s.flag QE.MODE.SERVICE = false → s.anyDomain = false →
    ∃ t, exec (.blkTestWrite o page true) s = .next t ∧ t.flag (HDR.BLK_CTRL.TEST p) n = true ∧
      t.flag (HDR.BLK_CTRL.EN p) n = false ∧ t.fld (HDR.BLK_STAT.STATE p) n = 3 ∧
      OnlyWords s t [p.base n + 0x0C, p.base n + 0x10]) ∧
  (∀ (o : RegFrom) (page : BitVec 14) (i : Fin 64) (s : State), (Page.TILE).base i = 4096 * page.toNat →
    s.takesWrite o .TILE i = true → s.flag (HDR.OWNER.HOLD .TILE) i = false →
    (s.runState i = runIdle ∨ s.runState i = runSaved ∨ s.runState i = runStopped ∨ s.runState i = runHalted) →
    exec (.srst o page) s = done ((begin s).softReset i)) ∧
  (∀ (i : Fin 64) (s : State), ((begin s).softReset i).tilesAt i =
      { ({} : Tile) with spares := (s.tilesAt i).spares, pinned := (s.tilesAt i).pinned } ∧
    ∀ j, j ≠ i.val → ((begin s).softReset i).tilesAt j = s.tilesAt j) ∧
  ∀ (o : RegFrom) (page : BitVec 14) (v : Word) (p : Page) (n : Nat) (s : State), p.isWindow = false → n < p.count →
    p.base n = 4096 * page.toNat → s.takesWrite o p n = true →
    ∃ t, exec (.irqSetWrite o page v) s = .next t ∧ t.fld (HDR.IRQ_STAT p) n = s.fld (HDR.IRQ_STAT p) n ||| v.toNat ∧ Quiet s t

/-! ### Queues (ch. 16) -/

/-- The host reaches the module: no trip, no fatal state, no SLUMBER, and the module is ready (R457, R464, R484, R518). -/
def Sys2Proof.Claims.hostOpen (s : State) : Bool := !s.tripped && !s.fatal && !s.slumber && s.ready

/-- A queue becomes `x`, with the register words named, and nothing else changes. -/
def Sys2Proof.Claims.QueueBecomes (s t : State) (q : Nat) (x : Queue) (ws : List Nat) : Prop :=
  t.queuesAt q = x ∧ (∀ j, j ≠ q → t.queuesAt j = s.queuesAt j) ∧ { t with queues := s.queues, regs := s.regs } = s ∧ RegsBut s t ws

/-- A record becomes `x`, and no other record changes. -/
def Sys2Proof.Claims.RecordBecomes (s t : State) (r : Nat) (x : RunRec) : Prop :=
  t.recordsAt r = x ∧ ∀ j, j ≠ r → t.recordsAt j = s.recordsAt j

/-- Doorbells (R23, R382, R391, R518): a tail within a ring of the head counts at once on an ACTIVE queue, and is latched on one that is
SUSPENDED, HELD or DRAINING; a completion head frees slots in every state but DISABLED; one that names no queue is discarded and
counted; before the module is ready the doorbell latch holds the last of each. -/
def Sys2Proof.Claims.Doorbells : Prop :=
  (∀ (f : Fin 64) (slot : BitVec 18) (v : BitVec 16) (s : State) (q : Nat), hostOpen s = true → s.bellQ f slot.toNat = some q →
    (s.queuesAt q).state ≠ 0 → (v.toNat + 0x10000 - (s.queuesAt q).head % 0x10000) % 0x10000 ≤ (s.queuesAt q).slots →
    ∃ t, exec (.doorbellSqtail f slot v) s = .next t ∧ QueueBecomes s t q
      (if (s.queuesAt q).state = 1 then { s.queuesAt q with tail := v.toNat } else { s.queuesAt q with latched := some v.toNat }) []) ∧
  (∀ (f : Fin 64) (slot : BitVec 18) (v : BitVec 16) (s : State) (q : Nat), hostOpen s = true → s.bellQ f slot.toNat = some q →
    (s.queuesAt q).state ≠ 0 →
    let n := (v.toNat + 0x10000 - (s.queuesAt q).consumed % 0x10000) % 0x10000
    n ≤ (s.queuesAt q).cqes - (s.queuesAt q).consumed →
    ∃ t, exec (.doorbellCqhead f slot v) s = .next t ∧
      QueueBecomes s t q { s.queuesAt q with consumed := (s.queuesAt q).consumed + n } []) ∧
  (∀ (f : Fin 64) (slot : BitVec 18) (v : BitVec 16) (s : State) (c : Instr), hostOpen s = true → s.bellQ f slot.toNat = none →
    c ∈ [.doorbellSqtail f slot v, .doorbellCqhead f slot v] → Sets c s FN.ERRCNT.DBDROP f 0 (min (s.fld FN.ERRCNT.DBDROP f + 1) 0xFFFF)) ∧
  ∀ (f : Fin 64) (slot : BitVec 18) (v : BitVec 16) (s : State) (c : Instr) (l : Option Nat × Option Nat), s.tripped = false →
    s.fatal = false → s.slumber = false → s.ready = false →
    (c, l) ∈ [(Instr.doorbellSqtail f slot v, (some v.toNat, (s.doorbellsAt (2 ^ 18 * f.val + slot.toNat)).2)),
      (Instr.doorbellCqhead f slot v, ((s.doorbellsAt (2 ^ 18 * f.val + slot.toNat)).1, some v.toNat))] →
    ∃ t, exec c s = .next t ∧ t.doorbellsAt (2 ^ 18 * f.val + slot.toNat) = l ∧
      (∀ j, j ≠ 2 ^ 18 * f.val + slot.toNat → t.doorbellsAt j = s.doorbellsAt j) ∧ { t with doorbells := s.doorbells } = s

/-- Work records and completion entries (R378, R383 to R387): the QE reads the head record from host memory; the rotation's queue has
its head record admitted, counted and given its place; a finished record's CQE goes to the next slot of the completion ring, and an error
holds its queue unless its CONTINUE flag is 1; the timer of the unsignalled CQEs sends the queue's vector. -/
def Obligations.RecordsAndCompletions : Prop :=
  (∀ (q : BitVec 18) (bs : List Byte) (s : State) (x : Queue), x = s.queuesAt q.toNat → x.state = 1 → x.head ≠ x.tail →
    (s.pcieAt ((s.fnOf q.toNat).getD 0)).flr = false → x.ringLocal 192 = false → x.wr = [] → s.slotFree q.toNat = true →
    bs.length = 64 → ∃ t, exec (.workRecordFetch q (.data bs)) s = .next t ∧ t.queuesAt q.toNat = { x with wr := bs } ∧
      (∀ j, j ≠ q.toNat → t.queuesAt j = s.queuesAt j) ∧ t.out = s.out ++ [.hostRead ((s.fnOf q.toNat).getD 0) x.headAt 64] ∧
      { t with queues := s.queues, out := s.out } = s) ∧
  (∀ (ans : HostAnswer) (s : State) (q : Nat) (e : QueueEngine) (b : List Byte), hostOpen s = true → s.power.trans.any (·.1 = 3) = false →
    s.flag STRAP.VAL.RECOVERY = false → s.rotate = some (q, e) → s.headRecord (s.queuesAt q) = some (b, .OK) →
    (s.isControl q = true ∨ s.recordCheck b (s.isControl q) ≠ .OK) →
    ∃ t, exec (.recordAdmit ans) s = .next t ∧ t.qe = { e with nextRec := e.nextRec + 1 } ∧
      t.queuesAt q = { s.queuesAt q with head := ((s.queuesAt q).head + 1) % 0x10000, wr := [] } ∧
      (∀ j, j ≠ q → t.queuesAt j = s.queuesAt j) ∧
      (t.recordsAt e.nextRec).qid = q ∧ (t.recordsAt e.nextRec).ridx = (s.queuesAt q).head ∧
      (t.recordsAt e.nextRec).opcode = wrOpcode b ∧ (t.recordsAt e.nextRec).sid = wrSid b ∧
      (t.recordsAt e.nextRec).stage = (if s.recordCheck b (s.isControl q) = .OK then .admitted else .finished) ∧
      (t.recordsAt e.nextRec).result = (if s.recordCheck b (s.isControl q) = .OK then none
        else some (s.recordCheck b (s.isControl q), 0)) ∧
      (∀ j, j ≠ e.nextRec → t.recordsAt j = s.recordsAt j) ∧
      t.fld QE.ADMCNT.ADMIT = min (s.fld QE.ADMCNT.ADMIT + 1) (2 ^ QE.ADMCNT.ADMIT.width - 1) ∧
      { t with qe := s.qe, queues := s.queues, records := s.records, regs := s.regs } = s ∧ RegsBut s t [QE.ADMCNT.ADMIT.at_]) ∧
  (∀ (r : Nat) (s : State) (k : RunRec) (x : Queue), k = s.recordsAt r → x = s.queuesAt k.qid → k.stage = .finished →
    (k.outcome.1 = .EXPIRED → k.token = false) → x.ringLocal 128 = false → bit x.ctx 96 = false →
    ∃ t, exec (.cqeWrite r) s = .next t ∧ RecordBecomes s t r {} ∧
      t.queuesAt k.qid = { x with
        cqes := x.cqes + 1, state := if k.outcome.1.isError ∧ bit k.flags 0 = false ∧ (x.state = 1 ∨ x.state = 4) then 2 else x.state } ∧
      (∀ j, j ≠ k.qid → t.queuesAt j = s.queuesAt j) ∧
      t.out = s.out ++ [.hostWrite k.fn (x.ring 128 + 16 * (x.cqes % x.slots))
        (cqeBytes k.tag k.outcome.2 k.ridx x.head k.qid k.lane (1 - x.cqes / x.slots % 2) k.outcome.1.code) false] ∧
      { t with records := s.records, queues := s.queues, out := s.out, life := s.life } = s) ∧
  ∀ (q : BitVec 18) (s : State) (f c p : Nat), (s.queuesAt q.toNat).timer = some 0 → s.fnOf q.toNat = some f →
    msixAt f (s.queuesAt q.toNat).vector = some (c, p) → (s.pcieAt f).msixOn = true → (s.pcieAt f).msixMask = false →
    bit (s.regsAt c).toNat 0 = false → ∃ t, exec (.interruptTimer q) s = .next t ∧
      t.queuesAt q.toNat = { s.queuesAt q.toNat with unsig := 0, timer := none } ∧
      (∀ j, j ≠ q.toNat → t.queuesAt j = s.queuesAt j) ∧ t.out = s.out ++ [.msix f (s.queuesAt q.toNat).vector] ∧
      { t with queues := s.queues, out := s.out } = s

/-- What a queue command leaves of a queue, where the queue's state allows it (R390 to R392). -/
def Sys2Proof.Claims.queueStep (o : RegFrom) (f : Fin 64) (s : State) (q : Nat) (x : Queue) : List (Instr × Bool × Queue) :=
  [(.enable o f, x.state = 0,
      { x with state := 1, head := 0, tail := 0, latched := none, cqes := 0, consumed := 0, unsig := 0, timer := none, wr := [] }),
   (.suspend o f, x.state = 1, { x with state := 4 }),
   (.queueResume o f, x.state = 4, { x with state := 1, tail := x.latched.getD x.tail, latched := none }),
   (.release o f, x.state = 2, { x with state := 1, tail := x.latched.getD x.tail, latched := none }),
   (.drain o f, x.state = 1 || x.state = 2 || x.state = 4, { x with state := 3 }),
   (.disable o f, 2 ≤ x.state && s.reserved q = 0 && s.outstanding q = 0,
      { x with state := 0, latched := none, late := [], sid := none, tokens := 0 }),
   (.writeCtx o f, x.state = 0, { x with ctx := s.regSpan (FN.QCTX.WORD.addr f 0) 8 })]

/-- Queue commands (R390 to R392, R402): each moves the queue that FN.QSEL selects from the states that allow it and reports OK; in any
other state it changes nothing and reports STATE, and an ACTIVE queue is HELD; RELEASE_ABORT completes what was admitted and not
dispatched ABORTED; READ_CTX copies the context out. -/
def Sys2Proof.Claims.QueueCommands : Prop :=
  (∀ (o : RegFrom) (f : Fin 64) (s : State) (q : Nat) (c : Instr) (y : Queue), s.takesWrite o .FN f = true →
    s.flag FN.QCMDSTAT.BUSY f = false → s.localQ f (s.fld FN.QSEL.INDEX f) = some q →
    (c, true, y) ∈ queueStep o f s q (s.queuesAt q) →
    ∃ t, exec c s = .next t ∧ t.fld FN.QCMDSTAT.STATUS f = Status.OK.code ∧ QueueBecomes s t q y [FN.QCMDSTAT.STATUS.at_ f]) ∧
  (∀ (o : RegFrom) (f : Fin 64) (s : State) (q : Nat) (c : Instr) (ok : List Nat), s.takesWrite o .FN f = true →
    s.flag FN.QCMDSTAT.BUSY f = false → s.localQ f (s.fld FN.QSEL.INDEX f) = some q →
    (c, ok) ∈ [(.enable o f, [0]), (.suspend o f, [1]), (.queueResume o f, [4]), (.release o f, [2]), (.releaseAbort o f, [2]),
      (.drain o f, [1, 2, 4]), (.disable o f, [2, 3, 4])] → (s.queuesAt q).state < 5 → (s.queuesAt q).state ∉ ok →
    ∃ t, exec c s = .next t ∧ t.fld FN.QCMDSTAT.STATUS f = Status.STATE.code ∧
      QueueBecomes s t q { s.queuesAt q with state := if (s.queuesAt q).state = 1 then 2 else (s.queuesAt q).state }
        [FN.QCMDSTAT.STATUS.at_ f]) ∧
  (∀ (o : RegFrom) (f : Fin 64) (s : State) (q r : Nat), s.takesWrite o .FN f = true → s.flag FN.QCMDSTAT.BUSY f = false →
    s.localQ f (s.fld FN.QSEL.INDEX f) = some q → (s.queuesAt q).state = 2 →
    (s.records.filter fun k => k.2.stage = .admitted && k.2.qid = q).map (·.1) = [r] →
    ∃ t, exec (.releaseAbort o f) s = .next t ∧ t.fld FN.QCMDSTAT.STATUS f = Status.OK.code ∧
      RecordBecomes s t r { s.recordsAt r with
        stage := .finished, result := some (.ABORTED, 0), flags := (s.recordsAt r).flags ||| 1 } ∧
      t.queuesAt q = (s.queuesAt q).activate ∧ (∀ j, j ≠ q → t.queuesAt j = s.queuesAt j) ∧
      { t with queues := s.queues, records := s.records, regs := s.regs } = s ∧ RegsBut s t [FN.QCMDSTAT.STATUS.at_ f]) ∧
  ∀ (o : RegFrom) (f : Fin 64) (s : State) (q : Nat), s.takesWrite o .FN f = true → s.flag FN.QCMDSTAT.BUSY f = false →
    s.localQ f (s.fld FN.QSEL.INDEX f) = some q → (s.queuesAt q).ctx < 2 ^ 256 →
    ∃ t, exec (.readCtx o f) s = .next t ∧ t.fld FN.QCMDSTAT.STATUS f = Status.OK.code ∧
      t.regSpan (FN.QCTX.WORD.addr f 0) 8 = (s.queuesAt q).ctx ∧
      OnlyWords s t (FN.QCMDSTAT.STATUS.at_ f :: (List.range 8).map (FN.QCTX.WORD.addr f 0 + 4 * ·))
/-! ### Sessions (ch. 16) -/

/-- A control record is the one to run: admitted, the oldest of its function's control queue, and of the session's function (R395). -/
def Sys2Proof.Claims.runsControl (s : State) (r op : Nat) : Bool :=
  let x := s.recordsAt r
  x.stage = .admitted && x.opcode = op && s.isControl x.qid &&
    !(s.records.any fun k => k.1 < r && k.2.stage = .admitted && k.2.qid = x.qid) &&
    ((s.sessionsAt x.sid).state = 0 || (s.sessionsAt x.sid).fn = x.fn)

/-- The record has its outcome. -/
def Sys2Proof.Claims.Finishes (s t : State) (r : Nat) (st : Status) : Prop :=
  RecordBecomes s t r { s.recordsAt r with stage := .finished, result := some (st, 0) }

/-- Control records of a session (R395 to R400), each completing OK: a nonce of 32 fresh bytes at OUT, with zeros after them, kept as
outstanding; an opened session with the request's limits, quotas and expiry, bound to its key set, whose GEN rises; a queue bound to its
session, and unbound; a close that waits until the session is drained; a query's reply at OUT. -/
def Sys2Proof.Claims.SessionControl : Prop :=
  (∀ (r : Nat) (s : State) (x : RunRec), x = s.recordsAt r → runsControl s r 0x80 = true → isHostWin x.outPtr = false →
    s.writeStatus .fw x.outPtr 64 = .OK → (s.qe.nonces.filter fun n => n.1 = x.fn).length < 16 →
    (∀ n ∈ s.qe.nonces, s.nonceLive n = true) → ∃ (t : State) (n : List Byte), exec (.sessionNonce r) s = .next t ∧
      n = natLe 32 (Config.draw s.fresh % 2 ^ 256) ∧ StoresAt s t x.outPtr (n ++ List.replicate 32 0) ∧
      t.qe = { s.qe with nonces := s.qe.nonces ++ [(x.fn, n, s.epochCount)] } ∧ t.fresh = s.fresh + 1 ∧ Finishes s t r .OK) ∧
  (∀ (r : Nat) (ans : HostAnswer) (s : State) (x : RunRec) (q : List Byte), x = s.recordsAt r → runsControl s r 0x81 = true →
    isHostWin x.inPtr = false → s.readRange .fw x.inPtr 256 = (q, .OK) → s.openCheck x q = (.OK, true) →
    let le (a n : Nat) : Nat := leNat (part q a (a + n))
    ∃ t, exec (.sessionOpen r ans) s = .next t ∧ (t.sessionsAt x.sid).state = 1 ∧ (t.sessionsAt x.sid).fn = x.fn ∧
      (t.sessionsAt x.sid).ksid = le 2 2 ∧ (t.sessionsAt x.sid).maxflight = le 0x20 2 ∧
      (t.sessionsAt x.sid).isSealed = bit (le 4 4) 0 ∧ (t.sessionsAt x.sid).expires = le 8 8 ∧
      (t.sessionsAt x.sid).qrec = (if le 0x10 8 = 0 then none else some (le 0x10 8)) ∧
      (t.sessionsAt x.sid).qepoch = (if le 0x18 8 = 0 then none else some (le 0x18 8)) ∧
      (∀ j, j ≠ x.sid → t.sessionsAt j = s.sessionsAt j) ∧
      t.ksetsAt (le 2 2) = { s.ksetsAt (le 2 2) with
        state := 2, sid := x.sid, gen := ((s.ksetsAt (le 2 2)).gen + 1) % 2 ^ 32 } ∧
      (∀ j, j ≠ le 2 2 → t.ksetsAt j = s.ksetsAt j) ∧
      t.qe = { s.qe with nonces := s.qe.nonces.filter fun n => n.1 ≠ x.fn || n.2.1 ≠ part q 0x30 0x50 } ∧ Finishes s t r .OK ∧
      { t with qe := s.qe, sessions := s.sessions, ksets := s.ksets, records := s.records } = s) ∧
  (∀ (r : Nat) (s : State) (x : RunRec) (q : Nat), x = s.recordsAt r → runsControl s r 0x82 = true →
    s.localQ x.fn (bits x.arg 17 0) = some q → (s.sessionsAt x.sid).state = 1 → bits x.arg 17 0 ≠ 0 → (s.queuesAt q).sid = none →
    (s.boundTo x.sid).length < 4096 → ∃ t, exec (.sessionBind r) s = .next t ∧
      t.queuesAt q = { s.queuesAt q with sid := some x.sid } ∧ (∀ j, j ≠ q → t.queuesAt j = s.queuesAt j) ∧ Finishes s t r .OK ∧
      { t with queues := s.queues, records := s.records } = s) ∧
  (∀ (r : Nat) (s : State) (x : RunRec) (q : Nat), x = s.recordsAt r → runsControl s r 0x83 = true →
    s.localQ x.fn (bits x.arg 17 0) = some q → (s.sessionsAt x.sid).state ≠ 0 → (s.queuesAt q).sid = some x.sid → s.reserved q = 0 →
    ∃ t, exec (.sessionUnbind r) s = .next t ∧ t.queuesAt q = { s.queuesAt q with sid := none } ∧
      (∀ j, j ≠ q → t.queuesAt j = s.queuesAt j) ∧ Finishes s t r .OK ∧ { t with queues := s.queues, records := s.records } = s) ∧
  (∀ (r : Nat) (s : State) (x : RunRec) (v : Session), x = s.recordsAt r → v = s.sessionsAt x.sid → runsControl s r 0x84 = true →
    v.state ≠ 0 → ∃ t, exec (.sessionClose r) s = .next t ∧ t.sessionsAt x.sid = { v with state := 2, closers := v.closers ++ [r] } ∧
      (∀ j, j ≠ x.sid → t.sessionsAt j = s.sessionsAt j) ∧ RecordBecomes s t r { x with stage := .dispatched } ∧
      { t with sessions := s.sessions, records := s.records } = s) ∧
  ∀ (r : Nat) (s : State) (x : RunRec), x = s.recordsAt r → runsControl s r 0x85 = true → (s.sessionsAt x.sid).state ≠ 0 →
    isHostWin x.outPtr = false → s.writeStatus .fw x.outPtr 64 = .OK → ∃ t, exec (.sessionQuery r) s = .next t ∧
      StoresAt s t x.outPtr (s.queryReply x.sid) ∧ Finishes s t r .OK

/-- How a session ends, and a function's reset (R380, R400): a session whose EXPIRES has come drains; drained and without a record in
flight it is FREE, its key set returns to STATE 1, its queues are unbound and its SESSION_CLOSE records complete; a function-level reset
with no record left closes the function's sessions, disables its queues with a zero context and invalidates its BAR4 segments. -/
def Sys2Proof.Claims.SessionEnds : Prop :=
  (∀ (sid : BitVec 16) (s : State) (v : Session), v = s.sessionsAt sid.toNat → v.state = 1 → v.expires ≠ 0 → v.expires ≤ s.epochCount →
    ∃ t, exec (.sessionExpire sid) s = .next t ∧ t.sessionsAt sid.toNat = { v with state := 2 } ∧
      (∀ j, j ≠ sid.toNat → t.sessionsAt j = s.sessionsAt j) ∧ { t with sessions := s.sessions } = s) ∧
  (∀ (sid : BitVec 16) (s : State) (v : Session), v = s.sessionsAt sid.toNat → v.state = 2 → s.inFlight sid.toNat = 0 →
    (s.ksetsAt v.ksid).live = true → ∃ t, exec (.sessionFree sid) s = .next t ∧ t.sessionsAt sid.toNat = {} ∧
      (∀ j, j ≠ sid.toNat → t.sessionsAt j = s.sessionsAt j) ∧ t.ksetsAt v.ksid = { s.ksetsAt v.ksid with state := 1, sid := 0 } ∧
      (∀ j, j ≠ v.ksid → t.ksetsAt j = s.ksetsAt j) ∧ (∀ q, (t.queuesAt q).sid ≠ some sid.toNat) ∧
      (∀ q, (s.queuesAt q).sid ≠ some sid.toNat → t.queuesAt q = s.queuesAt q) ∧
      (∀ r ∈ v.closers, (t.recordsAt r).stage = .finished ∧ (t.recordsAt r).result = some (.OK, 0)) ∧
      (∀ r, r ∉ v.closers → t.recordsAt r = s.recordsAt r) ∧ (∀ cl : Fin 8, ∀ l ∈ (t.clustersAt cl).keyCache, l.ksid ≠ v.ksid) ∧
      RegsBut s t ((List.range 8).map fun cl => MUSLIN.KCSTAT.USED.at_ cl) ∧ t.mem = s.mem) ∧
  ∀ (f : Fin 64) (s : State), s.tripped = false → s.fnRecords f = [] → s.Inv → ∃ t, exec (.flr f) s = .next t ∧
    (∀ v, (t.sessionsAt v).state = 0 ∨ (t.sessionsAt v).fn ≠ f.val) ∧
    (∀ q, (t.queuesAt q).state = 0 ∨ s.fnOf q ≠ some f.val) ∧ (∀ k : Fin 64, t.fld BAR4MAP.VALID 0 (64 * f.val + k.val) = 0) ∧
    t.mboxesAt f = {} ∧ (t.pcieAt f).flr = false ∧ (t.pcieAt f).bar4 = (s.pcieAt f).bar4 ∧ t.mem = s.mem ∧ t.out = s.out
/-! ### The host port (ch. 16, 17) -/

/-- The command answers with the outputs given, and changes nothing else. -/
def Sys2Proof.Claims.Replies (c : Instr) (s : State) (l : List Output) : Prop := exec c s = .next { s with out := s.out ++ l }

/-- Memory as the host reaches it (R235, R336, R374, R375, R379): one line read, written or operated on through a BAR4 segment, part
of a scratchpad word written as a bank atomic is, with its restarts counted and sixteen of them discarding it; the HDM decoder
commits onto the lent range or shows its error; CXL.mem reads and writes the lent range; the CXL mailbox answers; and a read of host
memory that nothing answers ends with TIMEOUT: of a work record, its queue's slot gets that CQE, and the queue is HELD (R378). -/
def Obligations.HostMemory : Prop :=
  (∀ (f : Fin 64) (off : BitVec 40) (n a : Nat) (s : State), s.tripped = false → s.barGate = .pass → 0 < n → off.toNat % 64 + n ≤ 64 →
    s.bar4At f off.toNat false = (.OK, a) → s.poisoned a n = false →
    Replies (.bar4Read f off n) s [.reply (.bar f) pcieSC (s.read a n)]) ∧
  (∀ (f : Fin 64) (off : BitVec 40) (bs : List Byte) (a restarts : Nat) (s : State), s.tripped = false → s.barGate = .pass → bs ≠ [] →
    off.toNat % 64 + bs.length ≤ 64 → s.bar4At f off.toNat true = (.OK, a) → (bs.length = 64 ∨ s.poisoned a 1 = false) →
    (isSpad a = false ∨ partWord a bs.length = false) →
    ∃ t, exec (.bar4Write f off bs ⟨false, restarts⟩) s = .next t ∧ StoresAt s t a bs ∧
      { t with mem := s.mem, poison := s.poison, landTag := s.landTag } = s) ∧
  (∀ (f : Fin 64) (off : BitVec 40) (bs : List Byte) (a restarts : Nat) (s : State), s.tripped = false → s.barGate = .pass →
    off.toNat % 64 + bs.length ≤ 64 → s.bar4At f off.toNat true = (.OK, a) → s.poisoned a 1 = false → isSpad a = true →
    partWord a bs.length = true → restarts < 16 →
    let i := (a - spadSpace) / 0x2000000
    ∃ t, exec (.bar4Write f off bs ⟨false, restarts⟩) s = .next t ∧ StoresAt s t a bs ∧
      t.fld TILE.SPATOM.RETRY i = min (s.fld TILE.SPATOM.RETRY i + restarts) 0xFFFF ∧
      { t with mem := s.mem, poison := s.poison, landTag := s.landTag, regs := s.regs } = s ∧
      RegsBut s t [TILE.SPATOM.RETRY.at_ i]) ∧
  (∀ (f : Fin 64) (off : BitVec 40) (bs : List Byte) (a restarts : Nat) (s : State), s.tripped = false → s.barGate = .pass →
    off.toNat % 64 + bs.length ≤ 64 → s.bar4At f off.toNat true = (.OK, a) → s.poisoned a 1 = false → isSpad a = true →
    partWord a bs.length = true → 16 ≤ restarts →
    let i := (a - spadSpace) / 0x2000000
    ∃ t, exec (.bar4Write f off bs ⟨false, restarts⟩) s = .next t ∧ t.mem = s.mem ∧ t.poison = s.poison ∧
      t.fld TILE.SPATOM.RETRY i = min (s.fld TILE.SPATOM.RETRY i + 16) 0xFFFF ∧
      t.fld TILE.SPATOM.ABANDON i = min (s.fld TILE.SPATOM.ABANDON i + 1) 0xFFFF ∧
      t.fld FN.ERRCNT.WRDROP f = min (s.fld FN.ERRCNT.WRDROP f + 1) 0xFFFF) ∧
  (∀ (f : Fin 64) (off : BitVec 40) (n a restarts : Nat) (op : PcieAtom) (s : State) (old new : Nat), s.tripped = false →
    s.barGate = .pass → (n = 4 ∨ n = 8) → s.bar4At f off.toNat true = (.OK, a) → isSpad a = true → a % n = 0 →
    restarts < 16 → s.poisoned a n = false → old = leNat (s.read a n) →
    new = (match op with
      | .fetchAdd v => (old + v.toNat) % 2 ^ (8 * n)
      | .swap v => v.toNat % 2 ^ (8 * n)
      | .cas v c => if old = c.toNat % 2 ^ (8 * n) then v.toNat % 2 ^ (8 * n) else old) →
    ∃ t, exec (.bar4Atomicop f off n op restarts) s = .next t ∧ StoresAt s t a (natLe n new) ∧
      t.out = s.out ++ [.reply (.bar f) pcieSC (natLe n old)] ∧
      RegsBut s t [TILE.SPATOM.RETRY.at_ ((a - spadSpace) / 0x2000000)] ∧
      { t with mem := s.mem, poison := s.poison, landTag := s.landTag, regs := s.regs, out := s.out } = s) ∧
  (∀ (q : BitVec 18) (s : State) (x : Queue), x = s.queuesAt q.toNat → x.state = 1 → x.head ≠ x.tail →
    (s.pcieAt ((s.fnOf q.toNat).getD 0)).flr = false → x.ringLocal 192 = false → x.wr = [] → s.slotFree q.toNat = true →
    x.ringLocal 128 = false → bit x.ctx 96 = false → ∃ t, exec (.hostReadTimeout (.record q)) s = .next t ∧
      t.queuesAt q.toNat = { x with head := (x.head + 1) % 0x10000, wr := [], cqes := x.cqes + 1, state := 2 } ∧
      (∀ j, j ≠ q.toNat → t.queuesAt j = s.queuesAt j) ∧ .hostRead ((s.fnOf q.toNat).getD 0) x.headAt 64 ∈ t.out ∧
      .hostWrite ((s.fnOf q.toNat).getD 0) (x.ring 128 + 16 * (x.cqes % x.slots)) (cqeBytes 0 0 x.head ((x.head + 1) % 0x10000)
        q.toNat 0 (1 - x.cqes / x.slots % 2) Status.TIMEOUT.code) false ∈ t.out ∧ RegsRest s t [] ∧
      { t with queues := s.queues, regs := s.regs, out := s.out, life := s.life, errPages := s.errPages, fresh := s.fresh } = s) ∧
  (∀ (base size : BitVec 64) (s : State), hostOpen s = true → s.cxl.committed = false → ∃ t, exec (.hdmCommit base size) s = .next t ∧
    t = { s with cxl := if s.lendBytes = 0 ∨ size.toNat ≠ s.lendBytes ∨ s.flag MEMSYS.LEND.BUSY = true then { s.cxl with error := true }
      else { committed := true, error := false, base := base.toNat, size := size.toNat } }) ∧
  (∀ (h : BitVec 64) (n a : Nat) (s : State), s.tripped = false → s.cxl.committed = true → s.cxl.base ≤ h.toNat →
    h.toNat < s.cxl.base + s.cxl.size → a = s.lentRange.1 + (h.toNat - s.cxl.base) → s.access .cxl a = .OK →
    Replies (.cxlMemRequest h (.read n)) s [.reply .cxl (if s.poisoned a n then Status.POISON.code else 0) (s.read a n)]) ∧
  (∀ (h : BitVec 64) (bs : List Byte) (a : Nat) (s : State), s.tripped = false → s.cxl.committed = true → s.cxl.base ≤ h.toNat →
    h.toNat < s.cxl.base + s.cxl.size → a = s.lentRange.1 + (h.toNat - s.cxl.base) → s.access .cxl a = .OK →
    (64 ≤ bs.length ∨ s.poisoned a 1 = false) → ∃ t, exec (.cxlMemRequest h (.write bs)) s = .next t ∧ StoresAt s t a bs ∧
      t.out = s.out ++ [.reply .cxl 0 []] ∧ { t with mem := s.mem, poison := s.poison, landTag := s.landTag, out := s.out } = s) ∧
  ∀ (s : State) (arg : List Byte) (c : Instr) (op : Nat) (a : List Byte), s.tripped = false → s.fatal = false → s.ready = true →
    (c, op, a) ∈ [(.identifyMemoryDevice, 0x4000, []), (.getPartitionInfo, 0x4100, []), (.getSupportedLogs, 0x0400, []),
      (.getLog arg, 0x0401, arg), (.getHealthInfo, 0x4200, [])] →
    Replies c s [.reply .cxl 0 (Config.cxlReply op s.lendBytes a)]
/-! ### Mailboxes (ch. 03, 05, 09, 17, 18) -/

/-- The endpoint whose pending request a command serves. -/
def Sys2Proof.Claims.served : MboxFrom → Option Nat
  | .fn f => some f
  | .mgmt e => some (mgmtKey e)
  | .arrive _ _ => none

/-- Endpoint `k` has the pending request `m` with opcode `op`, which passes the checks of R411, and the cores run. -/
def Sys2Proof.Claims.asks (s : State) (o : MboxFrom) (k op : Nat) (m : List Byte) : Prop :=
  served o = some k ∧ (s.mboxesAt k).request = m ∧ m ≠ [] ∧ msgOp m = op ∧ s.tripped = false ∧ s.fatal = false ∧ s.slumber = false ∧
    s.requestCheck k m = .OK

/-- Endpoint `k` has its answer (R409, R412, R421): its request is gone and the reply stands, in a function's registers or sent, with
the endpoint's grant as given; of the registers that are no reports only those named differ. -/
def Sys2Proof.Claims.Answered (s t : State) (k : Nat) (m : List Byte) (grant : Option Nat) (st : Status) (payload : List Byte)
    (ws : List Nat) : Prop :=
  t.mboxesAt k = { s.mboxesAt k with
    request := [], reply := replyBytes m st payload, grant := grant, seq := if k < 64 then (s.mboxesAt k).seq else some (leAt m 8 4) } ∧
  (∀ j, j ≠ k → t.mboxesAt j = s.mboxesAt j) ∧
  (k < 64 → t.fld MBOX.STAT.BUSY k = 0 ∧ t.fld MBOX.STAT.REPLY k = 1 ∧ RegsRest s t (MBOX.STAT.BUSY.at_ k :: ws)) ∧
  (64 ≤ k → t.out = s.out ++ [.reply .mgmt 0 (replyBytes m st payload)] ∧ RegsRest s t ws)

/-- Mailbox requests that name no table (R407, R409 to R414): HELLO grants what is wanted and available; IDENT and PATCH_STATUS answer;
a patch image is written to the spare bank and staged, or erased where it fails its checks; a hard repair is counted, and recorded in
the life log; a message of a management endpoint waits for its core. -/
def Sys2Proof.Claims.MailboxService : Prop :=
  (∀ (o : MboxFrom) (k : Nat) (m : List Byte) (s : State), asks s o k 1 m → ∃ t, exec (.hello o) s = .next t ∧
    Answered s t k m (some (leAt m 0x10 4 &&& s.available k)) .OK
      (natLe 4 (leAt m 0x10 4 &&& s.available k) ++ natLe 2 4096 ++ natLe 2 0) [] ∧
    { t with mboxes := s.mboxes, regs := s.regs, out := s.out } = s) ∧
  (∀ (o : MboxFrom) (k : Nat) (m : List Byte) (s : State), asks s o k 2 m → ∃ t, exec (.ident o) s = .next t ∧
    Answered s t k m (s.mboxesAt k).grant .OK s.identity [] ∧ { t with mboxes := s.mboxes, regs := s.regs, out := s.out } = s) ∧
  (∀ (o : MboxFrom) (k : Nat) (m : List Byte) (s : State), asks s o k 0x51 m → ∃ t, exec (.patchStatus o) s = .next t ∧
    Answered s t k m (s.mboxesAt k).grant .OK ((List.range 4).flatMap fun j => (s.patches j).report) [] ∧
    { t with mboxes := s.mboxes, regs := s.regs, out := s.out } = s) ∧
  (∀ (o : MboxFrom) (k : Nat) (m b : List Byte) (s : State) (y : Nat) (p : Patches) (st : Status), asks s o k 0x50 m →
    s.readRange .sec (leAt m 0x10 8) (leAt m 0x18 4) = (b, .OK) → y = leAt b 4 1 → y < s.fw.types.length → y < 4 → p = s.patches y →
    st = s.patchCheck y p.floor b → ∃ t, exec (.patchStage o) s = .next t ∧
      Answered s t k m (s.mboxesAt k).grant st (if st = .OK then natLe 4 p.spare else []) [] ∧
      (t.patches y).bank p.spare = (if st = .OK then b else []) ∧ (t.patches y).staged = (if st = .OK then p.spare else 0xFF) ∧
      (t.patches y).bank (1 - p.spare) = p.bank (1 - p.spare) ∧ (t.patches y).booted = p.booted ∧
      (∀ j, j ≠ y → t.patches j = s.patches j) ∧ { t with mboxes := s.mboxes, regs := s.regs, out := s.out, fw := s.fw } = s) ∧
  (∀ (o : MboxFrom) (k : Nat) (m : List Byte) (s : State) (c : Fin 28), asks s o k 0x40 m → unitController (leAt m 0x10 1) = some c.val →
    leAt m 0x11 1 < s.fld MEMC.INFO.CHAN c → s.fld MEMC.STAT.STATE c = 4 → ∃ t, exec (.memRepair o) s = .next t ∧
      Answered s t k m (s.mboxesAt k).grant .OK (natLe 4 (Config.draw s.fresh % 256)) [MEMC.RPR.HARD.at_ c] ∧
      t.fw = { s.fw with repairs := addCount s.fw.repairs (leAt m 0x10 1) 1 } ∧
      t.fld MEMC.RPR.HARD c = min (s.fld MEMC.RPR.HARD c + 1) (2 ^ MEMC.RPR.HARD.width - 1) ∧ s.fresh < t.fresh) ∧
  ∀ (e : BitVec 8) (m : List Byte) (s : State) (c : Instr), s.mgmtUp = true → (s.mboxesAt (mgmtKey e)).request = [] →
    s.mboxesAt (mgmtKey e) ≠ {} → (s.mboxesAt (mgmtKey e)).seq = none → s.requestCheck (mgmtKey e) m = .OK →
    c ∈ [.hello (.arrive e m), .ident (.arrive e m), .patchStage (.arrive e m), .patchStatus (.arrive e m)] →
    ∃ t, exec c s = .next t ∧ t.mboxesAt (mgmtKey e) = { s.mboxesAt (mgmtKey e) with request := m } ∧
      (∀ j, j ≠ mgmtKey e → t.mboxesAt j = s.mboxesAt j) ∧ { t with mboxes := s.mboxes } = s

/-- Loads and removals by mailbox (R39, R59, R104, R219, R415): a prime that passes the steps of R59 is validated, its window shows it and
GEN goes up by one, and so does a clear; a parameter set becomes live, or is removed; a key set becomes current with STATE 0, and STATE 1
where its bundle is good, or is removed; a graph becomes loaded, or unloaded. -/
def Sys2Proof.Claims.MailboxTables : Prop :=
  (∀ (o : MboxFrom) (k : Nat) (m : List Byte) (s : State) (slot x : Nat), asks s o k 0x10 m → slot = leAt m 0x10 1 → x = leAt m 0x20 16 →
    s.primeCheck slot x = none → ∃ t, exec (.primeLoad o) s = .next t ∧ Answered s t k m (s.mboxesAt k).grant .OK (natLe 16 (validated x))
      (PRIMETAB.GEN.GEN.at_ :: (List.range 4).map ((Page.PRIMETAB).base 0 + 0x800 + 16 * slot + 4 * ·)) ∧
      t.primesAt slot = validated x ∧ (∀ j, j ≠ slot → t.primesAt j = s.primesAt j) ∧
      t.fld PRIMETAB.GEN.GEN = (s.fld PRIMETAB.GEN.GEN + 1) % 2 ^ 32 ∧
      { t with mboxes := s.mboxes, regs := s.regs, out := s.out, primes := s.primes } = s) ∧
  (∀ (o : MboxFrom) (k : Nat) (m : List Byte) (s : State) (slot : Nat), asks s o k 0x11 m → slot = leAt m 0x10 1 →
    s.slotCheck slot = none → ∃ t, exec (.primeClear o) s = .next t ∧ Answered s t k m (s.mboxesAt k).grant .OK []
      (PRIMETAB.GEN.GEN.at_ :: (List.range 4).map ((Page.PRIMETAB).base 0 + 0x800 + 16 * slot + 4 * ·)) ∧
      t.primeValid slot = false ∧ (∀ j, j ≠ slot → t.primesAt j = s.primesAt j) ∧
      t.fld PRIMETAB.GEN.GEN = (s.fld PRIMETAB.GEN.GEN + if s.primeValid slot then 1 else 0) % 2 ^ 32 ∧
      { t with mboxes := s.mboxes, regs := s.regs, out := s.out, primes := s.primes } = s) ∧
  (∀ (o : MboxFrom) (k : Nat) (m b c : List Byte) (s : State) (n : Nat), asks s o k 0x12 m → b = msgPayload m → n = leAt b 0 1 → 16 ≤ n →
    n < 64 → s.psetInGraph n = false → s.boundKeys n = false → s.psetInSession n = false →
    s.readRange .fw (leAt b 0x20 8) 2048 = (c, .OK) → s.psetCheck b = .OK → curvesOk c = true → ∃ t, exec (.psetLoad o) s = .next t ∧
      Answered s t k m (s.mboxesAt k).grant .OK (psetLive b c).digest [] ∧ t.psetsAt n = psetLive b c ∧
      (∀ j, j ≠ n → t.psetsAt j = s.psetsAt j) ∧ { t with mboxes := s.mboxes, regs := s.regs, out := s.out, psets := s.psets } = s) ∧
  (∀ (o : MboxFrom) (k : Nat) (m : List Byte) (s : State) (n : Nat), asks s o k 0x13 m → n = leAt m 0x10 1 → 16 ≤ n → n < 64 →
    (s.psetsAt n).live = true → s.psetInGraph n = false → s.psetInSession n = false →
    (s.ksets.any fun k => k.2.live && k.2.pset = n) = false → ∃ t, exec (.psetRemove o) s = .next t ∧
      Answered s t k m (s.mboxesAt k).grant .OK [] [] ∧ t.psetsAt n = {} ∧ (∀ j, j ≠ n → t.psetsAt j = s.psetsAt j) ∧
      { t with mboxes := s.mboxes, regs := s.regs, out := s.out, psets := s.psets } = s) ∧
  (∀ (o : MboxFrom) (k : Nat) (m b bs : List Byte) (s : State) (dir : List DirEntry) (id : Nat), asks s o k 0x20 m → b = msgPayload m →
    id = leAt b 0 2 → s.ksdCheck b = .OK → s.readRange .sec (leAt b 0x18 8) (16 * leAt b 0x14 2) = (bs, .OK) →
    dirOf bs (leAt b 0x14 2) = some dir → s.dirCheck k (s.psetsAt (leAt b 4 1 % 64)) dir = .OK →
    (∀ j ∈ linesOf (leAt b 0x40 8) 512, s.access .sec (64 * j) ≠ .DENIED) → ∃ (t : State) (st : Status),
      exec (.ksetLoad o) s = .next t ∧ Answered s t k m (s.mboxesAt k).grant st (natLe 4 (if st = .OK then 1 else 0)) [] ∧
      t.ksetsAt id = { ksdOf b (s.ksetsAt id).gen dir with state := if st = .OK then 1 else 0 } ∧
      (∀ j, j ≠ id → t.ksetsAt j = s.ksetsAt j) ∧
      { t with mboxes := s.mboxes, regs := s.regs, out := s.out, ksets := s.ksets, sec := s.sec } = s) ∧
  (∀ (o : MboxFrom) (k : Nat) (m b bs : List Byte) (s : State), asks s o k 0x20 m → b = msgPayload m → s.ksdCheck b = .OK →
    s.readRange .sec (leAt b 0x18 8) (16 * leAt b 0x14 2) = (bs, .POISON) → ∃ t, exec (.ksetLoad o) s = .next t ∧
      Answered s t k m (s.mboxesAt k).grant (s.dirPoisoned k (s.psetsAt (leAt b 4 1 % 64)) (leAt b 0x18 8) (leAt b 0x14 2)) [] [] ∧
      { t with mboxes := s.mboxes, regs := s.regs, out := s.out } = s) ∧
  (∀ (k n : Nat) (p : Pset) (a : Nat) (s : State), (∃ j, j < n ∧ s.poisoned (a + 16 * j) 16 = false ∧
      dirEntryOf (leNat (s.read (a + 16 * j) 16)) = none) → s.dirPoisoned k p a n = .RANGE) ∧
  (∀ (o : MboxFrom) (k : Nat) (m : List Byte) (s : State) (id : Nat), asks s o k 0x21 m → id = leAt m 0x10 2 → (s.ksetsAt id).live = true →
    (s.ksetsAt id).state ≠ 2 → ∃ t, exec (.ksetRemove o) s = .next t ∧ Answered s t k m (s.mboxesAt k).grant .OK [] [] ∧
      t.ksetsAt id = {} ∧ (∀ j, j ≠ id → t.ksetsAt j = s.ksetsAt j) ∧
      { t with mboxes := s.mboxes, regs := s.regs, out := s.out, ksets := s.ksets, sec := s.sec } = s) ∧
  (∀ (o : MboxFrom) (x : Translation) (k : Nat) (m b : List Byte) (s : State) (c : List Graph) (hit : Bool) (g : Graph), asks s o k 0x30 m →
    s.readRange .fw (leAt m 0x18 8) (leAt m 0x14 4) = (b, .OK) →
    s.graphCheck (leAt m 0x10 4) (leAt m 0x14 4) b (s.translation b x) = .ok (c, hit, g) →
    ∃ t, exec (.graphLoad o x) s = .next t ∧
      Answered s t k m (s.mboxesAt k).grant .OK (natLe 8 (if hit then 1 else 0) ++ g.prog ++ g.cfg) [] ∧
      t.graphsAt (leAt m 0x10 4) = g ∧ (∀ j, j ≠ leAt m 0x10 4 → t.graphsAt j = s.graphsAt j) ∧ t.fw.cache = c ∧
      (∃ y, (g.prog, g.cfg, y) ∈ t.fw.translated) ∧
      { t with mboxes := s.mboxes, regs := s.regs, out := s.out, graphs := s.graphs, fw := s.fw } = s) ∧
  ∀ (o : MboxFrom) (k : Nat) (m : List Byte) (s : State), asks s o k 0x31 m → (s.graphsAt (leAt m 0x10 4)).live = true →
    (s.records.any fun r => r.2.stage ≠ .none && r.2.opcode = 1 && r.2.graph = leAt m 0x10 4) = false →
    ∃ t, exec (.graphUnload o) s = .next t ∧ Answered s t k m (s.mboxesAt k).grant .OK [] [] ∧ t.graphsAt (leAt m 0x10 4) = {} ∧
      (∀ j, j ≠ leAt m 0x10 4 → t.graphsAt j = s.graphsAt j) ∧
      { t with mboxes := s.mboxes, regs := s.regs, out := s.out, graphs := s.graphs } = s
/-! ### The management port, configuration space and attestation (ch. 16, 17, 18, 20, 23) -/

/-- MCTP control and PLDM (R407, R408, R517), the management bus and what wakes the Gloaming (R457, R468, R532), configuration requests
(R371, R372, R377, R386, R517) and DOE: each answers and changes what it names, and nothing else. -/
def Obligations.ManagementPort : Prop :=
  (∀ (eid : BitVec 8) (s : State), s.mgmtUp = true → eid ≠ 0 → eid ≠ 0xFF → exec (.setEndpointId eid) s =
    .next { s with mgmt := { s.mgmt with eid := eid.toNat }, out := s.out ++ [.reply .mgmt 0 [0, 0, eid, 0]] }) ∧
  (∀ (ty : BitVec 8) (t6 : BitVec 6) (bs : List Byte) (s : State) (c : Instr) (r : List Byte), s.mgmtUp = true → s.ready = true →
    t6 ∈ [0, 2, 5] →
    (c, r) ∈ [(Instr.getEndpointId, [0] ++ natLe 1 s.mgmt.eid ++ [0, 0]), (.getMctpVersionSupport ty, [0] ++ Config.mctpVersions ty.toNat),
      (.getMessageTypeSupport, [0, 4, 0, 1, 5, 0x7F]), (.pldmRequest (.message t6 bs), [0] ++ Config.pldmReply t6.toNat bs)] →
    Replies c s [.reply .mgmt 0 r]) ∧
  (∀ (r : PldmReq) (s : State), s.mgmtUp = true → s.ready = false → Replies (.pldmRequest r) s [.reply .mgmt 0 [4]]) ∧
  (∀ (s : State) (c : Instr) (e : Nat), (c, e) ∈ [(Instr.hostLinkWake, 0), (.mgmtAddressMatch, 1)] → exec c s =
    .next { s with glm := { s.glm with events := if s.glm.events.contains e then s.glm.events else s.glm.events ++ [e] } }) ∧
  (∀ (a : BitVec 7) (s : State), s.fld STRAP.VAL.MGMT = 1 → 0x20 ≤ s.fld RESET.BOOT.STAGE →
    exec (.dynamicAddressAssignment a) s = .next { s with mgmt := { s.mgmt with dynamic := some a.toNat } }) ∧
  (∀ s : State, s.fld STRAP.VAL.MGMT = 0 → Replies .smbusClockLowTimeout s [.pin "SMB_SCL" true, .pin "SMB_SDA" true]) ∧
  (∀ (f : Fin 64) (op : CfgOp) (s : State), s.tripped = false → s.ready = false → s.fw.afterPor = true → s.fatal = false →
    Replies (.configRequest f op) s [.reply (.cfg f) pcieRRS []]) ∧
  (∀ (f : Fin 64) (dw : BitVec 10) (s : State), s.tripped = false → s.ready = true → Replies (.configRequest f (.read dw)) s
    [.reply (.cfg f) pcieSC (natLe 4 (Config.cfgRead f dw.toNat (((s.pcieAt f).words.find? (·.1 = dw.toNat)).map (·.2)) % 2 ^ 32))]) ∧
  (∀ (f : Fin 64) (dw : BitVec 10) (v : BitVec 32) (on : Bool) (s : State) (op : CfgOp) (x : PcieFn), s.tripped = false →
    s.ready = true → (op, x) ∈ [(CfgOp.write dw v, { s.pcieAt f with words := mapInsert (s.pcieAt f).words dw.toNat v.toNat }),
      (.relaxed on, { s.pcieAt f with ero := on })] →
    ∃ t, exec (.configRequest f op) s = .next t ∧ t.pcieAt f = x ∧ (∀ j, j ≠ f.val → t.pcieAt j = s.pcieAt j) ∧
      t.out = s.out ++ [.reply (.cfg f) pcieSC []] ∧ { t with pcie := s.pcie, out := s.out } = s) ∧
  (∀ (f : Fin 64) (on mask : Bool) (s : State), s.tripped = false → s.ready = true →
    ∃ t, exec (.configRequest f (.msix on mask)) s = .next t ∧ t.pcieAt f = { s.pcieAt f with msixOn := on, msixMask := mask } ∧
      (∀ j, j ≠ f.val → t.pcieAt j = s.pcieAt j) ∧ RegsRest s t [] ∧ { t with pcie := s.pcie, out := s.out, regs := s.regs } = s) ∧
  (∀ (b : Fin 5) (s : State), s.tripped = false → s.ready = true → ∃ t, exec (.configRequest 0 (.bar4 b)) s = .next t ∧
    t.pcieAt 0 = { s.pcieAt 0 with bar4 := 36 + b.val } ∧ (∀ j, j ≠ 0 → t.pcieAt j = s.pcieAt j) ∧
    t.out = s.out ++ [.reply (.cfg 0) pcieSC []] ∧ { t with pcie := s.pcie, out := s.out } = s) ∧
  (∀ (index : BitVec 8) (s : State), s.tripped = false → s.ready = true → Replies (.doeRequest (.discovery index)) s
    [.reply (.doe 0) 0 (if index = 0 then [0x01, 0x00, 0, 1] else if index = 1 then [0x01, 0x00, 1, 0] else [0xFF, 0xFF, 0, 0])]) ∧
  ∀ (r : SpdmReq) (s : State) (code : BitVec 8) (c : Instr), (code, c) ∈ [(0x84, .getVersion .doe r), (0xE1, .getCapabilities .doe r),
    (0xE3, .negotiateAlgorithms .doe r), (0x81, .getDigests .doe r), (0x82, .getCertificate .doe r), (0x83, .challenge .doe r),
    (0xE0, .getMeasurements .doe r)] → exec (.doeRequest (.spdm code r)) s = exec c s

/-- A response on an endpoint. -/
def Sys2Proof.Claims.spdmOut : SpdmFrom → List Byte → Output
  | .doe, bs => .reply (.doe 0) 0 bs
  | .mgmt _, bs => .reply .mgmt 0 bs

/-- The connection becomes `c`, the response is sent, and nothing else changes but the free values drawn. -/
def Sys2Proof.Claims.Responds (s t : State) (o : SpdmFrom) (c : Spdm) (bs : List Byte) : Prop :=
  t.spdmAt o.key = c ∧ (∀ j, j ≠ o.key → t.spdmAt j = s.spdmAt j) ∧ t.out = s.out ++ [spdmOut o bs] ∧
    { t with spdm := s.spdm, out := s.out, fresh := s.fresh } = s

/-- SEC answers an endpoint's requests, on a connection as negotiated (R437, R517). -/
def Sys2Proof.Claims.connected (s : State) (o : SpdmFrom) (c : Spdm) : Prop :=
  s.spdmOpen o = true ∧ 0x40 ≤ s.fld RESET.BOOT.STAGE ∧ s.spdmAt o.key = c

/-- Attestation (R437 to R439): the responder's versions, capabilities and algorithms; the digest of slot 0's chain and its portions; a
challenge answered with the chain's digest, a fresh nonce and a signature; and measurement blocks, computed when they are asked for. The
layouts are DSP0274's (log entry 52). -/
def Obligations.Attestation : Prop :=
  (∀ (o : SpdmFrom) (r : SpdmReq) (s : State) (c : Spdm), connected s o c → r.ver = 0x10 → ∃ t, exec (.getVersion o r) s = .next t ∧
    Responds s t o { version := some 0, a := r.bytes 0x84 ++ [0x10, 0x04, 0, 0, 0, 2, 0x00, 0x12, 0x00, 0x13] }
      [0x10, 0x04, 0, 0, 0, 2, 0x00, 0x12, 0x00, 0x13]) ∧
  (∀ (o : SpdmFrom) (r : SpdmReq) (s : State) (c : Spdm) (bs : List Byte), connected s o c → c.version.isSome = true → c.caps = false →
    c.algs = false → (r.ver = 0x12 ∨ r.ver = 0x13) → 16 ≤ r.body.length →
    bs = [r.ver, 0x61, 0, 0, 0] ++ natLe 1 Config.spdmTimes.1 ++ [0, 0, 0x36, 0, 0, 0] ++ natLe 4 Config.spdmTimes.2.1 ++
      natLe 4 Config.spdmTimes.2.2 → ∃ t, exec (.getCapabilities o r) s = .next t ∧
      Responds s t o { c with version := some r.ver.toNat, caps := true, a := c.a ++ r.bytes 0xE1 ++ bs, l := [] } bs) ∧
  (∀ (o : SpdmFrom) (r : SpdmReq) (s : State) (c : Spdm), connected s o c → c.caps = true → c.version = some r.ver.toNat →
    28 ≤ r.body.length → leAt r.body 4 4 &&& 0x80 ≠ 0 → leAt r.body 8 4 &&& 2 ≠ 0 → ∃ (t : State) (bs : List Byte),
      exec (.negotiateAlgorithms o r) s = .next t ∧ leAt bs 12 4 = 0x80 ∧ leAt bs 16 4 = 2 ∧ bs.length = 36 ∧
      Responds s t o { c with algs := true, a := c.a ++ r.bytes 0xE3 ++ bs, l := [] } bs) ∧
  (∀ (o : SpdmFrom) (r : SpdmReq) (s : State) (c : Spdm) (bs : List Byte), connected s o c → c.algs = true → c.version = some r.ver.toNat →
    bs = [r.ver, 0x01, if r.ver = 0x13 then 1 else 0, 1] ++ sha384 (Config.certChain s.secDigest) →
    ∃ t, exec (.getDigests o r) s = .next t ∧ Responds s t o { c with b := c.b ++ r.bytes 0x81 ++ bs, l := [] } bs) ∧
  (∀ (o : SpdmFrom) (r : SpdmReq) (s : State) (c : Spdm) (chain p bs : List Byte), connected s o c → c.algs = true →
    c.version = some r.ver.toNat → r.p1.toNat % 16 = 0 → 4 ≤ r.body.length → chain = Config.certChain s.secDigest →
    p = (chain.drop (leAt r.body 0 2)).take (leAt r.body 2 2) →
    bs = [r.ver, 0x02, 0, 0] ++ natLe 2 p.length ++ natLe 2 (chain.length - leAt r.body 0 2 - p.length) ++ p →
    ∃ t, exec (.getCertificate o r) s = .next t ∧ if leAt r.body 0 2 < chain.length then
      Responds s t o { c with b := c.b ++ r.bytes 0x82 ++ bs, l := [] } bs else Responds s t o c [r.ver, 0x7F, 0x01, 0]) ∧
  (∀ (o : SpdmFrom) (r : SpdmReq) (s : State) (c : Spdm), connected s o c → c.algs = true → c.version = some r.ver.toNat →
    r.p1.toNat % 16 = 0 → r.p2 = 0 → 40 ≤ r.body.length → ∃ (t : State) (nonce sig : List Byte), nonce.length = 32 ∧ sig.length = 96 ∧
      exec (.challenge o r) s = .next t ∧ Responds s t o { c with b := [], l := [] }
        ([r.ver, 0x03, 0, 1] ++ sha384 (Config.certChain s.secDigest) ++ nonce ++ [0, 0] ++ r.context 32 ++ sig)) ∧
  ∀ (o : SpdmFrom) (r : SpdmReq) (s : State) (c : Spdm) (want : List (Nat × Nat × List Byte)), connected s o c → c.algs = true →
    c.version = some r.ver.toNat → r.p1.toNat % 2 = 0 → 8 ≤ r.body.length →
    want = (if r.p2 = 0 then [] else if r.p2 = 0xFF then s.measurements else s.measurements.filter (·.1 = r.p2.toNat)) →
    (r.p2 = 0 ∨ want ≠ []) → ∃ (t : State) (nonce bs : List Byte), nonce.length = 32 ∧ exec (.getMeasurements o r) s = .next t ∧
      bs = [r.ver, 0x60] ++ natLe 1 (if r.p2 = 0 then s.measurements.length else 0) ++ [0] ++ natLe 1 want.length ++
        natLe 3 (want.flatMap measBlock).length ++ want.flatMap measBlock ++ nonce ++ [0, 0] ++ r.context 0 ∧
      Responds s t o { c with l := c.l ++ r.bytes 0xE0 ++ bs } bs
/-! ### Firmware cores (ch. 15, 17) and scratchpads (ch. 10) -/

/-- An idle core takes the oldest request of its inbox (R418). -/
def Sys2Proof.Claims.taken (c : FwCore) : FwCore :=
  match c.handling, c.requests with
  | none, r :: rs => { c with handling := some r, requests := rs }
  | _, _ => c

/-- Channels between cores, their watchdogs and their fence (R340, R417 to R420): a request goes into the target's inbox and keeps a reply
slot, and one against the ranks is refused with DEADLOCK and counted; a reply ends the request handled and reaches the slot, or is counted
late; a control message completes with its acknowledgements; a request without a reply ends with TIMEOUT; a core that misses its watchdog
is counted and restarts, one of SEC and PMC being fatal; a fence reports the oldest late error and clears the mark. -/
def Obligations.CoreChannels : Prop :=
  (∀ (f g : Fin 11) (q : Word) (s : State) (a b : FwCore), s.coresRun = true →
    ((s.coresAt f).handling = none ∨ coreRank f < coreRank g) → (s.coresAt g).requests.length < 16 → (s.coresAt f).waiting.length < 16 →
    a = { s.coresAt f with waiting := (s.coresAt f).waiting ++ [(g.val, q.toNat)] } → b = (if g = f then a else s.coresAt g) →
    ∃ t, exec (.coreRequest f g q) s = .next t ∧ t.coresAt g = taken { b with requests := b.requests ++ [(f.val, q.toNat)] } ∧
      (g ≠ f → t.coresAt f = a) ∧ (∀ j, j ≠ f.val → j ≠ g.val → t.coresAt j = s.coresAt j) ∧ { t with cores := s.cores } = s) ∧
  (∀ (f g : Fin 11) (q : Word) (mask : BitVec 16) (acks : List Status) (s : State) (c : Instr), s.coresRun = true →
    (c = .coreRequest f g q ∧ (s.coresAt f).handling ≠ none ∧ coreRank g ≤ coreRank f ∨
      c = .coreControl f mask acks ∧ ∃ x ∈ controlTargets mask.toNat, coreRank f ≤ coreRank x.2) →
    ∃ t, exec c s = .next t ∧ t.out = s.out ++ [.reply (.core f) Status.DEADLOCK.code []] ∧
      t.fld FWC.CHCNT.DLKREF f = min (s.fld FWC.CHCNT.DLKREF f + 1) (2 ^ FWC.CHCNT.DLKREF.width - 1) ∧
      RegsBut s t [FWC.CHCNT.DLKREF.at_ f] ∧ { t with regs := s.regs, out := s.out } = s) ∧
  (∀ (f : Fin 11) (r : Nat × Nat) (st : Status) (s : State), s.coresRun = true → (s.coresAt f).handling = some r → r.1 ≠ f.val →
    (s.coresAt r.1).waiting.contains (f.val, r.2) = true → ∃ t, exec (.coreReply f st) s = .next t ∧
      t.coresAt f = taken { s.coresAt f with handling := none } ∧
      t.coresAt r.1 = { s.coresAt r.1 with waiting := (s.coresAt r.1).waiting.erase (f.val, r.2) } ∧
      (∀ j, j ≠ f.val → j ≠ r.1 → t.coresAt j = s.coresAt j) ∧ t.out = s.out ++ [.reply (.core r.1) st.code (natLe 4 r.2)] ∧
      { t with cores := s.cores, out := s.out } = s) ∧
  (∀ (f g : Fin 11) (n : Nat) (st : Status) (s : State), s.coresRun = true → (s.coresAt f).handling = some (g.val, n) →
    (s.coresAt g).waiting.contains (f.val, n) = false → ∃ t, exec (.coreReply f st) s = .next t ∧
      t.coresAt f = taken { s.coresAt f with handling := none } ∧ (∀ j, j ≠ f.val → t.coresAt j = s.coresAt j) ∧
      t.fld FWC.CHCNT.LATE g = min (s.fld FWC.CHCNT.LATE g + 1) (2 ^ FWC.CHCNT.LATE.width - 1) ∧ RegsBut s t [FWC.CHCNT.LATE.at_ g] ∧
      { t with cores := s.cores, regs := s.regs } = s) ∧
  (∀ (f : Fin 11) (mask : BitVec 16) (acks : List Status) (s : State), s.coresRun = true →
    (∀ x ∈ controlTargets mask.toNat, coreRank x.2 < coreRank f) → Replies (.coreControl f mask acks) s [.reply (.core f)
      ((((controlTargets mask.toNat).map fun x => acks.getD x.1 .OK).find? (· ≠ .OK)).getD .OK).code []]) ∧
  (∀ (f : Fin 11) (n : Nat) (r : Nat × Nat) (s : State), s.coresRun = true → (s.coresAt f).waiting[n]? = some r →
    ∃ t, exec (.coreRequestTimeout f n) s = .next t ∧
      t.coresAt f = { s.coresAt f with waiting := (s.coresAt f).waiting.eraseIdx n } ∧ (∀ j, j ≠ f.val → t.coresAt j = s.coresAt j) ∧
      t.out = s.out ++ [.reply (.core f) Status.TIMEOUT.code (natLe 4 r.2)] ∧ { t with cores := s.cores, out := s.out } = s) ∧
  (∀ (k : Fin 11) (s : State), s.coresRun = true → 3 ≤ k.val → (s.coresAt k).handling = none → s.recordsOn (k - 3) = [] →
    ∃ t, exec (.coreWatchdog k) s = .next t ∧ t.coresAt k = taken (s.coresAt k) ∧ (∀ j, j ≠ k.val → t.coresAt j = s.coresAt j) ∧
      t.fld FWC.WDT.COUNT k = min (s.fld FWC.WDT.COUNT k + 1) (2 ^ FWC.WDT.COUNT.width - 1) ∧ RegsRest s t [FWC.WDT.COUNT.at_ k] ∧
      { t with cores := s.cores, regs := s.regs, out := s.out, life := s.life, errPages := s.errPages } = s) ∧
  (∀ (k : Fin 2) (s : State), s.coresRun = true → ∃ t, exec (.coreWatchdog ⟨k.val, by omega⟩) s = .next t ∧ t.fatal = true ∧
    t.fld ERRSYS.STATE.CAUSE = k.val + 1 ∧ .aer ∈ t.out ∧ .pin "ALERT_N" false ∈ t.out) ∧
  ∀ (k : Fin 11) (s : State), s.coreWrites k = false → ∃ t, exec (.fence k) s = .next t ∧ t.coresAt k = { s.coresAt k with late := [] } ∧
    (∀ j, j ≠ k.val → t.coresAt j = s.coresAt j) ∧ { t with cores := s.cores, out := s.out } = s ∧
    t.out = s.out ++ [.reply (.core k) (((s.coresAt k).late.head?).getD (0, 0)).1 (natLe 4 (((s.coresAt k).late.head?).getD (0, 0)).2)]

/-- The scratchpad as others reach it (R235, R239 to R249, R258): a read or a write over the NoC; the words of a write that a requester
of higher priority writes in the same cycle keep that one's data, and COLLIDE counts the write; part of a word is written as a bank
atomic is, its restarts counted and sixteen of them abandoning it with BUSY; FETCH_ADD, SWAP, CAS and FETCH_MADD on a bank or on an element of an open ATOM reduction, each answering the old value; a
forced grant of the starvation guard, counted, the epoch perturbed; and one unit of the background test, which leaves the save area zero. -/
def Obligations.ScratchpadAccess : Prop :=
  (∀ (who : Who) (i : Fin 64) (off : BitVec 25) (n restarts : Nat) (lost : List (BitVec 23)) (s : State),
    (∀ k ∈ linesOf (spadBase i + off.toNat) n, s.isFar (64 * k) = false) →
    Replies (.spadNocAccess who i off (.read n) ⟨lost, restarts⟩) s
      [.reply .noc (s.readRange who (spadBase i + off.toNat) n).2.code (s.readLines who (spadBase i + off.toNat) n)]) ∧
  (∀ (who : Who) (i : Fin 64) (off : BitVec 25) (bs : List Byte) (restarts : Nat) (s : State),
    s.writeStatus who (spadBase i + off.toNat) bs.length = .OK → partWord (spadBase i + off.toNat) bs.length = false →
    ∃ t, exec (.spadNocAccess who i off (.write bs) ⟨[], restarts⟩) s = .next t ∧ StoresAt s t (spadBase i + off.toNat) bs ∧
      t.out = s.out ++ [.reply .noc Status.OK.code []] ∧
      { t with mem := s.mem, poison := s.poison, landTag := s.landTag, out := s.out } = s) ∧
  (∀ (who : Who) (i : Fin 64) (off : BitVec 25) (bs : List Byte) (restarts : Nat) (s : State),
    s.writeStatus who (spadBase i + off.toNat) bs.length = .OK → partWord (spadBase i + off.toNat) bs.length = true → restarts < 16 →
    ∃ t, exec (.spadNocAccess who i off (.write bs) ⟨[], restarts⟩) s = .next t ∧ StoresAt s t (spadBase i + off.toNat) bs ∧
      t.fld TILE.SPATOM.RETRY i = min (s.fld TILE.SPATOM.RETRY i + restarts) 0xFFFF ∧ t.out = s.out ++ [.reply .noc Status.OK.code []] ∧
      RegsBut s t [TILE.SPATOM.RETRY.at_ i] ∧
      { t with mem := s.mem, poison := s.poison, landTag := s.landTag, regs := s.regs, out := s.out } = s) ∧
  (∀ (who : Who) (i : Fin 64) (off : BitVec 25) (bs : List Byte) (lost : List (BitVec 23)) (restarts : Nat) (s : State),
    s.writeStatus who (spadBase i + off.toNat) bs.length = .OK → partWord (spadBase i + off.toNat) bs.length = true → 16 ≤ restarts →
    ∃ t, exec (.spadNocAccess who i off (.write bs) ⟨lost, restarts⟩) s = .next t ∧
      t.fld TILE.SPATOM.RETRY i = min (s.fld TILE.SPATOM.RETRY i + 16) 0xFFFF ∧
      t.fld TILE.SPATOM.ABANDON i = min (s.fld TILE.SPATOM.ABANDON i + 1) 0xFFFF ∧ t.out = s.out ++ [.reply .noc Status.BUSY.code []] ∧
      RegsBut s t [TILE.SPATOM.RETRY.at_ i] ∧ { t with regs := s.regs, out := s.out } = s) ∧
  (∀ (who : Who) (i : Fin 64) (off : BitVec 25) (bs : List Byte) (lost : List (BitVec 23)) (restarts : Nat) (s : State),
    s.writeStatus who (spadBase i + off.toNat) bs.length = .OK → partWord (spadBase i + off.toNat) bs.length = false →
    (∃ w ∈ lost, off.toNat ≤ 4 * w.toNat ∧ 4 * w.toNat < off.toNat + bs.length) →
    ∃ t, exec (.spadNocAccess who i off (.write bs) ⟨lost, restarts⟩) s = .next t ∧
      (∀ k, k < bs.length → memByte t.mem (spadBase i + off.toNat + k) =
        if ∃ w ∈ lost, w.toNat = (off.toNat + k) / 4 then memByte s.mem (spadBase i + off.toNat + k) else bs.getD k 0) ∧
      (∀ j, j < spadBase i + off.toNat ∨ spadBase i + off.toNat + bs.length ≤ j → memByte t.mem j = memByte s.mem j) ∧
      t.fld TILE.SPCNT.COLLIDE i = min (s.fld TILE.SPCNT.COLLIDE i + 1) (2 ^ TILE.SPCNT.COLLIDE.width - 1) ∧
      t.out = s.out ++ [.reply .noc Status.OK.code []] ∧ RegsBut s t [TILE.SPCNT.COLLIDE.at_ i] ∧
      { t with mem := s.mem, poison := s.poison, landTag := s.landTag, regs := s.regs, out := s.out } = s) ∧
  (∀ (who : Who) (a n restarts : Nat) (v cmp : BitVec 64) (w : BitVec 32) (slot : BitVec 7) (s : State) (c : Instr) (new old : Nat),
    (n = 4 ∨ n = 8) → a % n = 0 → isSpad a = true → s.access who a = .OK → restarts < 16 → s.poisoned a n = false →
    old = leNat (s.read a n) →
    (c, new) ∈ [(.fetchAdd who (.mem a) n v restarts, (old + v.toNat) % 2 ^ (8 * n)),
      (.swap who (.mem a) n v restarts, v.toNat % 2 ^ (8 * n)),
      (.cas who (.mem a) n v cmp restarts, if old = cmp.toNat % 2 ^ (8 * n) then v.toNat % 2 ^ (8 * n) else old)] ∨
    (n = 4 ∧ s.primeValid slot.toNat = true ∧ c = .fetchMadd who (.mem a) n w slot restarts ∧
      new = (old + w.toNat) % s.primeQ slot.toNat) →
    ∃ t, exec c s = .next t ∧ StoresAt s t a (natLe n new) ∧ t.out = s.out ++ [.reply .noc Status.OK.code (natLe 8 old)] ∧
      RegsBut s t [TILE.SPATOM.RETRY.at_ ((a - spadSpace) / 0x2000000)] ∧
      { t with mem := s.mem, poison := s.poison, landTag := s.landTag, regs := s.regs, out := s.out } = s) ∧
  (∀ (who : Who) (cl : Fin 8) (elem restarts : Nat) (rid : BitVec 8) (v cmp : BitVec 64) (s : State) (c : Instr) (new old : Nat) (x : Reduction),
    x = (s.clustersAt cl).reduction rid.toNat → x.isOpen = true → x.op = 8 → elem < 16 * x.len → old = x.words.getD elem 0 →
    (c, new) ∈ [(.fetchAdd who (.red cl rid elem) 4 v restarts, (old + v.toNat) % 2 ^ 32),
      (.swap who (.red cl rid elem) 4 v restarts, v.toNat % 2 ^ 32),
      (.cas who (.red cl rid elem) 4 v cmp restarts, if old = cmp.toNat % 2 ^ 32 then v.toNat % 2 ^ 32 else old)] →
    ∃ t, exec c s = .next t ∧ (t.clustersAt cl).reduction rid.toNat = { x with words := x.words.set elem new } ∧
      (∀ j, j ≠ cl.val → t.clustersAt j = s.clustersAt j) ∧ t.out = s.out ++ [.reply .noc Status.OK.code (natLe 8 old)] ∧
      { t with clusters := s.clusters, out := s.out } = s) ∧
  (∀ (i : Fin 64) (s : State), ∃ t, exec (.starvationGuard i) s = .next t ∧
    t.fld TILE.SPCNT.GUARD i = min (s.fld TILE.SPCNT.GUARD i + 1) (2 ^ TILE.SPCNT.GUARD.width - 1) ∧
    t.fld TILE.SPSTALL.STALL i = min (s.fld TILE.SPSTALL.STALL i + 1) (2 ^ TILE.SPSTALL.STALL.width - 1) ∧
    (s.inEpoch i = true → t.fld TILE.RUNSTAT.PERTURBED i = 1) ∧ t.runState i = s.runState i ∧
    RegsBut s t [TILE.SPCNT.GUARD.at_ i, TILE.SPSTALL.STALL.at_ i, TILE.RUNSTAT.PERTURBED.at_ i, TILE.PTBCNT.EPOCHS.at_ i] ∧
    { t with regs := s.regs, life := s.life } = s) ∧
  ∀ (i : Fin 64) (rows : List Nat) (s : State) (u : Nat), u = (s.tilesAt i).sptUnit → s.fld TILE.SPTSTAT.STATE i = 1 →
    (∀ r ∈ rows, r / 8192 ≠ u ∧ r / 8192 ≠ 63) → ∃ t, exec (.sptestUnit i rows) s = .next t ∧
      (∀ j, memByte t.mem j = if spadBase i + 63 * 0x80000 ≤ j ∧ j < spadBase i + 64 * 0x80000 then 0 else memByte s.mem j) ∧
      t.tilesAt i = { s.tilesAt i with sptUnit := if u = 62 then 0 else u + 1 } ∧ (∀ j, j ≠ i.val → t.tilesAt j = s.tilesAt j) ∧
      t.fld TILE.SPTSTAT.UNIT i = 63 ∧ RegsBut s t [TILE.SPTSTAT.UNIT.at_ i, TILE.SPTSTAT.PASSES.at_ i] ∧
      { t with mem := s.mem, poison := s.poison, landTag := s.landTag, tiles := s.tiles, regs := s.regs } = s
/-! ### Memory controllers (ch. 12, 20) -/

/-- The controllers' commands (R281, R282, R284, R286, R293 to R298, R480, R493, R512): the place of a line within its stack or group; a
line request that its partition's bucket allows is served and answered, any other waits and is counted, and the line of a transfer that
waited moves when it is served; a READY controller calibrates its next channel once in an epoch, and a stack far from the temperature of
its training retrains (log entry 72); a patrol pass takes up the written CECFG and starts its rows' counts again; the end of LEND's fill leaves the range zero and in
effect; training ends READY, at the rated or the derated speed, or FAILED. -/
def Obligations.MemoryControllers : Prop :=
  (∀ (half : Fin 2) (h : Nat) (s : State), h < 0x4800000000 → let a := 0x4800000000 * half.val + h
    let g := h / 4096
    s.controllerOf a = 6 * half.val + g % 6 ∧ s.tierOffset a = g / 6 * 4096 + h % 4096 ∧
      s.channelOf a = bits (s.tierOffset a) 11 6 ^^^ bits (s.tierOffset a) 17 12) ∧
  (∀ (half : Fin 2) (h : Nat) (s : State), h < s.farSize / 2 → let a := farBase + s.farSize / 2 * half.val + h
    let g := h / 4096
    s.controllerOf a = 12 + 8 * half.val + g % 8 ∧ s.tierOffset a = g / 8 * 4096 + h % 4096 ∧
      s.channelOf a = bits (s.tierOffset a) 7 6 ^^^ bits (s.tierOffset a) 13 12) ∧
  (∀ (m : Fin 28) (i : Fin 64) (v : Transfer) (r : LineReq) (n : Nat) (contended : Bool) (s : State) (q : MemCtl) (tok : List Nat),
    (s.tilesAt i).transfer v.id = some v → v.next < v.lines → r = v.lineReq i → (isNear r.a = true ∨ s.isFar r.a = true) →
    s.controllerOf r.a = m.val → q = { s.memctlAt m with tokens := s.refill m n (s.memctlAt m).tokens } → r ∈ q.waiting →
    s.grants m q r contended = some tok → exec (.memLineServe m r n contended .ok) s =
      done (((((begin s).modMemctl m fun x => { x with tokens := s.refill m n x.tokens }).putMemctl m
        { q with tokens := tok, waiting := q.waiting.erase r }).countLine m v.out |>.moveLine i v r.a).pump i v.id (v.lines + 1))) ∧
  (∀ (m : Fin 28) (r : LineReq) (n k : Nat) (contended : Bool) (s : State) (q : MemCtl) (tok : List Nat), r.xfer = none →
    (isNear r.a = true ∨ s.isFar r.a = true) → s.controllerOf r.a = m.val → r.op = .read k → s.access r.who r.a = .OK →
    s.poisonAt (r.a / 64) = false → q = { s.memctlAt m with tokens := s.refill m n (s.memctlAt m).tokens } →
    s.grants m q r contended = some tok → ∃ t, exec (.memLineServe m r n contended .ok) s = .next t ∧
      t.memctlAt m = { q with tokens := tok, waiting := q.waiting.erase r, readLines := (q.readLines + 1) % 4096 } ∧
      (∀ j, j ≠ m.val → t.memctlAt j = s.memctlAt j) ∧
      t.out = s.out ++ [.reply .noc Status.OK.code (s.read r.a (min k (64 - r.a % 64)))] ∧ RegsBut s t [MEMC.RDKL.KL.at_ m] ∧
      { t with memctl := s.memctl, regs := s.regs, out := s.out } = s) ∧
  (∀ (m : Fin 28) (r : LineReq) (n : Nat) (bs : List Byte) (contended : Bool) (s : State) (q : MemCtl) (tok : List Nat), r.xfer = none →
    (isNear r.a = true ∨ s.isFar r.a = true) → s.controllerOf r.a = m.val → r.op = .write bs → s.writeStatus r.who r.a (bs.take (64 - r.a % 64)).length = .OK →
    q = { s.memctlAt m with tokens := s.refill m n (s.memctlAt m).tokens } → s.grants m q r contended = some tok →
    ∃ t, exec (.memLineServe m r n contended .ok) s = .next t ∧ StoresAt s t r.a (bs.take (64 - r.a % 64)) ∧
      t.memctlAt m = { q with tokens := tok, waiting := q.waiting.erase r, writeLines := (q.writeLines + 1) % 4096 } ∧
      (∀ j, j ≠ m.val → t.memctlAt j = s.memctlAt j) ∧ t.out = s.out ++ [.reply .noc Status.OK.code []] ∧
      RegsBut s t [MEMC.WRKL.KL.at_ m] ∧ { t with
        mem := s.mem, poison := s.poison, landTag := s.landTag, memctl := s.memctl, regs := s.regs, out := s.out } = s) ∧
  (∀ (m : Fin 28) (r : LineReq) (n : Nat) (contended : Bool) (chk : LineCheck) (s : State) (q : MemCtl), r.xfer = none →
    (isNear r.a = true ∨ s.isFar r.a = true) → s.controllerOf r.a = m.val →
    q = { s.memctlAt m with tokens := s.refill m n (s.memctlAt m).tokens } → s.grants m q r contended = none →
    q.waiting.contains r = false → ∃ t, exec (.memLineServe m r n contended chk) s = .next t ∧
      t.memctlAt m = { q with waiting := q.waiting ++ [r] } ∧ (∀ j, j ≠ m.val → t.memctlAt j = s.memctlAt j) ∧
      t.fld MEMC.REGWAIT.WAIT m = min (s.fld MEMC.REGWAIT.WAIT m + 1) (2 ^ MEMC.REGWAIT.WAIT.width - 1) ∧
      RegsBut s t [MEMC.REGWAIT.WAIT.at_ m] ∧ { t with memctl := s.memctl, regs := s.regs } = s) ∧
  (∀ (m : Fin 28) (s : State), (s.memctlAt m).calEpoch = s.epochCount → exec (.calibration m) s = .next s) ∧
  (∀ (m : Fin 28) (s : State), s.fld MEMC.STAT.STATE m = 2 → (s.memctlAt m).calEpoch ≠ s.epochCount →
    ∃ t, exec (.calibration m) s = .next t ∧ t.memctlAt m = { s.memctlAt m with
      nextCal := ((s.memctlAt m).nextCal + 1) % memChannels m, calEpoch := s.epochCount } ∧
    (∀ j, j ≠ m.val → t.memctlAt j = s.memctlAt j) ∧
    t.fld MEMC.CALCNT.CAL m = min (s.fld MEMC.CALCNT.CAL m + 1) (2 ^ MEMC.CALCNT.CAL.width - 1) ∧
    RegsBut s t [MEMC.CALCNT.CAL.at_ m] ∧ { t with memctl := s.memctl, regs := s.regs } = s) ∧
  (∀ (m : Fin 12) (temp : BitVec 8) (s : State), s.fld MEMC.STAT.STATE m = 2 →
    let far : Prop := ∃ r, (s.memctlAt m).trainTemp = some r ∧ (r + 20 < temp.toNat ∨ temp.toNat + 20 < r)
    ∃ t, exec (.thermalRetrain m temp) s = .next t ∧ t.fld MEMC.STAT.TEMP m = temp.toNat ∧
      (far → t.memctlAt m = { s.memctlAt m with trainTemp := some temp.toNat }) ∧
      (¬ far → t.memctlAt m = { s.memctlAt m with trainTemp := some ((s.memctlAt m).trainTemp.getD temp.toNat) }) ∧
      t.fld MEMC.CALCNT.RETRAIN m = min (s.fld MEMC.CALCNT.RETRAIN m + bnat ((s.memctlAt m).moved temp.toNat))
        (2 ^ MEMC.CALCNT.RETRAIN.width - 1) ∧ ((s.memctlAt m).moved temp.toNat = true ↔ far) ∧ (∀ j, j ≠ m.val → t.memctlAt j = s.memctlAt j) ∧
      RegsBut s t [MEMC.STAT.TEMP.at_ m, MEMC.CALCNT.RETRAIN.at_ m] ∧ { t with memctl := s.memctl, regs := s.regs } = s) ∧
  (∀ (m : Fin 28) (s : State), ∃ t, exec (.patrolPass m []) s = .next t ∧ t.memctlAt m = { s.memctlAt m with rows := [] } ∧
    (∀ j, j ≠ m.val → t.memctlAt j = s.memctlAt j) ∧
    t.regEff (ERRSYS.CECFG.CETHR.addr 0 0) = s.regsAt (ERRSYS.CECFG.CETHR.addr 0 0) ∧
    (∀ a, a ≠ ERRSYS.CECFG.CETHR.addr 0 0 → t.regEff a = s.regEff a) ∧ { t with memctl := s.memctl, deferred := s.deferred } = s) ∧
  (∀ s : State, s.flag MEMSYS.LEND.BUSY = true → s.ready = true → (s.regionsAt lentRegion).live = false →
    s.lentRange.1 = s.lentRange.2 → ∃ t, exec .lendFillDone s = .next t ∧ t.fld MEMSYS.LEND.BUSY = 0 ∧
      (t.regEff (MEMSYS.LEND.BASE.addr 0 0)).toNat % 2 ^ 31 = (s.regsAt (MEMSYS.LEND.BASE.addr 0 0)).toNat % 2 ^ 31 ∧
      (∀ j, memByte t.mem j = if t.lentRange.1 ≤ j ∧ j < t.lentRange.2 then 0 else memByte s.mem j) ∧
      RegsBut s t [MEMSYS.LEND.BUSY.at_] ∧
      { t with mem := s.mem, poison := s.poison, landTag := s.landTag, deferred := s.deferred, regs := s.regs } = s) ∧
  (∀ s : State, s.flag MEMSYS.LEND.BUSY = true → s.ready = true → (s.regionsAt lentRegion).live = true →
    ∃ t, exec .lendFillDone s = .next t ∧ t.regionsAt lentRegion = {} ∧
      t.fld MEMSYS.LEND.BUSY = (if (s.deferredAt (MEMSYS.LEND.BASE.addr 0 0)).isSome then 1 else 0) ∧
      (∀ j, j ≠ lentRegion → t.regionsAt j = s.regionsAt j) ∧
      (∀ j, memByte t.mem j = if (s.regionsAt lentRegion).base ≤ j ∧
        j < (s.regionsAt lentRegion).base + (s.regionsAt lentRegion).size * 2 ^ 21 then 0 else memByte s.mem j) ∧
      RegsBut s t [MEMSYS.LEND.BUSY.at_] ∧
      { t with mem := s.mem, poison := s.poison, landTag := s.landTag, regions := s.regions, regs := s.regs } = s) ∧
  ∀ (m : Fin 28) (outcome : Fin 3) (cap : BitVec 8) (s : State), s.tripped = false → s.fatal = false →
    s.fld MEMC.STAT.STATE m = 1 → (∃ j, j < 28 ∧ j ≠ m.val ∧
      s.fld MEMC.STAT.STATE j ≠ 2 ∧ s.fld MEMC.STAT.STATE j ≠ 5) → ∃ t, exec (.memTrainingDone m outcome cap) s = .next t ∧
      t.fld MEMC.STAT.STATE m = (if outcome = 2 then 5 else 2) ∧
      t.fld MEMC.INFO.RATE m = (if m.val < 12 then (if outcome = 0 then 100 else 80) else if outcome = 0 then 96 else 85) ∧
      (outcome = 1 → t.fld MEMC.STAT.DERATED m = 1) ∧
      (outcome = 2 → m.val < 12 → bit (t.fld MEMSYS.HALFCTL.OFFLINE) (m / 6) = true) ∧
      (t.memctlAt m).trainTemp = none ∧ (t.memctlAt m).failed = (outcome == 2) ∧ (∀ j, j ≠ m.val → t.memctlAt j = s.memctlAt j) ∧
      RegsRest s t [MEMC.INFO.CAP.at_ m, MEMC.RPR.HARD.at_ m, MEMC.STAT.STATE.at_ m, MEMSYS.HALFCTL.OFFLINE.at_] ∧
      { t with memctl := s.memctl, regs := s.regs, out := s.out, life := s.life, errPages := s.errPages, fresh := s.fresh } = s
/-! ### Peer links (ch. 15) -/

/-- A link becomes `x`, and no other link changes. -/
def Sys2Proof.Claims.LinkBecomes (s t : State) (l : Nat) (x : Link) : Prop := t.linksAt l = x ∧ ∀ j, j ≠ l → t.linksAt j = s.linksAt j

/-- The link is in no bond group. -/
def Sys2Proof.Claims.alone (s : State) (l : Nat) : Prop := ∀ g : Fin 12, bit (s.fld ROUTER.BOND.MASK 0 g) l = false

/-- A link that starts a packet: credit for the whole packet is spent, and its flits are numbered and kept (R348 to R350). -/
def Sys2Proof.Claims.launched (x : Link) (p : Packet) (cls : Nat) : Link :=
  { x with
    credits := x.credits.set (creditIx p.vc cls) (x.credits.getD (creditIx p.vc cls) 0 - p.units)
    txSeq := (x.txSeq + p.flits) % 4096
    retry := x.retry ++ (List.range p.flits).map fun k => ⟨(x.txSeq + k) % 4096, { p with cls := cls }, k⟩ }

/-- The flits of a packet that starts on link `l`. -/
def Sys2Proof.Claims.launchedFlits (l : Nat) (x : Link) (p : Packet) (cls : Nat) : List Output :=
  (List.range p.flits).map fun k => .flit l ((x.txSeq + k) % 4096) x.ack false false 0 0 0 (some { p with cls := cls }) k

/-- What a flit's header does to the link it arrives on (R348 to R350): the flits it acknowledges leave, its credit comes back. -/
def Sys2Proof.Claims.headed (x : Link) (f : Flit) : Link :=
  let behind := (x.txSeq + 8191 - f.ack.toNat) % 4096
  { x with
    retry := x.retry.drop (x.retry.length - behind)
    credits := x.credits.set (creditIx f.cvc f.ccls) (x.credits.getD (creditIx f.cvc f.ccls) 0 + f.credits.toNat)
    replays := if behind < x.retry.length then 0 else x.replays }

/-- Links change state (R347 to R349, R359, R368): trained to UP with the width and the partner, or DOWN on this module's own device ID; down,
starting over; retrained, out of quarantine by RELEASE, or after the eighth replay without progress; replaying every flit not yet
acknowledged; and a bond group that has drained goes on. -/
def Sys2Proof.Claims.LinkStates : Prop :=
  (∀ (l : Fin 24) (w : Fin 3) (partner : BitVec 16) (pready : Bool) (s : State), s.flag LINK.CTL.EN l = true →
    s.linkState l ≤ linkTRAINING → s.slumber = false → s.tripped = false → (w = 2 ∨ w = 1 ∧ s.flag LINK.CTL.ALLOW2 l = true) →
    partner.toNat ≠ s.devId → (s.linksAt l).retry = [] → alone s l →
    (s.memoryTrained = false ∨ s.fld RESET.BOOT.STAGE ∉ [0x40, 0x50]) →
    ∃ t, exec (.linkTrained l w partner pready) s = .next t ∧ t.linkState l = linkUP ∧ t.fld LINK.STAT.WIDTH l = w.val ∧
      t.fld LINK.STAT.PARTNER l = partner.toNat ∧ t.flag LINK.STAT.PREADY l = pready ∧ LinkBecomes s t l (s.linksAt l).fresh ∧
      RegsRest s t [LINK.STAT.STATE.at_ l]) ∧
  (∀ (l : Fin 24) (w : Fin 3) (partner : BitVec 16) (pready : Bool) (s : State), s.flag LINK.CTL.EN l = true →
    s.linkState l ≤ linkTRAINING → s.slumber = false → s.tripped = false → (w = 2 ∨ w = 1 ∧ s.flag LINK.CTL.ALLOW2 l = true) →
    partner.toNat = s.devId →
    (s.memoryTrained = false ∨ s.fld RESET.BOOT.STAGE ∉ [0x40, 0x50]) → ∃ t, exec (.linkTrained l w partner pready) s = .next t ∧
      t.linkState l = linkDOWN ∧ LinkBecomes s t l (s.linksAt l).fresh ∧ RegsRest s t [LINK.STAT.STATE.at_ l]) ∧
  (∀ (l : Fin 24) (s : State), (s.linkState l = linkUP ∨ s.linkState l = linkTRAINING) → alone s l →
    ∃ t, exec (.linkDown l) s = .next t ∧ t.linkState l = linkDOWN ∧ LinkBecomes s t l (s.linksAt l).fresh ∧
      RegsRest s t [LINK.STAT.STATE.at_ l] ∧ { t with links := s.links, regs := s.regs, out := s.out } = s) ∧
  (∀ (o : RegFrom) (l : Fin 24) (s : State) (c : Instr) (x : Link), s.takesWrite o .LINK l = true → alone s l →
    (c = .linkRelease o l ∧ s.linkState l = linkQUAR ∧ x = { s.linksAt l with viols := [] } ∨
      c = .linkRetrain o l ∧ s.linkState l ∈ [linkUP, linkDOWN, linkTRAINING] ∧ x = s.linksAt l) →
    ∃ t, exec c s = .next t ∧ t.linkState l = linkTRAINING ∧ LinkBecomes s t l x ∧
      t.fld LINK.RETRY.RETRAIN l = min (s.fld LINK.RETRY.RETRAIN l + 1) (2 ^ LINK.RETRY.RETRAIN.width - 1) ∧
      RegsRest s t [LINK.STAT.STATE.at_ l, LINK.RETRY.RETRAIN.at_ l] ∧
      { t with links := s.links, regs := s.regs, out := s.out } = s) ∧
  (∀ (l : Fin 24) (s : State) (x : Link), s.carries l = true → x = s.linksAt l → x.retry ≠ [] → x.replays < 8 →
    ∃ t, exec (.replayTimeout l) s = .next t ∧ LinkBecomes s t l { x with replays := x.replays + 1 } ∧
      t.fld LINK.RETRY.REPLAY l = min (s.fld LINK.RETRY.REPLAY l + 1) (2 ^ LINK.RETRY.REPLAY.width - 1) ∧
      t.out = s.out ++ x.retry.map (fun f => .flit l f.fseq x.ack false false 0 0 0 (some f.packet) f.part) ∧
      RegsBut s t [LINK.RETRY.REPLAY.at_ l] ∧ { t with links := s.links, regs := s.regs, out := s.out } = s) ∧
  (∀ (l : Fin 24) (s : State), s.carries l = true → alone s l → (s.linksAt l).retry ≠ [] → 8 ≤ (s.linksAt l).replays →
    ∃ t, exec (.replayTimeout l) s = .next t ∧ t.linkState l = linkTRAINING ∧
      LinkBecomes s t l { s.linksAt l with replays := 0 } ∧ RegsRest s t [LINK.STAT.STATE.at_ l, LINK.RETRY.RETRAIN.at_ l]) ∧
  ∀ (g : Fin 12) (s : State), (∀ l ∈ s.bondLinks g, s.linkState l ≠ linkUP ∧ s.linkState l ≠ linkTRAINING ∨ (s.linksAt l).retry = []) →
    ∃ t, exec (.bondChange g) s = .next t ∧
      (∀ l, t.linksAt l = { s.linksAt l with holding := (s.linksAt l).holding && !(s.bondLinks g).contains l }) ∧
      { t with links := s.links } = s

/-- Flits and packets on links (R348 to R350, R354, R355): a flit with a bad CRC or out of sequence is discarded and answered with NAK; an
IDLE flit acknowledges and returns credit; a flit in sequence brings its packet into the receive buffer; a waiting packet starts when its
hop has credit for it, and one without a route is discarded and counted; a packet for another device goes on with TTL one less, or ends at
TTL 0. -/
def Sys2Proof.Claims.LinkPackets : Prop :=
  (∀ (l : Fin 24) (f : Flit) (time : Nat) (s : State), s.carries l = true →
    (f.crc = false ∨ f.idle = false ∧ f.fseq.toNat ≠ (s.linksAt l).rxSeq) →
    Replies (.flitReceive l f time) s [.flit l 0 (s.linksAt l).ack true true 0 0 0 none 0]) ∧
  (∀ (l : Fin 24) (f : Flit) (time : Nat) (s : State) (x : Link), s.carries l = true → x = s.linksAt l → f.crc = true → f.idle = true →
    f.nak = false → (x.txSeq + 8191 - f.ack.toNat) % 4096 ≤ x.retry.length →
    x.credits.getD (creditIx f.cvc f.ccls) 0 + f.credits.toNat ≤ 512 → ∃ t, exec (.flitReceive l f time) s = .next t ∧
      LinkBecomes s t l (headed x f) ∧ { t with links := s.links } = s) ∧
  (∀ (l : Fin 24) (f : Flit) (time : Nat) (s : State) (x : Link) (p : Packet), s.carries l = true → x = s.linksAt l → f.crc = true →
    f.idle = false → f.nak = false → f.fseq.toNat = x.rxSeq → (x.txSeq + 8191 - f.ack.toNat) % 4096 ≤ x.retry.length →
    x.credits.getD (creditIx f.cvc f.ccls) 0 + f.credits.toNat ≤ 512 → f.packets = [p] → p.cls < 2 → p.fault = none →
    ((x.rx.filter fun q => q.vc = p.vc && q.cls = p.cls).map (·.units)).sum + p.units ≤ 512 → s.strayReply p = false →
    ∃ t, exec (.flitReceive l f time) s = .next t ∧
      LinkBecomes s t l { headed { x with rxSeq := (x.rxSeq + 1) % 4096 } f with rx := x.rx ++ [p] } ∧
      t.out = s.out ++ [.flit l 0 (((x.rxSeq + 1) % 4096 + 4095) % 4096) false true 0 0 0 none 0] ∧
      { t with links := s.links, out := s.out } = s) ∧
  (∀ (k l : Nat) (dl : Bool) (s : State) (x : TxPacket) (cls : Nat), s.txq[k]? = some x → s.txHop x = .via l dl →
    cls = (if x.one || dl then 1 else 0) → s.canStart l x.packet cls = true → (s.linksAt l).txSeq < 4096 →
    (∀ y ∈ s.txq.take k, y.packet.vc ≠ x.packet.vc ∨ ∀ d, s.txHop y ≠ .via l d) → ∃ t, exec (.packetTransmit k) s = .next t ∧
      t.txq = s.txq.eraseIdx k ∧ LinkBecomes s t l (launched (s.linksAt l) x.packet cls) ∧
      t.out = s.out ++ launchedFlits l (s.linksAt l) x.packet cls ∧ { t with txq := s.txq, links := s.links, out := s.out } = s) ∧
  (∀ (k : Nat) (s : State) (x : TxPacket), s.txq[k]? = some x → s.txHop x = .none → x.packet.vc = 1 →
    ∃ t, exec (.packetTransmit k) s = .next t ∧ t.txq = s.txq.eraseIdx k ∧
      t.fld ROUTER.DROP.NOROUTE = min (s.fld ROUTER.DROP.NOROUTE + 1) (2 ^ ROUTER.DROP.NOROUTE.width - 1) ∧
      RegsBut s t [ROUTER.DROP.NOROUTE.at_] ∧ { t with txq := s.txq, regs := s.regs } = s) ∧
  (∀ (l : Fin 24) (vc : Fin 4) (cls : Fin 2) (s : State) (p q : Packet) (j : Nat) (dl : Bool) (c : Nat) (y : Link),
    s.head l vc cls = some p → s.isHere p = false → s.flag ROUTER.CTL.READY = true → p.mc = false → p.ttl ≠ 0 →
    q = { p with ttl := p.ttl - 1 } → s.hop p = .via j dl → c = (if p.cls = 1 ∨ dl = true then 1 else 0) → s.canStart j q c = true →
    y = { s.linksAt l with rx := (s.linksAt l).rx.erase p } → (s.linksAt j).txSeq < 4096 →
    ∃ t, exec (.packetForward l vc cls) s = .next t ∧ t.linksAt j = launched (if j = l.val then y else s.linksAt j) q c ∧
      (j ≠ l.val → t.linksAt l = y) ∧ (∀ i, i ≠ j → i ≠ l.val → t.linksAt i = s.linksAt i) ∧
      t.out = s.out ++ (if s.carries l then [.flit l 0 y.ack false true p.vc p.cls p.units none 0] else []) ++
        launchedFlits j (s.linksAt j) q c ∧ { t with links := s.links, out := s.out } = s) ∧
  ∀ (l : Fin 24) (vc : Fin 4) (cls : Fin 2) (s : State) (p : Packet), s.head l vc cls = some p → s.isHere p = false →
    s.flag ROUTER.CTL.READY = true → p.mc = false → p.ttl = 0 → ∃ t, exec (.packetForward l vc cls) s = .next t ∧
      LinkBecomes s t l { s.linksAt l with rx := (s.linksAt l).rx.erase p } ∧
      t.fld ROUTER.DROP.TTL = min (s.fld ROUTER.DROP.TTL + 1) (2 ^ ROUTER.DROP.TTL.width - 1) ∧
      RegsRest s t [ROUTER.DROP.TTL.at_] ∧ t.txq = s.txq
/-! ### The peer protocol (ch. 14, 15) -/

/-- The packet of a type at the head of a buffer is for this module, whose router is READY. -/
def Sys2Proof.Claims.takes (s : State) (l : Fin 25) (cls : Fin 2) (ty : Nat) (p : Packet) : Prop :=
  s.head l ((typeVc ty).getD 0) cls = some p ∧ p.type = ty ∧ (l.val = 24 ∨ s.isHere p = true) ∧ s.flag ROUTER.CTL.READY = true

/-- The packet has left its buffer, its room goes back to the partner, and `more` is sent after that. -/
def Sys2Proof.Claims.Took (s t : State) (l : Fin 25) (p : Packet) (more : List Output) : Prop :=
  LinkBecomes s t l { s.linksAt l with rx := (s.linksAt l).rx.erase p } ∧
    t.out = s.out ++ (if s.carries l then [.flit l 0 (s.linksAt l).ack false true p.vc p.cls p.units none 0] else []) ++ more

/-- A packet as this module queues it for another device (R352, R354). -/
def Sys2Proof.Claims.queued (s : State) (p : Packet) : TxPacket :=
  { packet := { p with src := s.devId, ttl := s.fld ROUTER.CTL.TTL, cls := 0, vc := (typeVc p.type).getD 0 } }

/-- The answer to a packet: its TAG goes back to its source (R352). -/
def Sys2Proof.Claims.answerTo (p : Packet) (ty : Nat) (st : Status) (bs : List Byte) : Packet :=
  { type := ty, dst := p.src, tag := p.tag, aux := st.code, len := bs.length / 64, payload := bs }

/-- Requests of peers (R338, R352, R361, R362): a WR that its window admits is accepted, written and done; an RD is answered with its
lines; an ATOM operates on a scratchpad and answers the old value; a request outside every window is refused with WINDOW; a CONTRIB adds
its line to an open reduction; and an RRD is answered from a sealed one, and waits for one that is open. -/
def Obligations.PeerRequests : Prop :=
  (∀ (l : Fin 25) (cls : Fin 2) (s : State) (p : Packet) (w : Nat), takes s l cls ptWR p → p.src ≠ s.devId →
    s.windowCheck p p.addr p.len = .ok w → bit w 122 = false → s.writeStatus .peer (p.addr / 64 * 64) p.payload.length = .OK →
    ∃ t, exec (.plpWr l cls) s = .next t ∧ Took s t l p [] ∧ StoresAt s t (p.addr / 64 * 64) p.payload ∧
      t.txq = s.txq ++ [queued s (answerTo p ptACCEPT .OK []), queued s (answerTo p ptDONE .OK [])] ∧ { t with
        links := s.links, out := s.out, txq := s.txq, mem := s.mem, poison := s.poison, landTag := s.landTag } = s) ∧
  (∀ (l : Fin 25) (cls : Fin 2) (s : State) (p : Packet) (w n : Nat) (bs : List Byte) (st : Status), takes s l cls ptRD p →
    p.src ≠ s.devId → n = p.aux % 32 + 1 → s.windowCheck p p.addr n = .ok w → s.readRange .peer (p.addr / 64 * 64) (64 * n) = (bs, st) →
    (∀ k ∈ linesOf (p.addr / 64 * 64) (64 * n), s.access .peer (64 * k) ≠ .DENIED) → ∃ t, exec (.plpRd l cls) s = .next t ∧ Took s t l p [] ∧
      t.txq = s.txq ++ [queued s (answerTo p ptRDATA st bs)] ∧ { t with links := s.links, out := s.out, txq := s.txq } = s) ∧
  (∀ (l : Fin 25) (cls : Fin 2) (restarts : Nat) (s : State) (p : Packet) (c : Instr) (ty n : Nat), takes s l cls ty p →
    p.src ≠ s.devId → (c, ty, n) ∈ [(.plpWr l cls, ptWR, p.len), (.plpRd l cls, ptRD, p.aux % 32 + 1), (.plpAtom l cls restarts, ptATOM, 1)] →
    s.windowCheck p p.addr n = .error .WINDOW → ∃ t, exec c s = .next t ∧ Took s t l p [] ∧
      t.txq = s.txq ++ [queued s { type := ptNAK, dst := p.src, tag := p.tag, aux := Status.WINDOW.code }] ∧
      { t with links := s.links, out := s.out, txq := s.txq } = s) ∧
  (∀ (l : Fin 25) (cls : Fin 2) (restarts : Nat) (s : State) (p : Packet) (w n old : Nat) (o : AtomOp), takes s l cls ptATOM p →
    p.src ≠ s.devId → s.windowCheck p p.addr 1 = .ok w → isSpad p.addr = true → s.packetAtom p.payload = some o →
    n = leNat ((p.payload.drop 1).take 1) → (n = 4 ∨ n = 8) → p.addr % n = 0 → s.access .peer p.addr = .OK → restarts < 16 →
    s.poisoned p.addr n = false → old = leNat (s.read p.addr n) → ∃ (t : State) (rest : List Byte), rest.length = 56 ∧
      exec (.plpAtom l cls restarts) s = .next t ∧ Took s t l p [] ∧
      StoresAt s t p.addr (natLe n (o.apply n old (leNat ((p.payload.drop 8).take 8)))) ∧
      t.txq = s.txq ++ [queued s (answerTo p ptATOMR .OK (natLe 8 old ++ rest))] ∧
      RegsBut s t [TILE.SPATOM.RETRY.at_ ((p.addr - spadSpace) / 0x2000000)] ∧ t.tiles = s.tiles) ∧
  (∀ (l : Fin 25) (cls : Fin 2) (s : State) (p : Packet) (cl rid line cidx : Nat) (r : Reduction), takes s l cls ptCONTRIB p →
    p.src ≠ s.devId → p.len = 1 → (cl, rid, line) = p.redAt → cidx = bits p.aux 9 0 → r = (s.clustersAt cl).reduction rid →
    r.refuses cidx line = false → ∃ t, exec (.plpContrib l cls) s = .next t ∧ Took s t l p [] ∧
      (t.clustersAt cl).reduction rid = r.add (s.primeQ r.slot) cidx line (some (bytesWords (p.payload.take 64))) ∧
      (∀ j, j ≠ rid → (t.clustersAt cl).reduction j = (s.clustersAt cl).reduction j) ∧
      (∀ j, j ≠ cl → t.clustersAt j = s.clustersAt j) ∧
      t.txq = s.txq ++ [queued s (answerTo p ptACCEPT .OK []), queued s (answerTo p ptDONE .OK [])] ∧
      { t with links := s.links, out := s.out, txq := s.txq, clusters := s.clusters } = s) ∧
  (∀ (l : Fin 25) (cls : Fin 2) (s : State) (p : Packet) (cl rid line n : Nat) (r : Reduction) (v : List Byte × Status),
    takes s l cls ptRRD p → p.src ≠ s.devId → (cl, rid, line) = p.redAt → n = p.aux % 32 + 1 → r = (s.clustersAt cl).reduction rid →
    r.isOpen = true → line + n ≤ r.len → r.span line n = some v → ∃ t, exec (.plpRrd l cls) s = .next t ∧ Took s t l p [] ∧
      t.txq = s.txq ++ [queued s (answerTo p ptRDATA v.2 v.1)] ∧ { t with links := s.links, out := s.out, txq := s.txq } = s) ∧
  ∀ (l : Fin 25) (cls : Fin 2) (s : State) (p : Packet) (cl rid line n : Nat) (r : Reduction), takes s l cls ptRRD p →
    (cl, rid, line) = p.redAt → n = p.aux % 32 + 1 → r = (s.clustersAt cl).reduction rid → r.isOpen = true → line + n ≤ r.len →
    r.span line n = none → (s.clustersAt cl).rrds.length < 256 → ∃ t, exec (.plpRrd l cls) s = .next t ∧ Took s t l p [] ∧
      t.clustersAt cl = { s.clustersAt cl with rrds := (s.clustersAt cl).rrds ++ [p] } ∧
      (∀ j, j ≠ cl → t.clustersAt j = s.clustersAt j) ∧ { t with links := s.links, out := s.out, clusters := s.clusters } = s

/-- A transaction becomes `x`, one with nothing awaited ending, and no other changes. -/
def Sys2Proof.Claims.PeerBecomes (s t : State) (tag : Nat) (x : PeerTxn) : Prop :=
  t.peersAt tag = (if x.accepts = 0 ∧ x.finals = 0 then {} else x) ∧ ∀ j, j ≠ tag → t.peersAt j = s.peersAt j

/-- Answers to this module's transactions, and control packets (R338, R342, R352, R353, R364, R366, R368): each acceptance and each final outcome
is counted off; a failed outcome fails the record that has no CQE yet; NOT_READY and BUSY are sent again, any other refusal fails what
asked; data and old values reach the core that asked; the time limit ends a transaction with TIMEOUT; an EPOCH_SET in its interval sets a
follower's next count, any other is late; and QUAR takes the link down. -/
def Obligations.PeerAnswers : Prop :=
  (∀ (l : Fin 25) (cls : Fin 2) (s : State) (p : Packet) (x : PeerTxn), takes s l cls ptACCEPT p → s.answered p = some x →
    0 < x.accepts → (1 < x.accepts ∨ ∃ k, x.origin = .core k) → ∃ t, exec (.plpAccept l cls) s = .next t ∧ Took s t l p [] ∧
      PeerBecomes s t p.tag { x with accepts := x.accepts - 1 } ∧ { t with links := s.links, out := s.out, peers := s.peers } = s) ∧
  (∀ (l : Fin 25) (cls : Fin 2) (s : State) (p : Packet) (x : PeerTxn), takes s l cls ptDONE p → s.answered p = some x →
    ∃ t, exec (.plpDone l cls) s = .next t ∧ Took s t l p [] ∧ PeerBecomes s t p.tag { x with finals := x.finals - 1 } ∧
      { t with links := s.links, out := s.out, peers := s.peers } = s) ∧
  (∀ (l : Fin 25) (cls : Fin 2) (s : State) (p : Packet) (x : PeerTxn) (i : Fin 64) (id r : Nat), takes s l cls ptFAIL p →
    s.answered p = some x → x.mute = false → x.origin = .transfer i id → x.rec? = some r → (s.recordsAt r).stage = .dispatched →
    ∃ t, exec (.plpFail l cls) s = .next t ∧ PeerBecomes s t p.tag { x with finals := x.finals - 1 } ∧
      RecordBecomes s t r { s.recordsAt r with
        failures := (s.recordsAt r).failures ++ [⟨s.epochCount, i / 8, statusOfCode (p.aux % 256), 0⟩] } ∧
      LinkBecomes s t l { s.linksAt l with rx := (s.linksAt l).rx.erase p } ∧ RegsRest s t []) ∧
  (∀ (l : Fin 25) (cls : Fin 2) (s : State) (p : Packet) (x : PeerTxn), takes s l cls ptNAK p → s.answered p = some x →
    statusOfCode (p.aux % 256) ∈ [Status.NOT_READY, Status.BUSY] → ∃ t, exec (.plpNak l cls) s = .next t ∧ Took s t l p [] ∧
      t.peersAt p.tag = { x with retry := x.retry ++ [p.src] } ∧ (∀ j, j ≠ p.tag → t.peersAt j = s.peersAt j) ∧
      { t with links := s.links, out := s.out, peers := s.peers } = s) ∧
  (∀ (l : Fin 25) (cls : Fin 2) (s : State) (p : Packet) (x : PeerTxn) (k : Nat) (st : Status), takes s l cls ptNAK p →
    s.answered p = some x → x.origin = .core k → st = statusOfCode (p.aux % 256) → st ∉ [Status.NOT_READY, Status.BUSY] →
    ∃ t, exec (.plpNak l cls) s = .next t ∧ Took s t l p [.reply (.core k) st.code []] ∧
      PeerBecomes s t p.tag { x with accepts := x.accepts - 1, finals := x.finals - 1 } ∧
      { t with links := s.links, out := s.out, peers := s.peers } = s) ∧
  (∀ (l : Fin 25) (cls : Fin 2) (s : State) (p : Packet) (x : PeerTxn) (k : Nat), takes s l cls ptRDATA p → s.answered p = some x →
    x.origin = .core k → statusOfCode (p.aux % 256) = .OK → p.len = x.packet.aux % 32 + 1 →
    ∃ t, exec (.plpRdata l cls) s = .next t ∧ Took s t l p [.reply (.core k) 0 p.payload] ∧ t.peersAt p.tag = {} ∧
      (∀ j, j ≠ p.tag → t.peersAt j = s.peersAt j) ∧ { t with links := s.links, out := s.out, peers := s.peers } = s) ∧
  (∀ (l : Fin 25) (cls : Fin 2) (s : State) (p : Packet) (x : PeerTxn) (k : Nat), takes s l cls ptATOMR p → s.answered p = some x →
    x.origin = .core k → ∃ t, exec (.plpAtomr l cls) s = .next t ∧
      Took s t l p [.reply (.core k) (statusOfCode (p.aux % 256)).code (p.payload.take 8)] ∧ t.peersAt p.tag = {} ∧
      (∀ j, j ≠ p.tag → t.peersAt j = s.peersAt j) ∧ { t with links := s.links, out := s.out, peers := s.peers } = s) ∧
  (∀ (tag : BitVec 16) (s : State) (x : PeerTxn), x = s.peersAt tag.toNat → x.retry ≠ [] → (∀ d ∈ x.retry, d ≠ s.devId) →
    ∃ t, exec (.nakResend tag false) s = .next t ∧ t.peersAt tag.toNat = { x with retry := [] } ∧
      (∀ j, j ≠ tag.toNat → t.peersAt j = s.peersAt j) ∧
      t.txq = s.txq ++ x.retry.map (fun d => queued s { x.packet with dst := d, mc := false, tag := tag.toNat }) ∧
      { t with peers := s.peers, txq := s.txq } = s) ∧
  (∀ (tag : BitVec 16) (s : State) (x : PeerTxn) (k : Nat) (c : Instr), x = s.peersAt tag.toNat → x.origin = .core k →
    (c = .nakResend tag true ∧ x.retry ≠ [] ∨
      c = .peerWriteTimeout tag ∧ x.live = true ∧ (hasOutcome x.packet.type = false ∨ x.accepts ≠ 0)) →
    ∃ t, exec c s = .next t ∧ t.peersAt tag.toNat = {} ∧ (∀ j, j ≠ tag.toNat → t.peersAt j = s.peersAt j) ∧
      t.out = s.out ++ [.reply (.core k) Status.TIMEOUT.code []] ∧ { t with peers := s.peers, out := s.out } = s) ∧
  (∀ (l : Fin 25) (cls : Fin 2) (since : Nat) (s : State) (p : Packet) (len : Nat), takes s l cls ptEPOCHSET p →
    len = (begin s).fldEff EPOCH.CTL.LEN →
    ∃ t, exec (.epochSet l cls since) s = .next t ∧ Took s t l p [] ∧
      if s.flag EPOCH.STAT.LOCKED = true ∧ len ≤ 2 * (since + 384) ∧ since + 384 ≤ len then
        t.epoch = { s.epoch with setTo := some ((leNat (p.payload.take 8) + 1) % 2 ^ 64) } ∧
          { t with links := s.links, out := s.out, epoch := s.epoch } = s
      else t.fld ROUTER.ESET.LATE = min (s.fld ROUTER.ESET.LATE + 1) (2 ^ ROUTER.ESET.LATE.width - 1) ∧
        RegsBut s t [ROUTER.ESET.LATE.at_] ∧ { t with links := s.links, out := s.out, regs := s.regs } = s) ∧
  ∀ (l : Fin 24) (cls : Fin 2) (s : State) (p : Packet), takes s ⟨l.val, by omega⟩ cls ptQUAR p → s.linkState l = linkUP → alone s l →
    ∃ t, exec (.quar ⟨l.val, by omega⟩ cls) s = .next t ∧ t.linkState l = linkDOWN ∧
      LinkBecomes s t l ({ s.linksAt l with rx := (s.linksAt l).rx.erase p } : Link).fresh ∧ RegsRest s t [LINK.STAT.STATE.at_ l]
/-! ### Sealing domains (ch. 12, 18) -/

/-- A sealing command may start: the page takes the write and none is in progress (R429). -/
def Sys2Proof.Claims.sealOpen (s : State) (o : RegFrom) : Prop := s.takesWrite o .SEAL 0 = true ∧ s.flag SEAL.CMDSTAT.BUSY = false

/-- A sealing command has ended with a status. -/
def Sys2Proof.Claims.sealEnded (t : State) (st : Status) : Prop := t.fld SEAL.CMDSTAT.STATUS = st.code ∧ t.fld SEAL.CMDSTAT.BUSY = 0

/-- Sealing (R288, R289, R292, R426 to R435, R533): DOM_CREATE makes the domain of a policy that passes its checks and seals its clusters, and reports
the first failure of any other; REG_CREATE takes the first free region with two keys of its own, and REG_RELEASE takes one back, each until
its fill ends; the end of a fill leaves zeros, and the region in use, or gone; DOM_IMPORT decrypts weights into a region and keeps the
sequence number; DOM_DESTROY erases the domain, frees its clusters and releases its regions; and the test port keeps an instruction that
reaches inside out of service mode and of any domain; and a line of a sealed region stands in the devices as four AES-256-XTS blocks of one
data unit, any other as it is. -/
def Obligations.SealedDomains : Prop :=
  (∀ (o : RegFrom) (s : State) (p : List Byte) (st : Status), sealOpen s o → s.plainRange (s.fld SEAL.ARG.ARG) 0x200 = true →
    s.readRange .sec (s.fld SEAL.ARG.ARG) 0x200 = (p, .OK) → st = s.policyCheck p → ∃ t, exec (.domCreate o) s = .next t ∧
      sealEnded t st ∧ t.mem = s.mem ∧ t.regions = s.regions ∧
      if st = .OK then
        let d := (p.getD 0 0).toNat
        (t.domainsAt d).live = true ∧ (t.domainsAt d).clusters = (p.getD 1 0).toNat ∧ (t.domainsAt d).digest = sha384 p ∧
          (t.domainsAt d).hashes = (List.range (p.getD 2 0).toNat).map (fun i => part p (0x70 + 32 * i) (0x90 + 32 * i)) ∧
          (t.domainsAt d).key < p384.n ∧ (t.domainsAt d).key ≠ 0 ∧ (∀ j, j ≠ d → t.domainsAt j = s.domainsAt j) ∧
          ∀ c : Fin 8, bit (p.getD 1 0).toNat c = true → t.flag (HDR.OWNER.SEALED .CLUSTER) c = true ∧
            t.fld (HDR.OWNER.DOMAIN .CLUSTER) c = d ∧ t.flag (HDR.OWNER.WORLD .CLUSTER) c = true
      else t.domains = s.domains ∧ OnlyWords s t [SEAL.CMDSTAT.STATUS.at_]) ∧
  (∀ (o : RegFrom) (s : State) (x r base n : Nat), sealOpen s o → x = s.fld SEAL.ARG.ARG → base = bits x 43 21 * 2 ^ 21 →
    n = bits x 63 45 → n ≠ 0 → n ≤ 2 ^ 18 → s.inTier base (n * 2 ^ 21) = true → s.meetsRegion base (n * 2 ^ 21) = false →
    s.meetsLent base (n * 2 ^ 21) = false → (s.domainsAt (bits x 3 0)).live = true → bit x 4 = false → s.freeRegion = some r →
    ∃ (t : State) (k1 k2 : Nat), k1 ≠ k2 ∧ exec (.regCreate o) s = .next t ∧ t.regionsAt r =
      { live := true, base := base, size := n, dom := bits x 3 0, ctx := false, filling := true, keys := some (k1, k2) } ∧
      (∀ j, j ≠ r → t.regionsAt j = s.regionsAt j) ∧ t.fld SEAL.CMDSTAT.BUSY = 1 ∧ t.fld SEAL.CMDSTAT.INDEX = r ∧
      t.sec = { s.sec with cmd := 2, waits := [r] } ∧ t.mem = s.mem) ∧
  (∀ (o : RegFrom) (s : State) (r : Nat), sealOpen s o → r = bits (s.fld SEAL.ARG.ARG) 5 0 → (s.regionsAt r).live = true →
    (s.regionsAt r).filling = false → ∃ t, exec (.regRelease o) s = .next t ∧
      t.regionsAt r = { s.regionsAt r with filling := true, releasing := true } ∧ (∀ j, j ≠ r → t.regionsAt j = s.regionsAt j) ∧
      (∀ c : Fin 8, (t.clustersAt c).streamCache = []) ∧ t.fld SEAL.CMDSTAT.BUSY = 1 ∧ t.sec = { s.sec with cmd := 3, waits := [r] } ∧
      t.mem = s.mem) ∧
  (∀ (r : Fin 64) (s : State) (g : Region), g = s.regionsAt r → s.ready = true → g.live = true → g.filling = true → g.ctx = false →
    ∃ t, exec (.regionFillDone r) s = .next t ∧ t.regionsAt r = (if g.releasing then {} else { g with filling := false }) ∧
      (∀ j, j ≠ r.val → t.regionsAt j = s.regionsAt j) ∧
      (∀ a, memByte t.mem a = if g.base ≤ a ∧ a < g.base + g.size * 2 ^ 21 then 0 else memByte s.mem a) ∧
      t.sec.waits = s.sec.waits.filter (· ≠ r.val) ∧ (s.sec.waits = [r.val] → sealEnded t .OK)) ∧
  (∀ (o : RegFrom) (s : State) (p src : List Byte) (r st : Status), sealOpen s o → s.plainRange (s.fld SEAL.ARG.ARG) 0x200 = true →
    s.readRange .sec (s.fld SEAL.ARG.ARG) 0x200 = (p, .OK) → s.readRange .sec (leNat (part p 8 0x10)) (leNat (part p 0x18 0x20)) = (src, r) →
    st = (if s.importCheck p ≠ .OK then s.importCheck p else if r ≠ .OK then r
      else if sha384 src ≠ part p 0x20 0x50 then .BAD_SIGNATURE else .OK) →
    ∃ t, exec (.domImport o) s = .next t ∧ sealEnded t st ∧ t.regions = s.regions ∧
      if st = .OK then
        let d := leNat (part p 0 1)
        StoresAt s t ((s.regionsAt (leNat (part p 1 2))).base + leNat (part p 0x10 0x18)) (decryptImport d (s.domainsAt d).key
          (leNat (part p 4 8)) (beNat (part p 0x50 0x80)) (beNat (part p 0x80 0xB0)) src) ∧
          t.domainsAt d = { s.domainsAt d with seq := some (leNat (part p 4 8)) } ∧ ∀ j, j ≠ d → t.domainsAt j = s.domainsAt j
      else t.domains = s.domains ∧ OnlyWords s t [SEAL.CMDSTAT.STATUS.at_]) ∧
  (∀ (o : RegFrom) (s : State) (d : Nat) (x : Domain), sealOpen s o → d = bits (s.fld SEAL.ARG.ARG) 3 0 → x = s.domainsAt d →
    x.live = true → s.graphsOn x.clusters = false → ∃ t, exec (.domDestroy o) s = .next t ∧ t.domainsAt d = {} ∧
      (∀ j, j ≠ d → t.domainsAt j = s.domainsAt j) ∧
      (∀ r, (r < 64 ∧ (s.regionsAt r).live = true ∧ (s.regionsAt r).dom = d) →
        t.regionsAt r = { s.regionsAt r with filling := true, releasing := true }) ∧
      (∀ r, ¬(r < 64 ∧ (s.regionsAt r).live = true ∧ (s.regionsAt r).dom = d) → t.regionsAt r = s.regionsAt r) ∧
      (∀ c : Fin 8, bit x.clusters c = true → t.flag (HDR.OWNER.SEALED .CLUSTER) c = false ∧
        t.flag (HDR.OWNER.WORLD .CLUSTER) c = false) ∧
      ((s.regions.all fun g => !(g.1 < 64 && g.2.live && g.2.dom = d)) = true → sealEnded t .OK)) ∧
  (∀ (s : State) (a j : Nat) (g : Region) (k1 k2 : Nat), s.regionOf a = some g → g.keys = some (k1, k2) → j < 4 →
    ∃ bs, s.stored a = some bs ∧ bs.length = 64 ∧
      (bs.drop (16 * j)).take 16 = xtsBlock k1 k2 (a / 64) j (((s.read (a / 64 * 64) 64).drop (16 * j)).take 16)) ∧
  (∀ (s : State) (a : Nat), s.regionOf a = none → s.stored a = some (s.read (a / 64 * 64) 64)) ∧
  ∀ (i : JtagIr) (s : State) (j : JtagIr), j = s.jtagSelect i → ∃ t, exec (.jtagInstruction i) s = .next t ∧
    t.sec = { s.sec with jtag := j } ∧ t.out = s.out ++ (if j = .IDCODE then [.reply .jtag 0 (natLe 4 s.idcode)] else []) ∧
    { t with sec := s.sec, out := s.out } = s
/-! ### The hash unit and Serge (ch. 18) -/

/-- A context's job may start: the writer may write the context, and it is not busy (R440). -/
def Sys2Proof.Claims.hashOpen (s : State) (o : RegFrom) (c : Fin 16) : Prop :=
  s.tripped = false ∧ s.gate o .HASH 0 = .pass ∧ hashAllows o c = true ∧ s.flag HASH.CTX.BUSY 0 c = false

/-- The hash unit (R440 to R442): GO keeps the operands and puts the context on a free lane, or in line; ABORT empties the context; a job
that ends has fed its source, and with FINAL the context shows the digest of the message and is empty; a secure job takes the lane of a
normal one at a block boundary. -/
def Sys2Proof.Claims.HashUnit : Prop :=
  (∀ (o : RegFrom) (c : Fin 16) (alg : BitVec 2) (init final : Bool) (src : BitVec 64) (len : BitVec 40) (s : State), hashOpen s o c →
    ∃ t, exec (.hashGo o c alg init final src len) s = .next t ∧ t.fld HASH.CTX.BUSY 0 c = 1 ∧ t.fld HASH.CTX.ALG 0 c = alg.toNat ∧
      t.flag HASH.CTX.FINAL 0 c = final ∧ t.fld HASH.CTX.SRC 0 c = src.toNat ∧ t.fld HASH.CTX.LEN 0 c = len.toNat ∧
      t.hash.ctx c = (if init then { started := true, alg := alg.toNat } else s.hash.ctx c) ∧
      (∀ j, j ≠ c.val → t.hash.ctx j = s.hash.ctx j) ∧
      (s.hash.ready = [] → s.hash.lanes.length < 2 → t.hash.lanes = s.hash.lanes ++ [c.val] ∧ t.hash.ready = []) ∧
      (s.hash.lanes.length = 2 → t.hash.lanes = s.hash.lanes ∧ t.hash.ready = s.hash.ready ++ [c.val]) ∧
      { t with hash := s.hash, regs := s.regs } = s) ∧
  (∀ (o : RegFrom) (c : Fin 16) (s : State), s.tripped = false → s.gate o .HASH 0 = .pass → hashAllows o c = true →
    ∃ t, exec (.hashAbort o c) s = .next t ∧ t.fld HASH.CTX.BUSY 0 c = 0 ∧ t.hash.ctx c = {} ∧
      (s.flag HASH.CTX.BUSY 0 c = true → t.fld HASH.CTX.STATUS 0 c = Status.ABORTED.code) ∧
      (∀ j, j ≠ c.val → t.hash.ctx j = s.hash.ctx j) ∧ { t with hash := s.hash, regs := s.regs } = s) ∧
  (∀ (c : Fin 16) (s : State) (x : HashCtx) (bs : List Byte), s.hash.lanes.contains c.val = true → x = s.hash.ctx c →
    s.fld HASH.CTX.SRC 0 c / 2 ^ 44 = s.devId → x.started = true → x.alg = s.fld HASH.CTX.ALG 0 c →
    s.readRange (hashWho c) (s.fld HASH.CTX.SRC 0 c % 2 ^ 44) (s.fld HASH.CTX.LEN 0 c) = (bs, .OK) →
    x.msg.length + s.fld HASH.CTX.LEN 0 c ≤ 2 ^ 40 → ∃ t, exec (.hashJobDone c) s = .next t ∧ t.fld HASH.CTX.BUSY 0 c = 0 ∧
      t.fld HASH.CTX.STATUS 0 c = Status.OK.code ∧
      (if s.flag HASH.CTX.FINAL 0 c then t.hash.ctx c = {} ∧ natLe 64 (t.regSpan ((Page.HASH).base 0 + 0x400 + 64 * c) 16) =
          natLe 64 (leNat (hashAlg x.alg (x.msg ++ bs)))
        else t.hash.ctx c = { x with msg := x.msg ++ bs }) ∧
      (∀ j, j ≠ c.val → t.hash.ctx j = s.hash.ctx j) ∧ { t with hash := s.hash, regs := s.regs } = s) ∧
  ∀ (c : Fin 16) (d : Nat) (s : State), s.hash.ready.find? hashSecure = some d → s.hash.lanes.contains c.val = true →
    hashSecure c = false → ∃ t, exec (.hashLanePreempt c) s = .next t ∧
      t.hash = { s.hash with lanes := s.hash.lanes.erase c.val ++ [d], ready := c.val :: s.hash.ready.erase d } ∧
      { t with hash := s.hash } = s

/-- Serge (R443 to R448): GO on an idle slot with a legal operation starts it when Serge is free, and queues it otherwise; a secure job takes
Serge from a normal one at its yield point; a job that ends reports what its operation gives, shows its outputs, and leaves every other
operand zero. -/
def Sys2Proof.Claims.Serge : Prop :=
  (∀ (o : RegFrom) (k : Fin 8) (c : BitVec 4) (h : BitVec 8) (s : State) (i : Instr) (op len old : Nat) (has : Bool),
    s.takesWrite o .SERGE k = true → old = s.fld SERGE.SLOTCTL.HLEN k → has = (s.serge.curve k c.toNat).isSome →
    (i, op, len, true) ∈ [(.verify o k c h, sergeVERIFY, h.toNat, has), (.ecdh o k c, sergeECDH, old, has),
      (.pubcheck o k c, sergePUBCHECK, old, has), (.sign o k c h, sergeSIGN, h.toNat, has && slotSecure k),
      (.keygen o k c, sergeKEYGEN, old, has && slotSecure k), (.curveLoad o k c, sergeCURVELOAD, old, mayLoad k c.toNat)] →
    (s.fld SERGE.SLOTSTAT.STATE k = slotIdle ∨ s.fld SERGE.SLOTSTAT.STATE k = slotDone) →
    ∃ t, exec i s = .next t ∧ t.fld SERGE.SLOTCTL.OP k = op ∧ t.fld SERGE.SLOTCTL.CURVE k = c.toNat ∧ t.fld SERGE.SLOTCTL.HLEN k = len ∧
      (s.serge.running = none → s.serge.saved = none → s.serge.ready = [] →
        t.serge = { s.serge with running := some k.val } ∧ t.fld SERGE.SLOTSTAT.STATE k = slotRunning) ∧
      (s.serge.running ≠ none → t.serge = { s.serge with ready := s.serge.ready ++ [k.val] } ∧ t.fld SERGE.SLOTSTAT.STATE k = slotQueued) ∧
      { t with serge := s.serge, regs := s.regs } = s) ∧
  (∀ (k j : Nat) (s : State), s.serge.running = some k → slotSecure k = false → s.serge.saved = none →
    s.serge.ready.find? slotSecure = some j → j < 8 → ∃ t, exec .sergeYield s = .next t ∧
      t.serge = { s.serge with running := some j, saved := some k, ready := s.serge.ready.erase j } ∧
      t.fld SERGE.SLOTSTAT.STATE j = slotRunning ∧ RegsBut s t [SERGE.SLOTSTAT.STATE.at_ j] ∧
      { t with serge := s.serge, regs := s.regs } = s) ∧
  ∀ (k : Fin 8) (s : State) (r : SergeOut), s.serge.running = some k.val → s.serge.saved = none → s.serge.ready = [] →
    r = sergeRun s.serge k (s.fld SERGE.SLOTCTL.OP k) (s.fld SERGE.SLOTCTL.CURVE k) (s.fld SERGE.SLOTCTL.HLEN k) (Config.draw s.fresh)
      (Config.draw (s.fresh + 1)) (s.sergeOpnd k) →
    ∃ t, exec .sergeJobDone s = .next t ∧ t.serge.running = none ∧ t.fld SERGE.SLOTSTAT.STATE k = slotDone ∧
      t.fld SERGE.SLOTSTAT.STATUS k = r.status.code ∧
      (∀ i : Fin 7, t.sergeOpnd k i = natLe 80 (leNat (operandBytes (((r.outs.find? (·.1 = i.val)).map (·.2)).getD 0)))) ∧
      (r.curve = none → t.serge.curves = s.serge.curves) ∧ (r.key = none → t.serge.keys = s.serge.keys) ∧
      { t with serge := s.serge, regs := s.regs, fresh := s.fresh } = s
/-! ### Power, the brake and Gloaming (ch. 19) -/

/-- A power request may start: the write passes the page's gate, and no transition is in progress (R458). -/
def Sys2Proof.Claims.powerOpen (s : State) (o : RegFrom) : Prop :=
  s.takesWrite o .PWR 0 = true ∧ s.flag PWR.REQSTAT.BUSY = false

/-- PWR.REQ (R458, R489): a legal request for the clusters it names sets BUSY and starts its transition, SLUMBER asking for the life log's
write first; the transition's end clears BUSY with the named clusters in their states, and enters SLUMBER. -/
def Sys2Proof.Claims.PowerRequests : Prop :=
  (∀ (o : RegFrom) (mask : BitVec 8) (s : State) (c : Instr) (target : Nat), powerOpen s o →
    ((c, target) ∈ [(.pwrReqActive o mask, 0), (.pwrReqDoze o mask, 2)] ∧ mask ≠ 0 ∨ (c, target) = (.pwrReqIdle o mask, 1)) →
    (target = 2 → s.placedOn mask.toNat = false ∧ ∀ cl ∈ clustersOf mask.toNat, s.flag (HDR.OWNER.HOLD .CLUSTER) cl = false) →
    ∃ t, exec c s = .next t ∧ t.flag PWR.REQSTAT.BUSY = true ∧ t.fld PWR.REQSTAT.STATUS = Status.OK.code ∧
      t.power = { s.power with trans := some (target, mask.toNat) } ∧ RegsBut s t [PWR.REQSTAT.BUSY.at_] ∧
      { t with power := s.power, regs := s.regs } = s) ∧
  (∀ (o : RegFrom) (mask : BitVec 8) (s : State), powerOpen s o → s.anyDomain = false → s.brake = false → s.cxl.committed = false →
    (∀ r ∈ s.records, r.2.stage = .none) → (∀ i, i < 64 → s.runState i ≠ runSaved) → ∃ t, exec (.pwrReqSlumber o mask) s = .next t ∧
      t.flag PWR.REQSTAT.BUSY = true ∧ t.power = { s.power with trans := some (3, mask.toNat) } ∧ t.life.snap = none ∧
      (1 ∈ t.life.waiting ∨ t.life.writing = some 1) ∧
      RegsBut s t [PWR.REQSTAT.BUSY.at_, LIFE.CTL.SNAP.at_, LIFE.STAT.BUSY.at_, LIFE.GEN.GEN.at_, LIFE.GEN.GEN.at_ + 4] ∧
      { t with power := s.power, life := s.life, regs := s.regs } = s) ∧
  (∀ (target mask : Nat) (fails : Bool) (s : State), s.tripped = false → s.fatal = false → s.slumber = false → target < 2 →
    s.power.trans = some (target, mask) → ∃ t, exec (.powerTransitionDone none fails) s = .next t ∧
      t.flag PWR.REQSTAT.BUSY = false ∧ t.power = { s.power with trans := none } ∧
      (∀ cl, cl < 8 → t.clusterPower cl = if bit mask cl && s.clusterPower cl = 2 then target else s.clusterPower cl) ∧
      RegsBut s t [PWR.REQSTAT.BUSY.at_, PWR.STATE.CLUSTER.at_] ∧ { t with power := s.power, regs := s.regs } = s) ∧
  (∀ (mask : Nat) (fails : Bool) (s : State), s.tripped = false → s.fatal = false → s.slumber = false →
    s.power.trans = some (2, mask) → ∃ t, exec (.powerTransitionDone none fails) s = .next t ∧ t.flag PWR.REQSTAT.BUSY = false ∧
      t.power.trans = none ∧ ∀ cl, cl < 8 → t.clusterPower cl = if bit mask cl && s.clusterPower cl ≠ 3 then 2 else s.clusterPower cl) ∧
  (∀ (mask : Nat) (fails : Bool) (s : State), s.tripped = false → s.fatal = false → s.slumber = false →
    s.power.trans = some (3, mask) → s.life.writing ≠ some 1 → 1 ∉ s.life.waiting →
    ∃ t, exec (.powerTransitionDone none fails) s = .next t ∧ t.slumber = true ∧ t.flag PWR.REQSTAT.BUSY = false ∧
      t.power = { s.power with trans := none, savedClusters := s.fld PWR.STATE.CLUSTER } ∧
      (∀ l, l < 24 → t.fld LINK.STAT.STATE l ≠ 2 ∧ t.fld LINK.STAT.STATE l ≠ 3) ∧
      (∀ m, m < 28 → t.fld MEMC.STAT.STATE m = if s.fld MEMC.STAT.STATE m = 2 then 3 else s.fld MEMC.STAT.STATE m)) ∧
  (∀ s : State, s.tripped = false → s.fatal = false → s.slumber = true → s.power.leaving = true →
    ∃ t, exec (.powerTransitionDone none true) s = .next t ∧ t.power = { s.power with leaving := false } ∧
      Quiet { s with power := t.power } t) ∧
  ∀ (cl : Fin 8) (fails : Bool) (s : State), s.tripped = false → s.fatal = false → bit s.power.waking cl = true → s.clusterPower cl = 2 →
    s.fld PWR.STATE.MODULE ≠ 2 → s.slumber = false → ∃ t, exec (.powerTransitionDone (some cl) fails) s = .next t ∧
      t.clusterPower cl = 0 ∧ t.fld PWR.STATE.MODULE = 0 ∧ (∀ j, j < 8 → j ≠ cl.val → t.clusterPower j = s.clusterPower j) ∧
      t.power = { s.power with waking := s.power.waking - 2 ^ cl.val } ∧ RegsBut s t [PWR.STATE.CLUSTER.at_] ∧
      { t with power := s.power, regs := s.regs } = s

/-- Clusters that idle (R454 to R456), rails that rise (R452) and the cap's groups (R459 to R461, R472): an idle cluster gates its clocks,
ungates them, and dozes after its time; a rail that reaches a voltage takes the islands raised for a preemption with it; at a group's end
the skip number moves by what was measured, and a new group begins. -/
def Sys2Proof.Claims.PowerManagement : Prop :=
  (∀ (cl : Fin 8) (s : State), s.clusterPower cl = 0 → s.recordsOn cl = [] → ∃ t, exec (.clusterIdleEntry cl) s = .next t ∧
    t.clusterPower cl = 1 ∧ (∀ j, j < 8 → j ≠ cl.val → t.clusterPower j = s.clusterPower j) ∧
    ClusterBecomes s t cl { s.clustersAt cl with gated := true } [PWR.STATE.CLUSTER.at_]) ∧
  (∀ (cl : Fin 8) (s : State), s.clusterPower cl = 1 → ∃ t, exec (.clusterUngate cl) s = .next t ∧
    ClusterBecomes s t cl { s.clustersAt cl with gated := false } []) ∧
  (∀ (cl : Fin 8) (s : State), s.fld PWR.CAPCTL.DOZETMO ≠ 0 → s.clusterPower cl = 1 →
    256 * s.fld PWR.CAPCTL.DOZETMO ≤ (s.clustersAt cl).idleEpochs → s.flag (HDR.OWNER.HOLD .CLUSTER) cl = false →
    (∀ p, p < 8 → s.flag (HDR.OWNER.HOLD .TILE) (8 * cl + p) = false) → s.placedOn (2 ^ cl.val) = false →
    ∃ t, exec (.dozeTimeout cl) s = .next t ∧ t.clusterPower cl = 2 ∧ (∀ j, j < 8 → j ≠ cl.val → t.clusterPower j = s.clusterPower j) ∧
      t.clustersAt cl = { s.clustersAt cl with idleEpochs := 0, gated := false } ∧ (∀ j, j ≠ cl.val → t.clustersAt j = s.clustersAt j) ∧
      (∀ i, i / 8 ≠ cl.val → t.tilesAt i = s.tilesAt i) ∧
      (∀ i, i / 8 = cl.val → s.runState i ≠ runSaved →
        t.tilesAt i = { ({} : Tile) with spares := (s.tilesAt i).spares, pinned := (s.tilesAt i).pinned }) ∧
      { t with clusters := s.clusters, tiles := s.tiles, regs := s.regs, errPages := s.errPages, deferred := s.deferred, held := s.held } = s) ∧
  (∀ (half : Fin 2) (op : Fin 6) (s : State), s.power.rail.getD half 0 < op.val → op.val ≤ s.power.ramp.getD half 0 →
    ∃ t, exec (.railRampDone half op) s = .next t ∧ t.power = { s.power with rail := s.power.rail.set half op } ∧
      (∀ i, i < 64 → t.opOf i = if s.power.raised.contains i && i / 32 = half.val then max (s.opOf i) (min 4 op.val) else s.opOf i) ∧
      RegsBut s t ((s.power.raised.filter fun i => i / 32 = half.val).map fun i => PWR.DVFS.CUR.at_ 0 i) ∧
      { t with power := s.power, regs := s.regs } = s) ∧
  ∀ (s : State) (sum cap skip next : Nat), 16 ≤ s.power.epochs → s.power.braking = false → sum = s.power.sum → cap = s.effectiveCap →
    skip = s.fld PWR.CAPCTL.SKIP →
    next = (if 16 * cap < sum then min 15 (skip + 1) else if sum < 16 * (cap - s.fld PWR.CAPCTL.HYST) then skip - 1 else skip) →
    ∃ t, exec .capGroupEnd s = .next t ∧ t.fld PWR.CAPCTL.SKIP = next ∧ t.power.epochs = 0 ∧ t.power.sum = 0 ∧
      t.power.overGroups = (if skip = 15 ∧ 16 * cap < sum then s.power.overGroups + 1 else 0) ∧
      t.flag PWR.CAPCTL.ALERT = decide (64 ≤ t.power.overGroups) ∧ t.regEff (PWR.CAP.CAP.addr 0 0) = s.regsAt (PWR.CAP.CAP.addr 0 0) ∧
      (next = skip → t.power.points = s.power.points) ∧ RegsBut s t [PWR.CAPCTL.SKIP.at_] ∧
      { t with power := s.power, regs := s.regs, deferred := s.deferred, out := s.out } = s

/-- The brake (R463), the regulators' alert (R526), the comparator's trip (R464) and a scan (R465 to R469): the brake is counted when it
begins, and takes every island to OP 1 at most outside deterministic mode; a trip ends every record and every domain and takes every link
down; a scan takes its readings and counts, the state stays where no transition leaves it, and the lowest-numbered transition whose
condition has held long enough enters its state. -/
def Obligations.BrakeAndGloaming : Prop :=
  (∀ s : State, s.power.brakePin = false → s.flag GLM.SOUT.BRAKE 0 (s.fld GLM.STAT.STATE) = false →
    ∃ t, exec .pwrBrakeAssert s = .next t ∧ t.power.brakePin = true ∧ t.power.braking = true ∧ 2 ∈ t.glm.events ∧
      t.fld PWR.MEAS.BRAKE = min (s.fld PWR.MEAS.BRAKE + 1) (2 ^ 16 - 1) ∧
      t.life = { s.life with counts := addCount s.life.counts 8 1 } ∧
      (∀ i, i < 64 → t.opOf i = if bit (s.regEff (EPOCH.CTL.DET.addr 0 0)).toNat 31 then s.opOf i else min 1 (s.opOf i)) ∧
      RegsBut s t (PWR.MEAS.BRAKE.at_ :: (List.range 64).map fun i => PWR.DVFS.CUR.at_ 0 i) ∧
      { t with power := s.power, glm := s.glm, life := s.life, regs := s.regs } = s) ∧
  (∀ s : State, s.power.brakePin = true → s.power.braked = [] → ∃ t, exec .pwrBrakeRelease s = .next t ∧
    t.power = { s.power with brakePin := false } ∧ 3 ∈ t.glm.events ∧ { t with power := s.power, glm := s.glm } = s) ∧
  (∀ s : State, ∃ t, exec .vrAlertN s = .next t ∧ Quiet s t ∧
    t.fld (HDR.ERR_CNT.COUNT .PWR) = min (s.fld (HDR.ERR_CNT.COUNT .PWR) + 1) (2 ^ (HDR.ERR_CNT.COUNT .PWR).width - 1)) ∧
  (∀ s : State, s.tripped = false → ∃ t, exec .thermalTrip s = .next t ∧ t.tripped = true ∧ t.glm.cut = false ∧
    (∀ r, t.recordsAt r = {}) ∧ t.anyDomain = false ∧ (∀ l, l < 24 → t.fld LINK.STAT.STATE l = 1) ∧
    (∀ cl, cl < 8 → t.clusterPower cl = 3) ∧ t.queues = s.queues ∧ t.sessions = s.sessions ∧ t.graphs = s.graphs ∧ t.ksets = s.ksets) ∧
  (∀ (xs : List (BitVec 16)) (s : State), xs.length = 96 →
    (∀ k, k < 64 → s.flag GLM.TRANS.VALID 0 k = false ∨ s.fld GLM.TRANS.FROM 0 k ≠ s.fld GLM.STAT.STATE) →
    ∃ t, exec (.gloamingScan xs) s = .next t ∧ t.fld GLM.STAT.STATE = s.fld GLM.STAT.STATE ∧
      t.fld GLM.STAT.SCANS = (s.fld GLM.STAT.SCANS + 1) % 2 ^ 16 ∧ t.glm.events = [] ∧ t.glm.first = false ∧ t.glm.holds = [] ∧
      (∀ n, n < 96 → n ≠ 92 → s.diesOff = false → t.fld GLM.SENSOR.VALUE 0 n = (xs.getD n 0).toNat) ∧
      t.fld GLM.SENSOR.VALUE 0 92 = bnat s.power.brakePin ∧
      (∀ c, c < 64 → s.flag GLM.FILT.VALID 0 c = false → t.chan c = 0) ∧
      (∀ a, a < (Page.GLM).base 0 ∨ (Page.GLM).base 0 + 0x1000 ≤ a → t.regsAt a = s.regsAt a) ∧
      { t with glm := s.glm, regs := s.regs } = s) ∧
  ∀ (xs : List (BitVec 16)) (s : State) (k : Nat), xs.length = 96 → k < 64 → s.flag GLM.TRANS.VALID 0 k = true →
    s.fld GLM.TRANS.FROM 0 k = s.fld GLM.STAT.STATE → s.fld GLM.TRANS.ACT 0 k = 0 → s.flag GLM.FILT.VALID 0 3 = false →
    s.power.emerg = false → (∀ j, j < k → s.flag GLM.TRANS.VALID 0 j = false ∨ s.fld GLM.TRANS.FROM 0 j ≠ s.fld GLM.STAT.STATE) →
    s.power.brakePin = true → ∃ t, exec (.gloamingScan xs) s = .next t ∧
      (s.fld GLM.TRANS.OP 0 k = 4 → s.fld GLM.TRANS.THRESH 0 k % 16 ∈ s.glm.events →
        t.fld GLM.STAT.STATE = s.fld GLM.TRANS.TO 0 k ∧ t.glm.holds = []) ∧
      (s.fld GLM.TRANS.OP 0 k = 1 → s.flag GLM.TRANS.CURV 0 k = false →
        signed (s.fld GLM.TRANS.THRESH 0 k) 16 ≤ t.chan (s.fld GLM.TRANS.CHAN 0 k) →
        s.fld GLM.TRANS.HOLD 0 k ≤ mapGet 0 s.glm.holds k + 1 →
        t.fld GLM.STAT.STATE = s.fld GLM.TRANS.TO 0 k ∧ t.glm.holds = [])

/-- The eight curves (R467): 16 points each, x in [15:0] and y in [31:16] of the point's word, both signed; with x strictly ascending the
threshold at x is the first point's y up to it, the last point's y from it, and between two neighbours the linear interpolation, rounded
toward −∞. -/
def Obligations.GloamingCurves : Prop :=
  ∀ (s : State) (c : Fin 8) (x : Int), let w (p : Nat) : Nat := (s.regsAt ((Page.GLM).base 0 + 0xD00 + 4 * (16 * c.val + p))).toNat
    let px (p : Nat) : Int := signed (w p % 2 ^ 16) 16
    let py (p : Nat) : Int := signed (w p / 2 ^ 16) 16
    (∀ p, p < 15 → px p < px (p + 1)) →
    (x ≤ px 0 → glmCurveAt (s.curvePoints c) x = py 0) ∧ (px 15 ≤ x → glmCurveAt (s.curvePoints c) x = py 15) ∧
    ∀ p, p < 15 → px p ≤ x → x ≤ px (p + 1) → ∀ v : Int, v = glmCurveAt (s.curvePoints c) x →
      (v - py p) * (px (p + 1) - px p) ≤ (py (p + 1) - py p) * (x - px p) ∧
      (py (p + 1) - py p) * (x - px p) < (v - py p + 1) * (px (p + 1) - px p)
/-! ### Errors, self-tests and the life log (ch. 20) -/

/-- A register read reaches its page and returns what the register holds (R500, R517). -/
def Sys2Proof.Claims.readable (s : State) (o : RegFrom) (p : Page) (n : Nat) : Prop :=
  s.tripped = false ∧ s.gate o p n = .pass ∧ s.pageOff p n = false

/-- The reply to a register read. -/
def Sys2Proof.Claims.readOut (o : RegFrom) (bs : List Byte) : Output :=
  match o with
  | .fn f => .reply (.bar f) Status.OK.pcie bs
  | .core k => .reply (.core k) Status.OK.code bs

/-- Registers as they are read (R10, R475): any word without a rule of its own returns what it shows and clears its fields of type RC, and
nothing else; of an error record the count is returned and cleared, and with it OVF, so that any error may take the record; the record's
first word latches the other seven, which are read from the latch until the last, or until they are late. -/
def Sys2Proof.Claims.ErrorReads : Prop :=
  (∀ (o : RegFrom) (page : BitVec 14) (k : BitVec 10) (p : Page) (n off a : Nat) (s : State), a = 4096 * page.toNat + 4 * k.toNat →
    bar0 a = some (p, n, off) → readable s o p n → (p.isWindow = true ∨ off < 0x40 ∨ 0x60 < off) →
    a ≠ EPOCH.COUNTLO.COUNT.addr 0 0 → a ≠ LIFE.DATA.DATA.addr 0 0 → (p ≠ .FN ∨ off ≠ FN.EPOCHLO.COUNT.off) →
    ∃ t, exec (.errCntRead o ⟨page, some k⟩) s = .next t ∧ t.out = s.out ++ [readOut o (natLe 4 (s.registerRead a).toNat)] ∧
      t.regsAt a = s.regsAt a &&& ~~~(BitVec.ofNat 32 (accMask (wordRows p n off) .RC)) ∧
      (∀ b, b ≠ a → t.regsAt b = s.regsAt b) ∧ { t with out := s.out, regs := s.regs } = s) ∧
  (∀ (o : RegFrom) (page : BitVec 14) (k : BitVec 10) (i : Fin 64) (f : Fld) (s : State),
    f ∈ [TILE.STRCNT.UNDERRUN, TILE.SPCNT.COLLIDE, TILE.LDGCNT.OVER, TILE.RESCNT.NONCANON, TILE.GZCNT.LOOKUPS] →
    f.addr i 0 = 4096 * page.toNat + 4 * k.toNat → readable s o .TILE i → ∃ t, exec (.errCntRead o ⟨page, some k⟩) s = .next t ∧
      t.fld f i = 0) ∧
  (∀ (o : RegFrom) (page : BitVec 14) (p : Page) (n : Nat) (s : State) (v : Nat), p.isWindow = false → n < p.count →
    p.base n = 4096 * page.toNat → readable s o p n → v = s.fld (HDR.ERR_CNT.COUNT p) n → ∃ t, exec (.errCntRead o ⟨page, none⟩) s = .next t ∧
      t.out = s.out ++ [readOut o (natLe 4 v)] ∧ t.fld (HDR.ERR_CNT.COUNT p) n = 0 ∧
      (v ≠ 0 → t.fld (HDR.ERR_LOG.OVF p) n = 0 ∧ (t.errPagesAt (p.base n)).free = true) ∧
      (v = 0 → { t with out := s.out } = s) ∧ Quiet s t) ∧
  (∀ (o : RegFrom) (page : BitVec 14) (p : Page) (n : Nat) (late : Bool) (s : State), p.isWindow = false → n < p.count →
    p.base n = 4096 * page.toNat → readable s o p n → ∃ t, exec (.errLogRead o page 0 late) s = .next t ∧
      t.out = s.out ++ [readOut o (natLe 4 (s.regsAt (p.base n + 0x40)).toNat)] ∧
      t.errPagesAt (p.base n) = { s.errPagesAt (p.base n) with
        latch := (List.range 7).map fun k => (s.regsAt (p.base n + 0x44 + 4 * k)).toNat } ∧
      (∀ a, a ≠ p.base n → t.errPagesAt a = s.errPagesAt a) ∧ { t with out := s.out, errPages := s.errPages } = s) ∧
  ∀ (o : RegFrom) (page : BitVec 14) (p : Page) (n : Nat) (w : Fin 8) (late : Bool) (s : State), p.isWindow = false → n < p.count →
    p.base n = 4096 * page.toNat → readable s o p n → w ≠ 0 → ∃ t, exec (.errLogRead o page w late) s = .next t ∧
      t.out = s.out ++ [readOut o (natLe 4 (if late || (s.errPagesAt (p.base n)).latch.isEmpty
        then (s.regsAt (p.base n + 0x40 + 4 * w)).toNat else (s.errPagesAt (p.base n)).latch.getD (w - 1) 0))] ∧
      t.errPagesAt (p.base n) = { s.errPagesAt (p.base n) with
        latch := if w = 7 ∨ late = true then [] else (s.errPagesAt (p.base n)).latch } ∧
      (∀ a, a ≠ p.base n → t.errPagesAt a = s.errPagesAt a) ∧ { t with out := s.out, errPages := s.errPages } = s

/-- The fatal state (R484) and requested self-tests (R482, R487): a fatal fault shows its cause, keeps its record, gives up a bank write,
takes the tiles' power and the domains, and tells the host; a legal request starts its test; its end reports the failing targets, retires
the clusters that failed LBIST, and otherwise changes nothing. -/
def Sys2Proof.Claims.FaultsAndSelfTests : Prop :=
  (∀ (cause : Fin 5) (s : State), s.tripped = false → s.fatal = false → ∃ t, exec (.fatalFault cause) s = .next t ∧ t.fatal = true ∧
    t.fld ERRSYS.STATE.CAUSE = cause.val + 1 ∧ t.life.fatal.isSome = true ∧ t.life.writing = none ∧ t.life.waiting = [] ∧
    (∀ cl, cl < 8 → t.clusterPower cl = 3) ∧ t.anyDomain = false ∧ (∃ l, t.out = s.out ++ l ++ [.pin "ALERT_N" false, .aer]) ∧
    t.fld RESET.BOOT.STAGE = (if s.ready = false ∧ s.fld RESET.BOOT.STAGE ≤ 0x20 then 0xFE else s.fld RESET.BOOT.STAGE) ∧
    t.records = s.records ∧ t.queues = s.queues ∧ t.links = s.links) ∧
  (∀ (cause : Fin 5) (s : State), s.tripped = true ∨ s.fatal = true → exec (.fatalFault cause) s = .next s) ∧
  (∀ (o : RegFrom) (target : BitVec 24) (s : State) (c : Instr) (test : Nat), s.takesWrite o .ERRSYS 0 = true →
    s.flag ERRSYS.STSTAT.BUSY = false → testTarget test target.toNat = true →
    (c, test) ∈ [(Instr.lbist o target, 1), (.kat o target, 2), (.patrol o target, 3), (.margin o target, 4), (.sensor o target, 5)] →
    (test = 1 → ∀ cl, cl < 8 → bit target.toNat cl = true → s.flag (HDR.OWNER.HOLD .CLUSTER) cl = false) →
    ∃ t, exec c s = .next t ∧ t.fld ERRSYS.STREQ.TARGET = target.toNat ∧ t.flag ERRSYS.STSTAT.BUSY = true ∧
      t.fld ERRSYS.STSTAT.TEST = test ∧ t.fld ERRSYS.STSTAT.FAIL = 0 ∧ t.fld ERRSYS.STSTATUS.STATUS = Status.OK.code ∧
      t.tests = { s.tests with test := test, target := target.toNat, started := decide (test ≠ 1) } ∧
      RegsBut s t [ERRSYS.STREQ.TARGET.at_, ERRSYS.STSTAT.BUSY.at_, ERRSYS.STSTATUS.STATUS.at_] ∧
      { t with regs := s.regs, tests := s.tests } = s) ∧
  (∀ (fail : BitVec 24) (ms : List Nat) (s : State), s.flag ERRSYS.STSTAT.BUSY = true → s.tests.started = true →
    s.tests.test ∈ [3, 4, 5] → (s.tests.test = 4 → s.fld LINK.STAT.STATE s.tests.target = 3) →
    ∃ t, exec (.selftestDone fail ms) s = .next t ∧ t.flag ERRSYS.STSTAT.BUSY = false ∧ t.fld ERRSYS.STSTAT.FAIL = fail.toNat ∧
      t.fld ERRSYS.STSTATUS.STATUS = Status.OK.code ∧ t.tests = { s.tests with test := 0, target := 0, started := false } ∧
      (∀ l, t.linksAt l = if s.tests.test = 4 ∧ l = s.tests.target then { s.linksAt l with margins := ms } else s.linksAt l) ∧
      RegsRest s t [ERRSYS.STSTAT.BUSY.at_, ERRSYS.STSTATUS.STATUS.at_] ∧
      { t with regs := s.regs, tests := s.tests, links := s.links, out := s.out } = s) ∧
  ∀ (fail : BitVec 24) (ms : List Nat) (s : State) (cl : Nat), s.flag ERRSYS.STSTAT.BUSY = true → s.tests.started = true →
    s.tests.test = 1 → cl < 8 → bit s.tests.target cl = true → bit fail.toNat cl = true → bit s.tests.retiring cl = false →
    bit (s.fld ERRSYS.STATE.RETIRED) cl = false → ∃ t, exec (.selftestDone fail ms) s = .next t ∧ t.flag ERRSYS.STSTAT.BUSY = false ∧
      bit (t.fld ERRSYS.STSTAT.FAIL) cl = true ∧ bit t.tests.retiring cl = true

/-- The words in which the life log's state shows. -/
def Sys2Proof.Claims.lifeWords : List Nat := [LIFE.STAT.BUSY.at_, LIFE.GEN.GEN.at_, LIFE.GEN.GEN.at_ + 4]

/-- The life log (R485, R488 to R491, R508): a bank write is asked for every four hours or on request, waits while another runs or a
snapshot holds the bank, and replaces the bank that does not hold the newest image by the next image; a snapshot fixes the bank that is
read and is released with LOST; a sample adds to one bin of each histogram and a minute to the power-on time. -/
def Obligations.LifeLogBanks : Prop :=
  (∀ s : State, s.fatal = false → s.tripped = false → ∃ t, exec .lifelogPeriodic s = .next t ∧
    (if s.life.writing = none ∧ s.life.snap = none then
      t.life.writing = (s.life.waiting ++ [0]).head? ∧ t.life.waiting = (s.life.waiting ++ [0]).tail
    else t.life = { s.life with waiting := s.life.waiting ++ [0] }) ∧
    RegsBut s t lifeWords ∧ { t with life := s.life, regs := s.regs } = s) ∧
  (∀ (r : Nat) (s : State) (l : LifeLog), s.life.writing = some r → s.life.waiting = [] →
    l = { s.life with writing := none, counts := [], hists := [], events := [],
                      sinceRequest := if r = 3 then some 0 else s.life.sinceRequest } →
    ∃ t, exec .lifelogWriteDone s = .next t ∧
      t.life = (if s.life.newest = some false then { l with bank1 := s.life.image r } else { l with bank0 := s.life.image r }) ∧
      t.flag LIFE.STAT.BUSY = false ∧ t.flag LIFE.STAT.VALID = true ∧ RegsBut s t lifeWords ∧
      { t with life := s.life, regs := s.regs } = s) ∧
  (∀ (l : LifeLog) (r : Nat) (b : LifeBank), b = (l.newest.map l.bank).getD {} → (l.image r).valid = true ∧
    (l.image r).gen = b.gen + 1 ∧ (l.image r).reason = r ∧ (l.image r).events = b.events + l.events.length ∧
    (b.head < 16128 → (l.image r).head = (b.head + l.events.length) % 16128)) ∧
  (∀ (shares : List Nat) (s : State), ∃ t, exec (.histogramSample shares) s = .next t ∧
    t.life.hists = addCounts s.life.hists ((s.histBins shares).zipIdx.map fun b => (16 * b.2 + b.1, 1)) (2 ^ 32 - 1) ∧
    t.life.counts = addCount s.life.counts 0 60 ∧ t.life.perturbed = 0 ∧ t.life.sinceRequest = s.life.sinceRequest.map (· + 60) ∧
    { t with life := s.life, tests := s.tests } = s) ∧
  (∀ (o : RegFrom) (s : State), s.takesWrite o .LIFE 0 = true → ∃ t, exec (.lifeReq o) s = .next t ∧
    (if s.life.writing ≠ none then t.fld LIFE.STAT.STATUS = Status.BUSY.code ∧ t.life = s.life
    else if s.life.sinceRequest.any (· < 3600) then t.fld LIFE.STAT.STATUS = Status.STATE.code ∧ t.life = s.life
    else t.fld LIFE.STAT.STATUS = Status.OK.code ∧ (s.life.snap = none → s.life.waiting = [] → t.life.writing = some 3) ∧
      (s.life.snap ≠ none → t.life.waiting = s.life.waiting ++ [3])) ∧
    RegsBut s t lifeWords ∧ { t with life := s.life, regs := s.regs } = s) ∧
  (∀ (o : RegFrom) (on : Bool) (s : State), s.takesWrite o .LIFE 0 = true → ∃ t, exec (.lifeSnap o on) s = .next t ∧
    t.flag LIFE.CTL.SNAP = on ∧ t.life.snap = (if on then s.life.snap.or (some (s.life.newest.getD false)) else none) ∧
    (on = true → { t.life with snap := s.life.snap } = s.life) ∧ RegsBut s t (LIFE.CTL.SNAP.at_ :: lifeWords) ∧
    { t with life := s.life, regs := s.regs } = s) ∧
  (∀ s : State, ∃ t, exec .lifeSnapTimeout s = .next t ∧ (s.life.snap = none → t = s) ∧
    (s.life.snap ≠ none → t.life.snap = none ∧ t.flag LIFE.CTL.SNAP = false ∧ t.flag LIFE.STAT.LOST = true ∧
      RegsBut s t (LIFE.CTL.SNAP.at_ :: lifeWords) ∧ { t with life := s.life, regs := s.regs } = s)) ∧
  ∀ (o : RegFrom) (s : State) (i : Nat), readable s o .LIFE 0 → i = s.fld LIFE.IDX.INDEX → ∃ t, exec (.lifeDataRead o) s = .next t ∧
    t.out = s.out ++ [readOut o (natLe 4 (if s.life.newest = none then 0 else
      (s.life.bank ((s.life.snap.or s.life.newest).getD false)).word (s.regSpan ((Page.CHIP).base 0 + 0x100) 2) i))] ∧
    t.fld LIFE.IDX.INDEX = (i + 1) % 2 ^ 17 ∧ RegsBut s t [LIFE.IDX.INDEX.at_] ∧ { t with out := s.out, regs := s.regs } = s
/-! ### Resets, boot and epochs (ch. 13, 19, 22) -/

/-- Compute, queues, sessions, links and firmware cores stand as after a reset (R502, R511), tile `k` being `tile k`. -/
def Sys2Proof.Claims.Restarted (t : State) (tile : Nat → Tile) : Prop :=
  (∀ k, t.tilesAt k = tile k) ∧ (∀ k, t.clustersAt k = {}) ∧ (∀ k, t.psetsAt k = {}) ∧ (∀ k, t.primesAt k = 0) ∧ (∀ k, t.ksetsAt k = {}) ∧
    (∀ k, t.graphsAt k = {}) ∧ (∀ k, t.contextsAt k = {}) ∧ (∀ k, t.queuesAt k = {}) ∧ (∀ k, t.sessionsAt k = {}) ∧
    (∀ k, t.recordsAt k = {}) ∧ (∀ k, t.linksAt k = {}) ∧ (∀ k, t.peersAt k = {}) ∧ (∀ k, t.memctlAt k = {}) ∧ (∀ k, t.coresAt k = {}) ∧
    (∀ k, t.deferredAt k = none) ∧ t.hash = {} ∧ t.serge = {} ∧ t.qe = {} ∧ t.epoch = {} ∧ t.txq = [] ∧ t.anyDomain = false

/-- Resets (R424, R454, R485, R502, R505, R510 to R512, R519, R536): POR and a brown-out clear both tiers too, sample the straps and boot
from stage 0x10, or 0x20 with SYSREF; WARM and a legal SWRST keep the tiers and the scratchpads' repairs (R249) and boot from stage 0x20; PERST resets the host's side and
keeps graphs, key sets, primes and parameter sets; loss of power keeps the life log's banks. -/
def Obligations.Resets : Prop :=
  (∀ (straps : BitVec 7) (sysref : Bool) (s : State) (c : Instr), c = .por straps sysref ∨ c = .vaonBrownout straps sysref →
    ∃ t, exec c s = .next t ∧ Restarted t (fun _ => {}) ∧ (∀ a, memByte t.mem a = 0) ∧ (∀ k, t.regionsAt k = {}) ∧ (∀ k, t.domainsAt k = {}) ∧
      (∀ k, t.pcieAt k = {}) ∧ t.sec = {} ∧ t.ready = false ∧ t.tripped = false ∧ t.fatal = false ∧
      t.fld RESET.BOOT.STAGE = (if sysref then 0x20 else 0x10) ∧ t.fld RESET.CAUSE.POR = 1 ∧ t.flag RESET.CAUSE.TRIPPED = s.tripped ∧
      t.fld STRAP.PINS.LEVEL = straps.toNat ∧ t.regsAt ((Page.STRAP).base 0 + 0x100) = straps.setWidth 32 ∧
      t.flag QE.MODE.SERVICE = s.fw.svc ∧ t.fld GLM.STAT.STATE = 0 ∧ t.glm.first = true ∧
      { t.fw with cache := s.fw.cache, links := s.fw.links, afterPor := s.fw.afterPor } = s.fw ∧
      (s.life.writing = none → t.life.bank0 = s.life.bank0 ∧ t.life.bank1 = s.life.bank1)) ∧
  (∀ (s : State) (c : Instr) (cause : Fld) (o : RegFrom), s.tripped = false →
    ((c, cause) = (.warmRstN, RESET.CAUSE.WARM) ∨ (c, cause) = (.swrst o 0x5752, RESET.CAUSE.SWRST) ∧ s.takesWrite o .RESET 0 = true ∧
      (o.world = .secure ∨ s.anyDomain = false)) →
    ∃ t, exec c s = .next t ∧ Restarted t (fun k => { ({} : Tile) with spares := (s.tilesAt k).spares, pinned := (s.tilesAt k).pinned }) ∧
      (∀ i : Fin 64, (s.tilesAt i).pinned.isSome = true → t.fld TILE.SPAD_SIZE.MAX i = 63) ∧
      (∀ a, a < spadBase 0 → memByte t.mem a = memByte s.mem a) ∧ t.ready = false ∧
      t.fatal = false ∧ t.fld RESET.BOOT.STAGE = 0x20 ∧ t.fld cause = 1 ∧ t.flag QE.MODE.SERVICE = s.flag QE.MODE.SERVICE ∧
      t.glm = s.glm ∧ t.pcie = s.pcie ∧ t.life.bank0 = s.life.bank0 ∧ t.life.bank1 = s.life.bank1 ∧ t.power.brakePin = s.power.brakePin) ∧
  (∀ (o : RegFrom) (key : BitVec 16) (s : State), s.takesWrite o .RESET 0 = true → key ≠ 0x5752 →
    RefusedWith (.swrst o key) s .RESET 0 .RANGE) ∧
  (∀ s : State, s.tripped = false → ∃ t, exec .perstN s = .next t ∧ t.fld RESET.CAUSE.PERST = 1 ∧ (∀ k, t.recordsAt k = {}) ∧
    (∀ k, t.queuesAt k = {}) ∧ (∀ k, t.sessionsAt k = {}) ∧ (∀ k, t.pcieAt k = {}) ∧ t.cxl = {} ∧ t.anyDomain = false ∧
    (∀ a, a < spadBase 0 → memByte t.mem a = memByte s.mem a) ∧ t.graphs = s.graphs ∧ t.primes = s.primes ∧ t.psets = s.psets ∧
    (∀ k, (t.ksetsAt k).live = (s.ksetsAt k).live) ∧ t.links = s.links ∧ t.glm = s.glm ∧ t.power = s.power ∧
    t.fld RESET.BOOT.STAGE = s.fld RESET.BOOT.STAGE ∧ t.ready = s.ready) ∧
  (∀ s : State, s.tripped = true → exec .perstN s = .next s ∧ exec .warmRstN s = .next s) ∧
  ∀ s : State, s.life.writing = none → ∃ t, exec .powerRemoval s = .next t ∧ Restarted t (fun _ => {}) ∧ (∀ a, memByte t.mem a = 0) ∧
    t.ready = false ∧ t.life.bank0 = s.life.bank0 ∧ t.life.bank1 = s.life.bank1 ∧ t.life.counts = [] ∧ t.life.events = []

/-- Boot (R406, R489, R513 to R516, R529, R536): a boot that waits for SYSREF goes on; verification boots each core type's better bank, or
its ROM, and starts training; the module that may declare itself ready does so in one step, with the device ID of a valid boot
configuration and the boot's bank write; the always-on clock falls back to the on-die oscillator, and returns. -/
def Obligations.Boot : Prop :=
  (∀ s : State, s.fld RESET.BOOT.STAGE = 0x10 → Sets .sysrefArrival s RESET.BOOT.STAGE 0 0 0x20) ∧
  (∀ s : State, s.fld RESET.BOOT.STAGE ∈ [0x20, 0x30] → s.fatal = false → s.tripped = false → ∃ t, exec .patchVerify s = .next t ∧
    t.fld RESET.BOOT.STAGE = 0x40 ∧
    (∀ k, k < 4 → let b := if s.recovery then none else s.bootBank k
      (t.patches k).booted = b.getD 0xFF ∧ ∀ n ∈ typePages k, t.flag FWC.STAT.VERIFIED n = b.isSome ∧
        t.flag FWC.STAT.PATCHED n = b.isSome ∧ t.fld FWC.STAT.BANK n = b.getD 0) ∧
    t.flag FWC.STAT.ALLOK = (!s.recovery && (List.range 4).all fun k => (s.bootBank k).isSome) ∧
    (∀ m, m < 28 → t.fld MEMC.STAT.STATE m = if s.recovery then s.fld MEMC.STAT.STATE m else 1) ∧
    (∀ l, l < 24 → t.fld LINK.STAT.STATE l =
      if s.recovery = false ∧ s.flag LINK.CTL.EN l = true then linkTRAINING else s.fld LINK.STAT.STATE l) ∧
    t.mem = s.mem ∧ t.queues = s.queues ∧ t.tiles = s.tiles) ∧
  (∀ s : State, s.mayReady = true → s.life.writing = none → s.life.waiting = [] → s.life.snap = none →
    ∃ t, exec .readyDeclare s = .next t ∧ t.ready = true ∧ t.fld RESET.BOOT.STAGE = 0xF0 ∧ t.doorbells = [] ∧
      (s.fw.boot.valid = true → s.fw.boot.signed = true → t.devId = s.fw.boot.dev % 2 ^ 16 ∧ t.flag ROUTER.CTL.READY = true) ∧
      t.life.writing = some 2 ∧ (s.life.fatal ≠ none → t.flag RESET.CAUSE.FATALREC = true ∧ t.life.fatal = none)) ∧
  (∀ s : State, s.glm.oscillator = false → ∃ t, exec .aonclkLoss s = .next t ∧ t.glm = { s.glm with oscillator := true } ∧
    Quiet { s with glm := t.glm } t) ∧
  ∀ s : State, exec .aonclkRestore s = .next { s with glm := { s.glm with oscillator := false } }

/-- Epochs (R303 to R308, R321, R366, R401, R459): a boundary counts the epoch, brings every value that waited for it into effect and
measures power; EPOCH.STAT reads as the last boundary left it; a pulse's error is counted from DELAY cycles after the own boundary; a
follower acquires, captures with a slew of at most 64, counts misses and loses lock at the eighth; a read of the low
count latches the high one; ESET sends the count. -/
def Obligations.Epochs : Prop :=
  (∀ (power : BitVec 16) (s : State), s.slumber = false → s.tripped = false → ∃ t, exec (.epochBoundary power) s = .next t ∧
    t.epochCount = (s.epoch.setTo.getD (s.epochCount + 1)) % 2 ^ 64 ∧ t.fld PWR.MEAS.POWER = power.toNat ∧
    t.power.epochs = s.power.epochs + 1 ∧ t.power.sum = s.power.sum + power.toNat ∧
    (∀ a, waitsLonger a = false → t.deferredAt a = none)) ∧
  (∀ (power : BitVec 16) (s : State), s.slumber = true ∨ s.tripped = true → exec (.epochBoundary power) s = .next s) ∧
  (∀ (at_ : Int) (s : State), s.syncError at_ = at_ - ((begin s).fldEff EPOCH.SYNCDLY.DELAY : Nat)) ∧
  (∀ s : State, s.pageOff .EPOCH 0 = false → (s.registerRead (EPOCH.STAT.ERR.addr 0 0)).toNat = s.epoch.shown % 2 ^ 32 &&& (definedMask (EPOCH.STAT.ERR.addr 0 0)).toNat) ∧
  (∀ (at_ e : Int) (s : State), e = s.syncError at_ → (begin s).follows = true → s.flag EPOCH.STAT.ACQ = true →
    ∃ t, exec (.syncInPulse at_) s = .next t ∧
    t.flag EPOCH.STAT.ACQ = false ∧ t.flag EPOCH.STAT.LOST = false ∧ t.epoch = { s.epoch with taken := true, good := 0, slew := e } ∧
    RegsBut s t [EPOCH.STAT.ACQ.at_] ∧ { t with regs := s.regs, epoch := s.epoch } = s) ∧
  (∀ (at_ e : Int) (s : State) (good : Nat), e = s.syncError at_ → (begin s).follows = true → s.flag EPOCH.STAT.ACQ = false →
    s.epoch.taken = false → e.natAbs ≤ 512 → good = (if e.natAbs ≤ 16 then s.epoch.good + 1 else 0) →
    ∃ t, exec (.syncInPulse at_) s = .next t ∧
      t.epoch = { s.epoch with taken := true, slew := max (-64) (min 64 e), good := good } ∧
      t.fld EPOCH.STAT.ERR = (e % 2 ^ 11).toNat ∧ t.fld EPOCH.STAT.MISS = 0 ∧
      t.flag EPOCH.STAT.LOCKED = (s.flag EPOCH.STAT.LOCKED || decide (4 ≤ good)) ∧
      t.fld EPOCH.SYNCCNT.CLAMP = (if 64 < e.natAbs then min (s.fld EPOCH.SYNCCNT.CLAMP + 1) (2 ^ 16 - 1)
        else s.fld EPOCH.SYNCCNT.CLAMP) ∧
      RegsRest s t [EPOCH.STAT.ERR.at_, EPOCH.SYNCCNT.CLAMP.at_] ∧ { t with regs := s.regs, epoch := s.epoch, out := s.out } = s) ∧
  (∀ s : State, (begin s).follows = true → s.flag EPOCH.STAT.ACQ = false → s.epoch.taken = false → ∃ t, exec .syncMiss s = .next t ∧
    (s.fld EPOCH.STAT.MISS < 7 → t.fld EPOCH.STAT.MISS = s.fld EPOCH.STAT.MISS + 1 ∧
      t.epoch = { s.epoch with good := 0, slew := 0 } ∧ RegsBut s t [EPOCH.STAT.MISS.at_] ∧
      { t with regs := s.regs, epoch := s.epoch } = s) ∧
    (s.fld EPOCH.STAT.MISS = 7 → t.flag EPOCH.STAT.LOCKED = false ∧ t.flag EPOCH.STAT.ACQ = true ∧ t.flag EPOCH.STAT.LOST = true ∧
      t.fld EPOCH.STAT.MISS = 0 ∧ t.fld EPOCH.SYNCCNT.LOSTCNT = min (s.fld EPOCH.SYNCCNT.LOSTCNT + 1) (2 ^ 16 - 1))) ∧
  (∀ (o : RegFrom) (fn : Option (Fin 64)) (s : State) (p : Page) (n key : Nat),
    (p, n, key) = (match fn with | none => (.EPOCH, 0, 0) | some f => (.FN, f.val, 1 + f.val)) → readable s o p n →
    ∃ t, exec (.epochCountloRead o fn) s = .next t ∧ t.out = s.out ++ [readOut o (natLe 4 (s.fld EPOCH.COUNTLO.COUNT))] ∧
      t.epoch = { s.epoch with latch := mapInsert s.epoch.latch key (s.fld EPOCH.COUNTHI.COUNT) } ∧
      { t with out := s.out, epoch := s.epoch } = s) ∧
  (∀ (o : RegFrom) (s : State), s.takesWrite o .ROUTER 0 = true → exec (.esetSend o true) s =
    .next { s with epoch := { s.epoch with esetWaits := true } }) ∧
  ∀ (o : RegFrom) (s : State), s.takesWrite o .ROUTER 0 = true → (begin s).role = 1 → s.flag ROUTER.ESETDST.MC = false →
    s.fld ROUTER.ESETDST.DST ≠ s.devId → ∃ (t : State) (p : Packet) (rest : List Byte), exec (.esetSend o false) s = .next t ∧
      t.txq = s.txq ++ [{ packet := p }] ∧ p.type = ptEPOCHSET ∧ p.mc = false ∧ p.dst = s.fld ROUTER.ESETDST.DST ∧ p.src = s.devId ∧
      p.ttl = s.fld ROUTER.CTL.TTL ∧ p.payload = natLe 8 s.epochCount ++ rest ∧ rest.length = 56 ∧
      { t with txq := s.txq, fresh := s.fresh } = s

/-! ### Statements in several parts -/

/-- An engine or scalar instruction that does not issue: held by an unmet WAIT condition or a pipe that is at work (R73, R122, R197,
R206); refused with its status, or trapped by the ledger (R48, R205, R214, R475). -/
def Obligations.EngineHoldsAndTraps : Prop := UnmetWaitHolds ∧ EngineHolds ∧ EngineRefuses ∧ EngineLedgerTraps

/-- An engine instruction that issues and stalls on an inbound queue (R16, R92), and one that meets a poisoned source line (R52, R478). -/
def Obligations.EngineStallsAndPoison : Prop := EngineUnderruns ∧ EngineStopsOnPoison

/-- Percale's element operations on 32-bit integers: arithmetic and logic, shifts, comparison and choice, saturating sums (R178). MULH,
MIN and MAX signed, CMP's codes and SEL's mask bit are the model's choice (log entry 22). -/
def Obligations.PercaleElements : Prop := PercaleInteger ∧ PercaleShiftCompare ∧ PercaleSaturating

/-- Percale's modular operations on tile registers, by vectors and by a constant (R64, R177, R208). -/
def Obligations.PercaleModularForms : Prop := PercaleModular ∧ PercaleModularConstant

/-- Percale's floating point: arithmetic, comparison and conversion (R182 to R187). -/
def Obligations.PercaleFloatForms : Prop := PercaleFloat ∧ PercaleCompareConvert

/-- Percale's transposition, operand cache and flags (R173, R180, R188, R189). -/
def Obligations.PercaleTransposeAndCache : Prop := PercaleTranspose ∧ PercaleOperandCache ∧ PercaleFlagsGather

/-- NTT, INTT and AUT on limbs in raw mode (R76 to R79, R81, R84). -/
def Obligations.TransformsOfLimbs : Prop := LimbTransforms ∧ LimbAutomorphism

/-- MUL, MULC and TENS on limbs in raw mode (R81). -/
def Obligations.ProductsOfLimbs : Prop := LimbProducts ∧ LimbTensor

/-- LIFT, RESC and LDROP on limbs in raw mode (R69, R70, R81, R89, R109, R181). -/
def Obligations.RescaledLimbs : Prop := LimbRescale ∧ LimbDrop

/-- CADD, CSUB and PADD on limbs in raw mode, and Percale's modular operations and integer ADD, SUB, MUL, AND, OR and XOR in stream form
(R64, R177 to R180). -/
def Obligations.SumsOfLimbs : Prop := LimbSums ∧ LimbElements ∧ LimbIntegers

/-- The accumulator banks and basis conversion (R67, R68, R74, R81, R87, R88, R110). -/
def Obligations.BanksAndConversion : Prop := AccumulatorBanks ∧ BasisConversion

/-- Gauze: the order of its macros, the bundle that EXTRACT leaves waiting, and what each macro writes or, of a BLINDROT, begins (R154, R155,
R160 to R166, R168). -/
def Obligations.GauzeMacros : Prop :=
  GauzeOrder ∧ ExtractHoldsBundle ∧ LweKsEndsBundle ∧ LweKsScatters ∧ ModswSwitches ∧ BlindrotStarts ∧ RepackWrites

/-- The access unit: what issues; the operand cache's lines; MOVE and MOVEO within this module; and the programs, key streams and weight
streams that open (R112, R115, R129 to R132, R173, R174, R196, R197, R212, R214, R262, R277, R283, R284, R342). -/
def Obligations.AccessUnit : Prop :=
  AccessIssues ∧ OperandCacheLines ∧ LinesMove ∧ ProgramStarts ∧ KeyStreamOpens ∧ WeightStreamOpens

/-- A tile's run state: control from outside, and the switch of its context (R223 to R229). -/
def Obligations.RunStates : Prop := RunControl ∧ ContextSwitch

/-- Doorbells and queue commands (R23, R382, R390 to R392, R518). -/
def Obligations.QueuesFromOutside : Prop := Doorbells ∧ QueueCommands

/-- Sessions, from their opening to their end (R380, R395 to R400). -/
def Obligations.Sessions : Prop := SessionControl ∧ SessionEnds

/-- The mailbox's service and the tables it loads (R409 to R416). -/
def Obligations.Mailbox : Prop := MailboxService ∧ MailboxTables

/-- A peer link's states and its packets (R345 to R350). -/
def Obligations.PeerLinks : Prop := LinkStates ∧ LinkPackets

/-- The hash unit and Serge (R440 to R448). -/
def Obligations.CryptoUnits : Prop := HashUnit ∧ Serge

/-- PWR.REQ and power management (R452, R454 to R461, R472, R489). -/
def Obligations.PowerStates : Prop := PowerRequests ∧ PowerManagement

/-- Registers and error records as they are read, the fatal state and requested self-tests (R10, R475, R482, R484, R487). -/
def Obligations.ErrorsAndSelfTests : Prop := ErrorReads ∧ FaultsAndSelfTests
end

