-- ==== Sys2Proof/Laws/Bar0.lean ====
section
/-!
SUPPORT. The layout of BAR0: no two pages share an offset, so an offset written as base plus offset in the page decodes to
just that page (`bar0_base`).
-/

namespace Sys2Proof.Machine

/-- Where the pages of a type begin. -/
def Page.lo (p : Page) : Nat := p.base 0
/-- Where they end. -/
def Page.top (p : Page) : Nat := p.base (p.count - 1) + p.size

theorem Page.within (p : Page) (n o : Nat) (hn : n < p.count) (ho : o < p.size) :
    p.lo ≤ p.base n + o ∧ p.base n + o < p.top := by
  cases p <;> simp [Page.lo, Page.top, Page.base, Page.count, Page.size] at * <;> (try split_ifs) <;> omega

/-- Page types whose pages alternate in BAR0. -/
def Page.mixes (p q : Page) : Bool :=
  [Page.FN, .MBOX, .MSIX, .PBA].contains p && [Page.FN, .MBOX, .MSIX, .PBA].contains q ||
  [Page.CLUSTER, .MUSLIN, .SCACHE].contains p && [Page.CLUSTER, .MUSLIN, .SCACHE].contains q

theorem mem_allPages (p : Page) : p ∈ allPages := by cases p <;> decide

theorem stretches_apart : allPages.all (fun p => allPages.all fun q =>
    p = q || p.mixes q || p.top ≤ q.lo || q.top ≤ p.lo) = true := by decide +kernel

/-- No offset lies in pages of two types. -/
theorem pages_apart (p q : Page) (n m o : Nat) (hn : n < p.count) (hm : m < q.count) (ho : o < p.size) (h : p ≠ q) :
    ¬ (q.base m ≤ p.base n + o ∧ p.base n + o < q.base m + q.size) := by
  rintro ⟨h1, h2⟩
  have hp := p.within n o hn ho
  have hq := q.within m (p.base n + o - q.base m) hm (by omega)
  have := List.all_eq_true.mp (List.all_eq_true.mp stretches_apart p (mem_allPages p)) q (mem_allPages q)
  simp only [Bool.or_eq_true, decide_eq_true_eq] at this
  rcases this with ((this | this) | this) | this
  · exact h this
  · simp only [Page.mixes, Bool.or_eq_true, Bool.and_eq_true, List.contains_iff_mem, List.mem_cons, List.not_mem_nil,
      or_false] at this
    rcases this with ⟨hp' | hp' | hp' | hp', hq' | hq' | hq' | hq'⟩ | ⟨hp' | hp' | hp', hq' | hq' | hq'⟩ <;>
      subst hp' <;> subst hq' <;>
      simp only [Page.base, Page.count, Page.size] at * <;> first | exact absurd rfl h | omega
  · omega
  · omega

/-- No offset lies in two pages of one type. -/
theorem Page.base_apart (p : Page) (n m o : Nat) (hn : n < p.count) (hm : m < p.count) (h : m ≠ n) (ho : o < p.size) :
    ¬ (p.base m ≤ p.base n + o ∧ p.base n + o < p.base m + p.size) := by
  cases p <;> simp only [Page.base, Page.count, Page.size] at * <;> (try split_ifs) <;> omega

theorem findSome?_of_mem {α β : Type} (f : α → Option β) (l : List α) (x : α) (hx : x ∈ l)
    (h : ∀ y ∈ l, y ≠ x → f y = none) : l.findSome? f = f x := by
  induction l with
  | nil => simp at hx
  | cons y l ih =>
    by_cases hy : y = x
    · subst hy
      cases hf : f y with
      | some b => simp [hf]
      | none =>
        rw [List.findSome?_cons_of_isNone (by simp [hf]), List.findSome?_eq_none_iff]
        intro z hz
        by_cases hzy : z = y
        · rw [hzy, hf]
        · exact h z (List.mem_cons_of_mem _ hz) hzy
    · rw [List.findSome?_cons_of_isNone (by simp [h y (by simp) hy])]
      have hx' : x ∈ l := by
        rcases List.mem_cons.mp hx with e | e
        · exact absurd e.symm hy
        · exact e
      exact ih hx' fun z hz => h z (List.mem_cons_of_mem _ hz)

theorem Page.locate_base (p : Page) (n o : Nat) (hn : n < p.count) (ho : o < p.size) :
    p.locate (p.base n + o) = some (n, o) := by
  unfold Page.locate
  rw [findSome?_of_mem _ _ n (List.mem_range.mpr hn) fun m hm hne =>
    if_neg (p.base_apart n m o hn (List.mem_range.mp hm) hne ho)]
  simp [ho]

theorem Page.locate_other (p q : Page) (n o : Nat) (hn : n < p.count) (ho : o < p.size) (h : q ≠ p) :
    q.locate (p.base n + o) = none := by
  unfold Page.locate
  rw [List.findSome?_eq_none_iff]
  intro m hm
  exact if_neg (pages_apart p q n m o hn (List.mem_range.mp hm) ho (Ne.symm h))

/-- BAR0 decodes base plus offset to the page and the offset. -/
theorem bar0_base (p : Page) (n o : Nat) (hn : n < p.count) (ho : o < p.size)
    (hx : ((p = .MSIX || p = .PBA) && n = 0) = false) : bar0 (p.base n + o) = some (p, n, o) := by
  unfold bar0
  rw [findSome?_of_mem _ _ p (mem_allPages p) fun q _ hq => by rw [p.locate_other q n o hn ho hq]; rfl]
  rw [p.locate_base n o hn ho]
  simp only [Option.map_some, Option.filter_some, hx, Bool.not_false, if_true]

theorem definedMask_base (p : Page) (n o : Nat) (hn : n < p.count) (ho : o < p.size)
    (hx : ((p = .MSIX || p = .PBA) && n = 0) = false) :
    definedMask (p.base n + o) = BitVec.ofNat 32 (rowsMask (wordRows p n o)) := by
  unfold definedMask; rw [bar0_base p n o hn ho hx]

theorem resetWord_base (p : Page) (n o : Nat) (hn : n < p.count) (ho : o < p.size)
    (hx : ((p = .MSIX || p = .PBA) && n = 0) = false) :
    resetWord (p.base n + o) = BitVec.ofNat 32 (rowsReset (wordRows p n o)) := by
  unfold resetWord; rw [bar0_base p n o hn ho hx]

end Sys2Proof.Machine
end

