-- ==== Sys2Proof/Laws/Maps.lean ====
section
/-!
SUPPORT. Laws of the sparse maps and of sparse memory: what a read gives after a write, and that every operation keeps
the canonical form.
-/

namespace Sys2Proof.Machine

variable {α : Type}

/-! ### Reads after writes -/

theorem mapGet_mapErase (d : α) (m : SMap α) (k j : Nat) :
    mapGet d (mapErase m k) j = if j = k then d else mapGet d m j := by
  induction m with
  | nil => simp [mapErase, mapGet]
  | cons kv m ih =>
    obtain ⟨i, v⟩ := kv
    by_cases hk : k = i <;> by_cases hj : j = i <;> simp_all [mapErase, mapGet]
    intro h; exact absurd h.symm hk

theorem mapGet_mapInsert (d : α) (m : SMap α) (k : Nat) (x : α) (j : Nat) :
    mapGet d (mapInsert m k x) j = if j = k then x else mapGet d m j := by
  induction m with
  | nil => simp [mapInsert, mapGet]
  | cons kv m ih =>
    obtain ⟨i, v⟩ := kv
    by_cases hk : k = i
    · subst hk; by_cases hj : j = k <;> simp [mapInsert, mapGet, hj]
    · by_cases hl : k < i
      · by_cases hj : j = k <;> simp [mapInsert, mapGet, hj, hk, hl]
      · by_cases hj : j = i
        · subst hj; simp [mapInsert, mapGet, hk, hl, Ne.symm hk]
        · simp [mapInsert, mapGet, hk, hl, hj, ih]

theorem mapGet_mapPut [DecidableEq α] (d : α) (m : SMap α) (k : Nat) (x : α) (j : Nat) :
    mapGet d (mapPut d m k x) j = if j = k then x else mapGet d m j := by
  unfold mapPut
  split
  · rw [mapGet_mapErase]; split <;> simp_all
  · exact mapGet_mapInsert ..

theorem mapGet_mapPut_same [DecidableEq α] (d : α) (m : SMap α) (k : Nat) (x : α) :
    mapGet d (mapPut d m k x) k = x := by simp [mapGet_mapPut]

/-- A write at another key leaves a read alone, whatever the two keys read as unlisted. -/
theorem mapGet_mapPut_other [DecidableEq α] (d e : α) (m : SMap α) (k : Nat) (x : α) (j : Nat) (h : j ≠ k) :
    mapGet d (mapPut e m k x) j = mapGet d m j := by
  unfold mapPut
  split <;> simp [mapGet_mapErase, mapGet_mapInsert, h]

/-! ### The canonical form -/

theorem mapSorted_cons (i : Nat) (x : α) (m : SMap α) :
    mapSorted ((i, x) :: m) = true ↔ (∀ kv ∈ m, i < kv.1) ∧ mapSorted m = true := by
  induction m generalizing i x with
  | nil => simp [mapSorted]
  | cons kv m ih =>
    obtain ⟨j, y⟩ := kv
    constructor
    · intro h
      have h1 : i < j ∧ mapSorted ((j, y) :: m) = true := by simpa [mapSorted] using h
      refine ⟨fun kv hk => ?_, h1.2⟩
      rcases List.mem_cons.mp hk with rfl | hk
      · exact h1.1
      · exact lt_trans h1.1 (((ih j y).mp h1.2).1 kv hk)
    · rintro ⟨h1, h2⟩
      have := h1 (j, y) (by simp)
      simp [mapSorted, h2, this]

theorem mem_mapErase (m : SMap α) (k : Nat) (kv : Nat × α) (h : kv ∈ mapErase m k) : kv ∈ m ∧ kv.1 ≠ k := by
  induction m with
  | nil => simp [mapErase] at h
  | cons c m ih =>
    obtain ⟨i, v⟩ := c
    by_cases hk : k = i
    · simp only [mapErase, hk, if_true] at h
      have := ih (by rw [hk]; exact h)
      exact ⟨List.mem_cons_of_mem _ this.1, this.2⟩
    · simp only [mapErase, hk, if_false, List.mem_cons] at h
      rcases h with rfl | h
      · exact ⟨by simp, fun e => hk e.symm⟩
      · exact ⟨List.mem_cons_of_mem _ (ih h).1, (ih h).2⟩

theorem mem_mapInsert (m : SMap α) (k : Nat) (x : α) (kv : Nat × α) (h : kv ∈ mapInsert m k x) : kv = (k, x) ∨ kv ∈ m := by
  induction m with
  | nil => simpa [mapInsert] using h
  | cons c m ih =>
    obtain ⟨i, v⟩ := c
    by_cases hk : k = i
    · simp only [mapInsert, hk, if_true, List.mem_cons] at h ⊢; tauto
    · by_cases hl : k < i
      · simp only [mapInsert, hk, hl, if_true, if_false, List.mem_cons] at h ⊢; tauto
      · simp only [mapInsert, hk, hl, if_false, List.mem_cons] at h ⊢
        rcases h with h | h
        · tauto
        · have := ih h; tauto

theorem mapSorted_mapErase (m : SMap α) (k : Nat) (h : mapSorted m = true) : mapSorted (mapErase m k) = true := by
  induction m with
  | nil => simp [mapErase, mapSorted]
  | cons c m ih =>
    obtain ⟨i, v⟩ := c
    have hs := (mapSorted_cons i v m).mp h
    by_cases hk : k = i
    · simpa [mapErase, hk] using hk ▸ ih hs.2
    · simp only [mapErase, hk, if_false, mapSorted_cons]
      exact ⟨fun kv hkv => hs.1 kv (mem_mapErase m k kv hkv).1, ih hs.2⟩

theorem mapSorted_mapInsert (m : SMap α) (k : Nat) (x : α) (h : mapSorted m = true) :
    mapSorted (mapInsert m k x) = true := by
  induction m with
  | nil => simp [mapInsert, mapSorted]
  | cons c m ih =>
    obtain ⟨i, v⟩ := c
    have hs := (mapSorted_cons i v m).mp h
    by_cases hk : k = i
    · subst hk; simp only [mapInsert, if_true, mapSorted_cons]; exact hs
    · by_cases hl : k < i
      · simp only [mapInsert, hk, hl, if_true, if_false, mapSorted_cons]
        refine ⟨fun kv hkv => ?_, hs.1, hs.2⟩
        rcases List.mem_cons.mp hkv with rfl | hkv
        · exact hl
        · exact lt_trans hl (hs.1 kv hkv)
      · simp only [mapInsert, hk, hl, if_false, mapSorted_cons]
        refine ⟨fun kv hkv => ?_, ih hs.2⟩
        rcases mem_mapInsert m k x kv hkv with rfl | hkv
        · simp only; omega
        · exact hs.1 kv hkv

theorem mapWf_iff [DecidableEq α] (d : Nat → α) (m : SMap α) :
    mapWf d m = true ↔ mapSorted m = true ∧ ∀ kv ∈ m, kv.2 ≠ d kv.1 := by
  simp only [mapWf, Bool.and_eq_true, List.all_eq_true, decide_eq_true_eq]

/-- A write keeps a map canonical. -/
theorem mapWf_mapPut [DecidableEq α] (d : Nat → α) (m : SMap α) (k : Nat) (x : α) (h : mapWf d m = true) :
    mapWf d (mapPut (d k) m k x) = true := by
  rw [mapWf_iff] at h ⊢
  unfold mapPut
  split
  · exact ⟨mapSorted_mapErase m k h.1, fun kv hk => h.2 kv (mem_mapErase m k kv hk).1⟩
  · refine ⟨mapSorted_mapInsert m k x h.1, fun kv hk => ?_⟩
    rcases mem_mapInsert m k x kv hk with rfl | hk
    · assumption
    · exact h.2 kv hk

/-! ### Memory -/

theorem mapGet_append (d : α) (l m : SMap α) (j : Nat) :
    mapGet d (l ++ m) j = if l.any (fun c => c.1 = j) then mapGet d l j else mapGet d m j := by
  induction l with
  | nil => simp
  | cons c l ih =>
    obtain ⟨i, v⟩ := c
    by_cases h : j = i
    · simp [mapGet, h]
    · have hd : decide (i = j) = false := decide_eq_false fun e => h e.symm
      simp only [List.cons_append, mapGet, h, if_false, ih, List.any_cons, hd, Bool.false_or]

theorem mapGet_absent (d : α) (m : SMap α) (j : Nat) (h : ∀ kv ∈ m, kv.1 ≠ j) : mapGet d m j = d := by
  induction m with
  | nil => rfl
  | cons c m ih =>
    obtain ⟨i, v⟩ := c
    have hi : j ≠ i := fun e => h (i, v) (by simp) e.symm
    simp only [mapGet, hi, if_false]
    exact ih fun kv hk => h kv (List.mem_cons_of_mem _ hk)

theorem mapGet_filter (d : α) (p : Nat → Bool) (m : SMap α) (j : Nat) (hp : p j = true) :
    mapGet d (m.filter fun c => p c.1) j = mapGet d m j := by
  induction m with
  | nil => rfl
  | cons c m ih =>
    obtain ⟨i, v⟩ := c
    by_cases h : j = i
    · subst h; simp [List.filter, hp, mapGet]
    · cases hq : p i <;> simp [List.filter, hq, mapGet, h, ih]

theorem cellsOf_range (a : Nat) (bs : List Byte) (kv : Nat × Byte) (h : kv ∈ cellsOf a bs) :
    a ≤ kv.1 ∧ kv.1 < a + bs.length ∧ kv.2 ≠ 0 := by
  induction bs generalizing a with
  | nil => simp [cellsOf] at h
  | cons b bs ih =>
    unfold cellsOf at h
    simp only [List.length_cons]
    split at h
    · have := ih (a + 1) h; refine ⟨?_, ?_, this.2.2⟩ <;> omega
    · rcases List.mem_cons.mp h with rfl | h
      · refine ⟨?_, ?_, by assumption⟩ <;> simp
      · have := ih (a + 1) h; refine ⟨?_, ?_, this.2.2⟩ <;> omega

theorem mapGet_cellsOf (a : Nat) (bs : List Byte) (j : Nat) :
    mapGet 0 (cellsOf a bs) j = if a ≤ j then bs.getD (j - a) 0 else 0 := by
  induction bs generalizing a with
  | nil => simp [cellsOf, mapGet]
  | cons b bs ih =>
    unfold cellsOf
    rcases Nat.lt_trichotomy j a with h | h | h
    · have h1 : ¬ a ≤ j := by omega
      have h2 : ¬ a + 1 ≤ j := by omega
      split
      · rw [ih]; simp [h1, h2]
      · rw [mapGet, if_neg (by omega), ih]; simp [h1, h2]
    · subst h
      split
      · rename_i hb; rw [ih]; simp [hb]
      · simp [mapGet]
    · have h1 : a ≤ j := by omega
      have h2 : a + 1 ≤ j := by omega
      have h3 : j - a = (j - (a + 1)) + 1 := by omega
      split
      · rw [ih]; simp [h1, h2, h3]
      · rw [mapGet, if_neg (by omega), ih]; simp [h1, h2, h3]

/-- A byte read after a run of bytes was written at `a`: the written byte inside the run, the old one outside it. -/
theorem memByte_memWriteBytes (m : SMap Byte) (a : Nat) (bs : List Byte) (j : Nat) :
    memByte (memWriteBytes m a bs) j = if a ≤ j ∧ j < a + bs.length then bs.getD (j - a) 0 else memByte m j := by
  unfold memByte memWriteBytes
  rw [List.append_assoc, mapGet_append, mapGet_append]
  by_cases h1 : j < a
  · rw [if_neg (by omega : ¬(a ≤ j ∧ j < a + bs.length))]
    split
    · exact mapGet_filter 0 (fun i => decide (i < a)) m j (by simpa using h1)
    · rename_i hn
      have hm : mapGet (0 : Byte) m j = 0 := by
        rw [← mapGet_filter 0 (fun i => decide (i < a)) m j (by simpa using h1)]
        refine mapGet_absent _ _ _ fun kv hk e => hn ?_
        exact List.any_eq_true.mpr ⟨kv, hk, by simpa using e⟩
      rw [hm]
      split
      · rw [mapGet_cellsOf, if_neg (by omega)]
      · exact mapGet_absent _ _ _ fun kv hk => by
          have := (List.mem_filter.mp hk).2
          simp only [decide_eq_true_eq] at this; omega
  · have hf : (m.filter fun c => decide (c.1 < a)).any (fun c => c.1 = j) = false := by
      rw [Bool.eq_false_iff]
      intro h
      obtain ⟨kv, hk, he⟩ := List.any_eq_true.mp h
      have := (List.mem_filter.mp hk).2
      simp only [decide_eq_true_eq] at this he; omega
    rw [hf]
    by_cases h2 : j < a + bs.length
    · rw [if_pos (⟨by omega, h2⟩ : a ≤ j ∧ j < a + bs.length)]
      have hx : mapGet (0 : Byte) (m.filter fun c => decide (a + bs.length ≤ c.1)) j = 0 :=
        mapGet_absent _ _ _ fun kv hk => by
          have := (List.mem_filter.mp hk).2
          simp only [decide_eq_true_eq] at this; omega
      have hc := mapGet_cellsOf a bs j
      rw [if_pos (by omega)] at hc
      split
      · simp_all
      · split
        · exact hc
        · rename_i hn
          rw [hx, ← hc]
          exact (mapGet_absent _ _ _ fun kv hk e => hn (List.any_eq_true.mpr ⟨kv, hk, by simpa using e⟩)).symm
    · rw [if_neg (by omega : ¬(a ≤ j ∧ j < a + bs.length))]
      have hc : (cellsOf a bs).any (fun c => c.1 = j) = false := by
        rw [Bool.eq_false_iff]
        intro h
        obtain ⟨kv, hk, he⟩ := List.any_eq_true.mp h
        have := cellsOf_range a bs kv hk
        simp only [decide_eq_true_eq] at he; omega
      rw [hc]
      simp only [Bool.false_eq_true, if_false]
      exact mapGet_filter 0 (fun i => decide (a + bs.length ≤ i)) m j (by simp; omega)

theorem mapSorted_iff_pairwise (m : SMap α) : mapSorted m = true ↔ m.Pairwise fun x y => x.1 < y.1 := by
  induction m with
  | nil => simp [mapSorted]
  | cons c m ih => obtain ⟨i, v⟩ := c; rw [mapSorted_cons, List.pairwise_cons, ih]

theorem cellsOf_pairwise (a : Nat) (bs : List Byte) : (cellsOf a bs).Pairwise fun x y => x.1 < y.1 := by
  induction bs generalizing a with
  | nil => simp [cellsOf]
  | cons b bs ih =>
    unfold cellsOf
    split
    · exact ih (a + 1)
    · refine List.pairwise_cons.mpr ⟨fun kv hk => ?_, ih (a + 1)⟩
      have := cellsOf_range (a + 1) bs kv hk
      simp only; omega

/-- A write keeps memory canonical. -/
theorem memory_wf_write (m : SMap Byte) (a : Nat) (bs : List Byte) (h : Memory.wf m = true) :
    Memory.wf (memWriteBytes m a bs) = true := by
  unfold Memory.wf at h ⊢
  rw [mapWf_iff, mapSorted_iff_pairwise] at h ⊢
  unfold memWriteBytes
  refine ⟨?_, fun kv hk => ?_⟩
  · rw [List.pairwise_append, List.pairwise_append]
    refine ⟨⟨h.1.filter _, cellsOf_pairwise a bs, fun x hx y hy => ?_⟩, h.1.filter _, fun x hx y hy => ?_⟩
    · have h1 := (List.mem_filter.mp hx).2
      have h2 := cellsOf_range a bs y hy
      simp only [decide_eq_true_eq] at h1; omega
    · have h2 := (List.mem_filter.mp hy).2
      simp only [decide_eq_true_eq] at h2
      rcases List.mem_append.mp hx with hx | hx
      · have h1 := (List.mem_filter.mp hx).2
        simp only [decide_eq_true_eq] at h1; omega
      · have h1 := cellsOf_range a bs x hx; omega
  · rcases List.mem_append.mp hk with hk | hk
    · rcases List.mem_append.mp hk with hk | hk
      · exact h.2 kv (List.mem_filter.mp hk).1
      · exact (cellsOf_range a bs kv hk).2.2
    · exact h.2 kv (List.mem_filter.mp hk).1

end Sys2Proof.Machine
end

