-- ==== Sys2Proof/Laws/State.lean ====
section
/-!
SUPPORT. The laws of State: for each field, what each primitive update leaves in it; for each map, what a read of an entry
gives after each primitive update. No later proof unfolds a record update.
-/

namespace Sys2Proof.Machine

variable {s : State}

@[simp] theorem begin_now (s : State) : (begin s).now = s := rfl
@[simp] theorem Tx.act_now (t : Tx s) (a : Act) : (t.act a).now = a.apply t.now := rfl
theorem done_eq (t : Tx s) : done t = .next t.now := rfl

/-! ### Fields -/

@[simp] theorem Act.apply_regs (a : Act) (s : State) : (a.apply s).regs = match a with
    | .regs k v => mapPut (resetWord k) s.regs k (v &&& definedMask k)
    | _ => s.regs := by cases a <;> rfl
@[simp] theorem Act.apply_mem (a : Act) (s : State) : (a.apply s).mem = match a with
    | .mem a bs => memWriteBytes s.mem a bs
    | _ => s.mem := by cases a <;> rfl
@[simp] theorem Act.apply_poison (a : Act) (s : State) : (a.apply s).poison = match a with
    | .poison k v => mapPut (poisonDefault k) s.poison k v
    | _ => s.poison := by cases a <;> rfl
@[simp] theorem Act.apply_landTag (a : Act) (s : State) : (a.apply s).landTag = match a with
    | .landTag k v => mapPut (landTagDefault k) s.landTag k v
    | _ => s.landTag := by cases a <;> rfl
@[simp] theorem Act.apply_tiles (a : Act) (s : State) : (a.apply s).tiles = match a with
    | .tiles k v => mapPut (tilesDefault k) s.tiles k v
    | _ => s.tiles := by cases a <;> rfl
@[simp] theorem Act.apply_clusters (a : Act) (s : State) : (a.apply s).clusters = match a with
    | .clusters k v => mapPut (clustersDefault k) s.clusters k v
    | _ => s.clusters := by cases a <;> rfl
@[simp] theorem Act.apply_psets (a : Act) (s : State) : (a.apply s).psets = match a with
    | .psets k v => mapPut (psetsDefault k) s.psets k v
    | _ => s.psets := by cases a <;> rfl
@[simp] theorem Act.apply_primes (a : Act) (s : State) : (a.apply s).primes = match a with
    | .primes k v => mapPut (primesDefault k) s.primes k v
    | _ => s.primes := by cases a <;> rfl
@[simp] theorem Act.apply_out (a : Act) (s : State) : (a.apply s).out = match a with
    | .out o => s.out ++ [o]
    | _ => s.out := by cases a <;> rfl
@[simp] theorem Act.apply_fresh (a : Act) (s : State) : (a.apply s).fresh = match a with
    | .fresh v => v
    | _ => s.fresh := by cases a <;> rfl
@[simp] theorem Act.apply_records (a : Act) (s : State) : (a.apply s).records = match a with
    | .records k v => mapPut (recordsDefault k) s.records k v
    | _ => s.records := by cases a <;> rfl
@[simp] theorem Act.apply_deferred (a : Act) (s : State) : (a.apply s).deferred = match a with
    | .deferred k v => mapPut (deferredDefault k) s.deferred k v
    | _ => s.deferred := by cases a <;> rfl
@[simp] theorem Act.apply_ksets (a : Act) (s : State) : (a.apply s).ksets = match a with
    | .ksets k v => mapPut (ksetsDefault k) s.ksets k v
    | _ => s.ksets := by cases a <;> rfl
@[simp] theorem Act.apply_regions (a : Act) (s : State) : (a.apply s).regions = match a with
    | .regions k v => mapPut (regionsDefault k) s.regions k v
    | _ => s.regions := by cases a <;> rfl
@[simp] theorem Act.apply_domains (a : Act) (s : State) : (a.apply s).domains = match a with
    | .domains k v => mapPut (domainsDefault k) s.domains k v
    | _ => s.domains := by cases a <;> rfl
@[simp] theorem Act.apply_pcie (a : Act) (s : State) : (a.apply s).pcie = match a with
    | .pcie k v => mapPut (pcieDefault k) s.pcie k v
    | _ => s.pcie := by cases a <;> rfl
@[simp] theorem Act.apply_peers (a : Act) (s : State) : (a.apply s).peers = match a with
    | .peers k v => mapPut (peersDefault k) s.peers k v
    | _ => s.peers := by cases a <;> rfl
@[simp] theorem Act.apply_links (a : Act) (s : State) : (a.apply s).links = match a with
    | .links k v => mapPut (linksDefault k) s.links k v
    | _ => s.links := by cases a <;> rfl
@[simp] theorem Act.apply_txq (a : Act) (s : State) : (a.apply s).txq = match a with
    | .txq v => v
    | _ => s.txq := by cases a <;> rfl
@[simp] theorem Act.apply_graphs (a : Act) (s : State) : (a.apply s).graphs = match a with
    | .graphs k v => mapPut (graphsDefault k) s.graphs k v
    | _ => s.graphs := by cases a <;> rfl
@[simp] theorem Act.apply_memctl (a : Act) (s : State) : (a.apply s).memctl = match a with
    | .memctl k v => mapPut (memctlDefault k) s.memctl k v
    | _ => s.memctl := by cases a <;> rfl
@[simp] theorem Act.apply_life (a : Act) (s : State) : (a.apply s).life = match a with
    | .life v => v
    | _ => s.life := by cases a <;> rfl
@[simp] theorem Act.apply_cxl (a : Act) (s : State) : (a.apply s).cxl = match a with
    | .cxl v => v
    | _ => s.cxl := by cases a <;> rfl
@[simp] theorem Act.apply_hash (a : Act) (s : State) : (a.apply s).hash = match a with
    | .hash v => v
    | _ => s.hash := by cases a <;> rfl
@[simp] theorem Act.apply_serge (a : Act) (s : State) : (a.apply s).serge = match a with
    | .serge v => v
    | _ => s.serge := by cases a <;> rfl
@[simp] theorem Act.apply_contexts (a : Act) (s : State) : (a.apply s).contexts = match a with
    | .contexts k v => mapPut (contextsDefault k) s.contexts k v
    | _ => s.contexts := by cases a <;> rfl
@[simp] theorem Act.apply_power (a : Act) (s : State) : (a.apply s).power = match a with
    | .power v => v
    | _ => s.power := by cases a <;> rfl
@[simp] theorem Act.apply_glm (a : Act) (s : State) : (a.apply s).glm = match a with
    | .glm v => v
    | _ => s.glm := by cases a <;> rfl
@[simp] theorem Act.apply_epoch (a : Act) (s : State) : (a.apply s).epoch = match a with
    | .epoch v => v
    | _ => s.epoch := by cases a <;> rfl
@[simp] theorem Act.apply_sec (a : Act) (s : State) : (a.apply s).sec = match a with
    | .sec v => v
    | _ => s.sec := by cases a <;> rfl
@[simp] theorem Act.apply_errPages (a : Act) (s : State) : (a.apply s).errPages = match a with
    | .errPages k v => mapPut (errPagesDefault k) s.errPages k v
    | _ => s.errPages := by cases a <;> rfl
@[simp] theorem Act.apply_tests (a : Act) (s : State) : (a.apply s).tests = match a with
    | .tests v => v
    | _ => s.tests := by cases a <;> rfl
@[simp] theorem Act.apply_queues (a : Act) (s : State) : (a.apply s).queues = match a with
    | .queues k v => mapPut (queuesDefault k) s.queues k v
    | _ => s.queues := by cases a <;> rfl
@[simp] theorem Act.apply_sessions (a : Act) (s : State) : (a.apply s).sessions = match a with
    | .sessions k v => mapPut (sessionsDefault k) s.sessions k v
    | _ => s.sessions := by cases a <;> rfl
@[simp] theorem Act.apply_qe (a : Act) (s : State) : (a.apply s).qe = match a with
    | .qe v => v
    | _ => s.qe := by cases a <;> rfl
@[simp] theorem Act.apply_doorbells (a : Act) (s : State) : (a.apply s).doorbells = match a with
    | .doorbells k v => mapPut (doorbellsDefault k) s.doorbells k v
    | _ => s.doorbells := by cases a <;> rfl
@[simp] theorem Act.apply_cores (a : Act) (s : State) : (a.apply s).cores = match a with
    | .cores k v => mapPut (coresDefault k) s.cores k v
    | _ => s.cores := by cases a <;> rfl
@[simp] theorem Act.apply_mboxes (a : Act) (s : State) : (a.apply s).mboxes = match a with
    | .mboxes k v => mapPut (mboxesDefault k) s.mboxes k v
    | _ => s.mboxes := by cases a <;> rfl
@[simp] theorem Act.apply_fw (a : Act) (s : State) : (a.apply s).fw = match a with
    | .fw v => v
    | _ => s.fw := by cases a <;> rfl
@[simp] theorem Act.apply_spdm (a : Act) (s : State) : (a.apply s).spdm = match a with
    | .spdm k v => mapPut (spdmDefault k) s.spdm k v
    | _ => s.spdm := by cases a <;> rfl
@[simp] theorem Act.apply_mgmt (a : Act) (s : State) : (a.apply s).mgmt = match a with
    | .mgmt v => v
    | _ => s.mgmt := by cases a <;> rfl
@[simp] theorem Act.apply_held (a : Act) (s : State) : (a.apply s).held = match a with
    | .held k v => mapPut (heldDefault k) s.held k v
    | _ => s.held := by cases a <;> rfl

/-- No command's effect touches the queue. -/
@[simp] theorem Act.apply_pending (a : Act) (s : State) : (a.apply s).pending = s.pending := by cases a <;> rfl

/-! ### Entries of maps -/

@[simp] theorem Act.apply_regsAt (a : Act) (s : State) (j : Nat) : (a.apply s).regsAt j = match a with
    | .regs k v => if j = k then v &&& definedMask k else s.regsAt j
    | _ => s.regsAt j := by
  cases a
  case regs k v =>
    by_cases h : j = k
    · subst h; simp only [State.regsAt, Act.apply_regs, if_true]; exact mapGet_mapPut_same ..
    · simp only [State.regsAt, Act.apply_regs, h, if_false]; exact mapGet_mapPut_other _ _ _ _ _ _ h
  all_goals rfl
@[simp] theorem Act.apply_poisonAt (a : Act) (s : State) (j : Nat) : (a.apply s).poisonAt j = match a with
    | .poison k v => if j = k then v else s.poisonAt j
    | _ => s.poisonAt j := by
  cases a
  case poison k v =>
    by_cases h : j = k
    · subst h; simp only [State.poisonAt, Act.apply_poison, if_true]; exact mapGet_mapPut_same ..
    · simp only [State.poisonAt, Act.apply_poison, h, if_false]; exact mapGet_mapPut_other _ _ _ _ _ _ h
  all_goals rfl
@[simp] theorem Act.apply_landTagAt (a : Act) (s : State) (j : Nat) : (a.apply s).landTagAt j = match a with
    | .landTag k v => if j = k then v else s.landTagAt j
    | _ => s.landTagAt j := by
  cases a
  case landTag k v =>
    by_cases h : j = k
    · subst h; simp only [State.landTagAt, Act.apply_landTag, if_true]; exact mapGet_mapPut_same ..
    · simp only [State.landTagAt, Act.apply_landTag, h, if_false]; exact mapGet_mapPut_other _ _ _ _ _ _ h
  all_goals rfl
@[simp] theorem Act.apply_tilesAt (a : Act) (s : State) (j : Nat) : (a.apply s).tilesAt j = match a with
    | .tiles k v => if j = k then v else s.tilesAt j
    | _ => s.tilesAt j := by
  cases a
  case tiles k v =>
    by_cases h : j = k
    · subst h; simp only [State.tilesAt, Act.apply_tiles, if_true]; exact mapGet_mapPut_same ..
    · simp only [State.tilesAt, Act.apply_tiles, h, if_false]; exact mapGet_mapPut_other _ _ _ _ _ _ h
  all_goals rfl
@[simp] theorem Act.apply_clustersAt (a : Act) (s : State) (j : Nat) : (a.apply s).clustersAt j = match a with
    | .clusters k v => if j = k then v else s.clustersAt j
    | _ => s.clustersAt j := by
  cases a
  case clusters k v =>
    by_cases h : j = k
    · subst h; simp only [State.clustersAt, Act.apply_clusters, if_true]; exact mapGet_mapPut_same ..
    · simp only [State.clustersAt, Act.apply_clusters, h, if_false]; exact mapGet_mapPut_other _ _ _ _ _ _ h
  all_goals rfl
@[simp] theorem Act.apply_psetsAt (a : Act) (s : State) (j : Nat) : (a.apply s).psetsAt j = match a with
    | .psets k v => if j = k then v else s.psetsAt j
    | _ => s.psetsAt j := by
  cases a
  case psets k v =>
    by_cases h : j = k
    · subst h; simp only [State.psetsAt, Act.apply_psets, if_true]; exact mapGet_mapPut_same ..
    · simp only [State.psetsAt, Act.apply_psets, h, if_false]; exact mapGet_mapPut_other _ _ _ _ _ _ h
  all_goals rfl
@[simp] theorem Act.apply_primesAt (a : Act) (s : State) (j : Nat) : (a.apply s).primesAt j = match a with
    | .primes k v => if j = k then v else s.primesAt j
    | _ => s.primesAt j := by
  cases a
  case primes k v =>
    by_cases h : j = k
    · subst h; simp only [State.primesAt, Act.apply_primes, if_true]; exact mapGet_mapPut_same ..
    · simp only [State.primesAt, Act.apply_primes, h, if_false]; exact mapGet_mapPut_other _ _ _ _ _ _ h
  all_goals rfl
@[simp] theorem Act.apply_recordsAt (a : Act) (s : State) (j : Nat) : (a.apply s).recordsAt j = match a with
    | .records k v => if j = k then v else s.recordsAt j
    | _ => s.recordsAt j := by
  cases a
  case records k v =>
    by_cases h : j = k
    · subst h; simp only [State.recordsAt, Act.apply_records, if_true]; exact mapGet_mapPut_same ..
    · simp only [State.recordsAt, Act.apply_records, h, if_false]; exact mapGet_mapPut_other _ _ _ _ _ _ h
  all_goals rfl
@[simp] theorem Act.apply_deferredAt (a : Act) (s : State) (j : Nat) : (a.apply s).deferredAt j = match a with
    | .deferred k v => if j = k then v else s.deferredAt j
    | _ => s.deferredAt j := by
  cases a
  case deferred k v =>
    by_cases h : j = k
    · subst h; simp only [State.deferredAt, Act.apply_deferred, if_true]; exact mapGet_mapPut_same ..
    · simp only [State.deferredAt, Act.apply_deferred, h, if_false]; exact mapGet_mapPut_other _ _ _ _ _ _ h
  all_goals rfl
@[simp] theorem Act.apply_ksetsAt (a : Act) (s : State) (j : Nat) : (a.apply s).ksetsAt j = match a with
    | .ksets k v => if j = k then v else s.ksetsAt j
    | _ => s.ksetsAt j := by
  cases a
  case ksets k v =>
    by_cases h : j = k
    · subst h; simp only [State.ksetsAt, Act.apply_ksets, if_true]; exact mapGet_mapPut_same ..
    · simp only [State.ksetsAt, Act.apply_ksets, h, if_false]; exact mapGet_mapPut_other _ _ _ _ _ _ h
  all_goals rfl
@[simp] theorem Act.apply_regionsAt (a : Act) (s : State) (j : Nat) : (a.apply s).regionsAt j = match a with
    | .regions k v => if j = k then v else s.regionsAt j
    | _ => s.regionsAt j := by
  cases a
  case regions k v =>
    by_cases h : j = k
    · subst h; simp only [State.regionsAt, Act.apply_regions, if_true]; exact mapGet_mapPut_same ..
    · simp only [State.regionsAt, Act.apply_regions, h, if_false]; exact mapGet_mapPut_other _ _ _ _ _ _ h
  all_goals rfl
@[simp] theorem Act.apply_domainsAt (a : Act) (s : State) (j : Nat) : (a.apply s).domainsAt j = match a with
    | .domains k v => if j = k then v else s.domainsAt j
    | _ => s.domainsAt j := by
  cases a
  case domains k v =>
    by_cases h : j = k
    · subst h; simp only [State.domainsAt, Act.apply_domains, if_true]; exact mapGet_mapPut_same ..
    · simp only [State.domainsAt, Act.apply_domains, h, if_false]; exact mapGet_mapPut_other _ _ _ _ _ _ h
  all_goals rfl
@[simp] theorem Act.apply_pcieAt (a : Act) (s : State) (j : Nat) : (a.apply s).pcieAt j = match a with
    | .pcie k v => if j = k then v else s.pcieAt j
    | _ => s.pcieAt j := by
  cases a
  case pcie k v =>
    by_cases h : j = k
    · subst h; simp only [State.pcieAt, Act.apply_pcie, if_true]; exact mapGet_mapPut_same ..
    · simp only [State.pcieAt, Act.apply_pcie, h, if_false]; exact mapGet_mapPut_other _ _ _ _ _ _ h
  all_goals rfl
@[simp] theorem Act.apply_peersAt (a : Act) (s : State) (j : Nat) : (a.apply s).peersAt j = match a with
    | .peers k v => if j = k then v else s.peersAt j
    | _ => s.peersAt j := by
  cases a
  case peers k v =>
    by_cases h : j = k
    · subst h; simp only [State.peersAt, Act.apply_peers, if_true]; exact mapGet_mapPut_same ..
    · simp only [State.peersAt, Act.apply_peers, h, if_false]; exact mapGet_mapPut_other _ _ _ _ _ _ h
  all_goals rfl
@[simp] theorem Act.apply_linksAt (a : Act) (s : State) (j : Nat) : (a.apply s).linksAt j = match a with
    | .links k v => if j = k then v else s.linksAt j
    | _ => s.linksAt j := by
  cases a
  case links k v =>
    by_cases h : j = k
    · subst h; simp only [State.linksAt, Act.apply_links, if_true]; exact mapGet_mapPut_same ..
    · simp only [State.linksAt, Act.apply_links, h, if_false]; exact mapGet_mapPut_other _ _ _ _ _ _ h
  all_goals rfl
@[simp] theorem Act.apply_graphsAt (a : Act) (s : State) (j : Nat) : (a.apply s).graphsAt j = match a with
    | .graphs k v => if j = k then v else s.graphsAt j
    | _ => s.graphsAt j := by
  cases a
  case graphs k v =>
    by_cases h : j = k
    · subst h; simp only [State.graphsAt, Act.apply_graphs, if_true]; exact mapGet_mapPut_same ..
    · simp only [State.graphsAt, Act.apply_graphs, h, if_false]; exact mapGet_mapPut_other _ _ _ _ _ _ h
  all_goals rfl
@[simp] theorem Act.apply_memctlAt (a : Act) (s : State) (j : Nat) : (a.apply s).memctlAt j = match a with
    | .memctl k v => if j = k then v else s.memctlAt j
    | _ => s.memctlAt j := by
  cases a
  case memctl k v =>
    by_cases h : j = k
    · subst h; simp only [State.memctlAt, Act.apply_memctl, if_true]; exact mapGet_mapPut_same ..
    · simp only [State.memctlAt, Act.apply_memctl, h, if_false]; exact mapGet_mapPut_other _ _ _ _ _ _ h
  all_goals rfl
@[simp] theorem Act.apply_contextsAt (a : Act) (s : State) (j : Nat) : (a.apply s).contextsAt j = match a with
    | .contexts k v => if j = k then v else s.contextsAt j
    | _ => s.contextsAt j := by
  cases a
  case contexts k v =>
    by_cases h : j = k
    · subst h; simp only [State.contextsAt, Act.apply_contexts, if_true]; exact mapGet_mapPut_same ..
    · simp only [State.contextsAt, Act.apply_contexts, h, if_false]; exact mapGet_mapPut_other _ _ _ _ _ _ h
  all_goals rfl
@[simp] theorem Act.apply_errPagesAt (a : Act) (s : State) (j : Nat) : (a.apply s).errPagesAt j = match a with
    | .errPages k v => if j = k then v else s.errPagesAt j
    | _ => s.errPagesAt j := by
  cases a
  case errPages k v =>
    by_cases h : j = k
    · subst h; simp only [State.errPagesAt, Act.apply_errPages, if_true]; exact mapGet_mapPut_same ..
    · simp only [State.errPagesAt, Act.apply_errPages, h, if_false]; exact mapGet_mapPut_other _ _ _ _ _ _ h
  all_goals rfl
@[simp] theorem Act.apply_queuesAt (a : Act) (s : State) (j : Nat) : (a.apply s).queuesAt j = match a with
    | .queues k v => if j = k then v else s.queuesAt j
    | _ => s.queuesAt j := by
  cases a
  case queues k v =>
    by_cases h : j = k
    · subst h; simp only [State.queuesAt, Act.apply_queues, if_true]; exact mapGet_mapPut_same ..
    · simp only [State.queuesAt, Act.apply_queues, h, if_false]; exact mapGet_mapPut_other _ _ _ _ _ _ h
  all_goals rfl
@[simp] theorem Act.apply_sessionsAt (a : Act) (s : State) (j : Nat) : (a.apply s).sessionsAt j = match a with
    | .sessions k v => if j = k then v else s.sessionsAt j
    | _ => s.sessionsAt j := by
  cases a
  case sessions k v =>
    by_cases h : j = k
    · subst h; simp only [State.sessionsAt, Act.apply_sessions, if_true]; exact mapGet_mapPut_same ..
    · simp only [State.sessionsAt, Act.apply_sessions, h, if_false]; exact mapGet_mapPut_other _ _ _ _ _ _ h
  all_goals rfl
@[simp] theorem Act.apply_doorbellsAt (a : Act) (s : State) (j : Nat) : (a.apply s).doorbellsAt j = match a with
    | .doorbells k v => if j = k then v else s.doorbellsAt j
    | _ => s.doorbellsAt j := by
  cases a
  case doorbells k v =>
    by_cases h : j = k
    · subst h; simp only [State.doorbellsAt, Act.apply_doorbells, if_true]; exact mapGet_mapPut_same ..
    · simp only [State.doorbellsAt, Act.apply_doorbells, h, if_false]; exact mapGet_mapPut_other _ _ _ _ _ _ h
  all_goals rfl
@[simp] theorem Act.apply_coresAt (a : Act) (s : State) (j : Nat) : (a.apply s).coresAt j = match a with
    | .cores k v => if j = k then v else s.coresAt j
    | _ => s.coresAt j := by
  cases a
  case cores k v =>
    by_cases h : j = k
    · subst h; simp only [State.coresAt, Act.apply_cores, if_true]; exact mapGet_mapPut_same ..
    · simp only [State.coresAt, Act.apply_cores, h, if_false]; exact mapGet_mapPut_other _ _ _ _ _ _ h
  all_goals rfl
@[simp] theorem Act.apply_mboxesAt (a : Act) (s : State) (j : Nat) : (a.apply s).mboxesAt j = match a with
    | .mboxes k v => if j = k then v else s.mboxesAt j
    | _ => s.mboxesAt j := by
  cases a
  case mboxes k v =>
    by_cases h : j = k
    · subst h; simp only [State.mboxesAt, Act.apply_mboxes, if_true]; exact mapGet_mapPut_same ..
    · simp only [State.mboxesAt, Act.apply_mboxes, h, if_false]; exact mapGet_mapPut_other _ _ _ _ _ _ h
  all_goals rfl
@[simp] theorem Act.apply_spdmAt (a : Act) (s : State) (j : Nat) : (a.apply s).spdmAt j = match a with
    | .spdm k v => if j = k then v else s.spdmAt j
    | _ => s.spdmAt j := by
  cases a
  case spdm k v =>
    by_cases h : j = k
    · subst h; simp only [State.spdmAt, Act.apply_spdm, if_true]; exact mapGet_mapPut_same ..
    · simp only [State.spdmAt, Act.apply_spdm, h, if_false]; exact mapGet_mapPut_other _ _ _ _ _ _ h
  all_goals rfl
@[simp] theorem Act.apply_heldAt (a : Act) (s : State) (j : Nat) : (a.apply s).heldAt j = match a with
    | .held k v => if j = k then v else s.heldAt j
    | _ => s.heldAt j := by
  cases a
  case held k v =>
    by_cases h : j = k
    · subst h; simp only [State.heldAt, Act.apply_held, if_true]; exact mapGet_mapPut_same ..
    · simp only [State.heldAt, Act.apply_held, h, if_false]; exact mapGet_mapPut_other _ _ _ _ _ _ h
  all_goals rfl

/-! ### Writing and reading entries within an effect -/

@[simp] theorem Tx.putRegs_now (t : Tx s) (k : Nat) (v : Word) : (t.putRegs k v).now = (Act.regs k v).apply t.now := rfl
@[simp] theorem Tx.putPoison_now (t : Tx s) (k : Nat) (v : Bool) : (t.putPoison k v).now = (Act.poison k v).apply t.now := rfl
@[simp] theorem Tx.putLandTag_now (t : Tx s) (k : Nat) (v : Nat) : (t.putLandTag k v).now = (Act.landTag k v).apply t.now := rfl
@[simp] theorem Tx.putTiles_now (t : Tx s) (k : Nat) (v : Tile) : (t.putTiles k v).now = (Act.tiles k v).apply t.now := rfl
@[simp] theorem Tx.modTiles_now (t : Tx s) (k : Nat) (f : Tile → Tile) :
    (t.modTiles k f).now = (Act.tiles k (f (t.now.tilesAt k))).apply t.now := rfl
@[simp] theorem Tx.putClusters_now (t : Tx s) (k : Nat) (v : Cluster) : (t.putClusters k v).now = (Act.clusters k v).apply t.now := rfl
@[simp] theorem Tx.modClusters_now (t : Tx s) (k : Nat) (f : Cluster → Cluster) :
    (t.modClusters k f).now = (Act.clusters k (f (t.now.clustersAt k))).apply t.now := rfl
@[simp] theorem Tx.putPsets_now (t : Tx s) (k : Nat) (v : Pset) : (t.putPsets k v).now = (Act.psets k v).apply t.now := rfl
@[simp] theorem Tx.modPsets_now (t : Tx s) (k : Nat) (f : Pset → Pset) :
    (t.modPsets k f).now = (Act.psets k (f (t.now.psetsAt k))).apply t.now := rfl
@[simp] theorem Tx.putPrimes_now (t : Tx s) (k : Nat) (v : Nat) : (t.putPrimes k v).now = (Act.primes k v).apply t.now := rfl
@[simp] theorem Tx.putFresh_now (t : Tx s) (v : Nat) : (t.putFresh v).now = (Act.fresh v).apply t.now := rfl
@[simp] theorem Tx.putRecords_now (t : Tx s) (k : Nat) (v : RunRec) : (t.putRecords k v).now = (Act.records k v).apply t.now := rfl
@[simp] theorem Tx.modRecords_now (t : Tx s) (k : Nat) (f : RunRec → RunRec) :
    (t.modRecords k f).now = (Act.records k (f (t.now.recordsAt k))).apply t.now := rfl
@[simp] theorem Tx.putDeferred_now (t : Tx s) (k : Nat) (v : (Option Word)) : (t.putDeferred k v).now = (Act.deferred k v).apply t.now := rfl
@[simp] theorem Tx.modDeferred_now (t : Tx s) (k : Nat) (f : (Option Word) → (Option Word)) :
    (t.modDeferred k f).now = (Act.deferred k (f (t.now.deferredAt k))).apply t.now := rfl
@[simp] theorem Tx.putKsets_now (t : Tx s) (k : Nat) (v : KeySet) : (t.putKsets k v).now = (Act.ksets k v).apply t.now := rfl
@[simp] theorem Tx.modKsets_now (t : Tx s) (k : Nat) (f : KeySet → KeySet) :
    (t.modKsets k f).now = (Act.ksets k (f (t.now.ksetsAt k))).apply t.now := rfl
@[simp] theorem Tx.putRegions_now (t : Tx s) (k : Nat) (v : Region) : (t.putRegions k v).now = (Act.regions k v).apply t.now := rfl
@[simp] theorem Tx.modRegions_now (t : Tx s) (k : Nat) (f : Region → Region) :
    (t.modRegions k f).now = (Act.regions k (f (t.now.regionsAt k))).apply t.now := rfl
@[simp] theorem Tx.putDomains_now (t : Tx s) (k : Nat) (v : Domain) : (t.putDomains k v).now = (Act.domains k v).apply t.now := rfl
@[simp] theorem Tx.modDomains_now (t : Tx s) (k : Nat) (f : Domain → Domain) :
    (t.modDomains k f).now = (Act.domains k (f (t.now.domainsAt k))).apply t.now := rfl
@[simp] theorem Tx.putPcie_now (t : Tx s) (k : Nat) (v : PcieFn) : (t.putPcie k v).now = (Act.pcie k v).apply t.now := rfl
@[simp] theorem Tx.modPcie_now (t : Tx s) (k : Nat) (f : PcieFn → PcieFn) :
    (t.modPcie k f).now = (Act.pcie k (f (t.now.pcieAt k))).apply t.now := rfl
@[simp] theorem Tx.putPeers_now (t : Tx s) (k : Nat) (v : PeerTxn) : (t.putPeers k v).now = (Act.peers k v).apply t.now := rfl
@[simp] theorem Tx.modPeers_now (t : Tx s) (k : Nat) (f : PeerTxn → PeerTxn) :
    (t.modPeers k f).now = (Act.peers k (f (t.now.peersAt k))).apply t.now := rfl
@[simp] theorem Tx.putLinks_now (t : Tx s) (k : Nat) (v : Link) : (t.putLinks k v).now = (Act.links k v).apply t.now := rfl
@[simp] theorem Tx.modLinks_now (t : Tx s) (k : Nat) (f : Link → Link) :
    (t.modLinks k f).now = (Act.links k (f (t.now.linksAt k))).apply t.now := rfl
@[simp] theorem Tx.putTxq_now (t : Tx s) (v : (List TxPacket)) : (t.putTxq v).now = (Act.txq v).apply t.now := rfl
@[simp] theorem Tx.modTxq_now (t : Tx s) (f : (List TxPacket) → (List TxPacket)) :
    (t.modTxq f).now = (Act.txq (f t.now.txq)).apply t.now := rfl
@[simp] theorem Tx.putGraphs_now (t : Tx s) (k : Nat) (v : Graph) : (t.putGraphs k v).now = (Act.graphs k v).apply t.now := rfl
@[simp] theorem Tx.modGraphs_now (t : Tx s) (k : Nat) (f : Graph → Graph) :
    (t.modGraphs k f).now = (Act.graphs k (f (t.now.graphsAt k))).apply t.now := rfl
@[simp] theorem Tx.putMemctl_now (t : Tx s) (k : Nat) (v : MemCtl) : (t.putMemctl k v).now = (Act.memctl k v).apply t.now := rfl
@[simp] theorem Tx.modMemctl_now (t : Tx s) (k : Nat) (f : MemCtl → MemCtl) :
    (t.modMemctl k f).now = (Act.memctl k (f (t.now.memctlAt k))).apply t.now := rfl
@[simp] theorem Tx.putLife_now (t : Tx s) (v : LifeLog) : (t.putLife v).now = (Act.life v).apply t.now := rfl
@[simp] theorem Tx.modLife_now (t : Tx s) (f : LifeLog → LifeLog) :
    (t.modLife f).now = (Act.life (f t.now.life)).apply t.now := rfl
@[simp] theorem Tx.putCxl_now (t : Tx s) (v : Cxl) : (t.putCxl v).now = (Act.cxl v).apply t.now := rfl
@[simp] theorem Tx.modCxl_now (t : Tx s) (f : Cxl → Cxl) :
    (t.modCxl f).now = (Act.cxl (f t.now.cxl)).apply t.now := rfl
@[simp] theorem Tx.putHash_now (t : Tx s) (v : HashUnit) : (t.putHash v).now = (Act.hash v).apply t.now := rfl
@[simp] theorem Tx.modHash_now (t : Tx s) (f : HashUnit → HashUnit) :
    (t.modHash f).now = (Act.hash (f t.now.hash)).apply t.now := rfl
@[simp] theorem Tx.putSerge_now (t : Tx s) (v : SergeUnit) : (t.putSerge v).now = (Act.serge v).apply t.now := rfl
@[simp] theorem Tx.modSerge_now (t : Tx s) (f : SergeUnit → SergeUnit) :
    (t.modSerge f).now = (Act.serge (f t.now.serge)).apply t.now := rfl
@[simp] theorem Tx.putContexts_now (t : Tx s) (k : Nat) (v : Context) : (t.putContexts k v).now = (Act.contexts k v).apply t.now := rfl
@[simp] theorem Tx.modContexts_now (t : Tx s) (k : Nat) (f : Context → Context) :
    (t.modContexts k f).now = (Act.contexts k (f (t.now.contextsAt k))).apply t.now := rfl
@[simp] theorem Tx.putPower_now (t : Tx s) (v : Power) : (t.putPower v).now = (Act.power v).apply t.now := rfl
@[simp] theorem Tx.modPower_now (t : Tx s) (f : Power → Power) :
    (t.modPower f).now = (Act.power (f t.now.power)).apply t.now := rfl
@[simp] theorem Tx.putGlm_now (t : Tx s) (v : Gloaming) : (t.putGlm v).now = (Act.glm v).apply t.now := rfl
@[simp] theorem Tx.modGlm_now (t : Tx s) (f : Gloaming → Gloaming) :
    (t.modGlm f).now = (Act.glm (f t.now.glm)).apply t.now := rfl
@[simp] theorem Tx.putEpoch_now (t : Tx s) (v : EpochGen) : (t.putEpoch v).now = (Act.epoch v).apply t.now := rfl
@[simp] theorem Tx.modEpoch_now (t : Tx s) (f : EpochGen → EpochGen) :
    (t.modEpoch f).now = (Act.epoch (f t.now.epoch)).apply t.now := rfl
@[simp] theorem Tx.putSec_now (t : Tx s) (v : SecUnit) : (t.putSec v).now = (Act.sec v).apply t.now := rfl
@[simp] theorem Tx.modSec_now (t : Tx s) (f : SecUnit → SecUnit) :
    (t.modSec f).now = (Act.sec (f t.now.sec)).apply t.now := rfl
@[simp] theorem Tx.putErrPages_now (t : Tx s) (k : Nat) (v : ErrPage) : (t.putErrPages k v).now = (Act.errPages k v).apply t.now := rfl
@[simp] theorem Tx.modErrPages_now (t : Tx s) (k : Nat) (f : ErrPage → ErrPage) :
    (t.modErrPages k f).now = (Act.errPages k (f (t.now.errPagesAt k))).apply t.now := rfl
@[simp] theorem Tx.putTests_now (t : Tx s) (v : SelfTest) : (t.putTests v).now = (Act.tests v).apply t.now := rfl
@[simp] theorem Tx.modTests_now (t : Tx s) (f : SelfTest → SelfTest) :
    (t.modTests f).now = (Act.tests (f t.now.tests)).apply t.now := rfl
@[simp] theorem Tx.putQueues_now (t : Tx s) (k : Nat) (v : Queue) : (t.putQueues k v).now = (Act.queues k v).apply t.now := rfl
@[simp] theorem Tx.modQueues_now (t : Tx s) (k : Nat) (f : Queue → Queue) :
    (t.modQueues k f).now = (Act.queues k (f (t.now.queuesAt k))).apply t.now := rfl
@[simp] theorem Tx.putSessions_now (t : Tx s) (k : Nat) (v : Session) : (t.putSessions k v).now = (Act.sessions k v).apply t.now := rfl
@[simp] theorem Tx.modSessions_now (t : Tx s) (k : Nat) (f : Session → Session) :
    (t.modSessions k f).now = (Act.sessions k (f (t.now.sessionsAt k))).apply t.now := rfl
@[simp] theorem Tx.putQe_now (t : Tx s) (v : QueueEngine) : (t.putQe v).now = (Act.qe v).apply t.now := rfl
@[simp] theorem Tx.modQe_now (t : Tx s) (f : QueueEngine → QueueEngine) :
    (t.modQe f).now = (Act.qe (f t.now.qe)).apply t.now := rfl
@[simp] theorem Tx.putDoorbells_now (t : Tx s) (k : Nat) (v : (Option Nat × Option Nat)) : (t.putDoorbells k v).now = (Act.doorbells k v).apply t.now := rfl
@[simp] theorem Tx.modDoorbells_now (t : Tx s) (k : Nat) (f : (Option Nat × Option Nat) → (Option Nat × Option Nat)) :
    (t.modDoorbells k f).now = (Act.doorbells k (f (t.now.doorbellsAt k))).apply t.now := rfl
@[simp] theorem Tx.putCores_now (t : Tx s) (k : Nat) (v : FwCore) : (t.putCores k v).now = (Act.cores k v).apply t.now := rfl
@[simp] theorem Tx.modCores_now (t : Tx s) (k : Nat) (f : FwCore → FwCore) :
    (t.modCores k f).now = (Act.cores k (f (t.now.coresAt k))).apply t.now := rfl
@[simp] theorem Tx.putMboxes_now (t : Tx s) (k : Nat) (v : Mailbox) : (t.putMboxes k v).now = (Act.mboxes k v).apply t.now := rfl
@[simp] theorem Tx.modMboxes_now (t : Tx s) (k : Nat) (f : Mailbox → Mailbox) :
    (t.modMboxes k f).now = (Act.mboxes k (f (t.now.mboxesAt k))).apply t.now := rfl
@[simp] theorem Tx.putFw_now (t : Tx s) (v : Firmware) : (t.putFw v).now = (Act.fw v).apply t.now := rfl
@[simp] theorem Tx.modFw_now (t : Tx s) (f : Firmware → Firmware) :
    (t.modFw f).now = (Act.fw (f t.now.fw)).apply t.now := rfl
@[simp] theorem Tx.putSpdm_now (t : Tx s) (k : Nat) (v : Spdm) : (t.putSpdm k v).now = (Act.spdm k v).apply t.now := rfl
@[simp] theorem Tx.modSpdm_now (t : Tx s) (k : Nat) (f : Spdm → Spdm) :
    (t.modSpdm k f).now = (Act.spdm k (f (t.now.spdmAt k))).apply t.now := rfl
@[simp] theorem Tx.putMgmt_now (t : Tx s) (v : Mgmt) : (t.putMgmt v).now = (Act.mgmt v).apply t.now := rfl
@[simp] theorem Tx.modMgmt_now (t : Tx s) (f : Mgmt → Mgmt) :
    (t.modMgmt f).now = (Act.mgmt (f t.now.mgmt)).apply t.now := rfl
@[simp] theorem Tx.putHeld_now (t : Tx s) (k : Nat) (v : (Option Word)) : (t.putHeld k v).now = (Act.held k v).apply t.now := rfl
@[simp] theorem Tx.modHeld_now (t : Tx s) (k : Nat) (f : (Option Word) → (Option Word)) :
    (t.modHeld k f).now = (Act.held k (f (t.now.heldAt k))).apply t.now := rfl
@[simp] theorem Tx.regsAt_eq (t : Tx s) (k : Nat) : t.regsAt k = t.now.regsAt k := rfl
@[simp] theorem Tx.poisonAt_eq (t : Tx s) (k : Nat) : t.poisonAt k = t.now.poisonAt k := rfl
@[simp] theorem Tx.landTagAt_eq (t : Tx s) (k : Nat) : t.landTagAt k = t.now.landTagAt k := rfl
@[simp] theorem Tx.tilesAt_eq (t : Tx s) (k : Nat) : t.tilesAt k = t.now.tilesAt k := rfl
@[simp] theorem Tx.clustersAt_eq (t : Tx s) (k : Nat) : t.clustersAt k = t.now.clustersAt k := rfl
@[simp] theorem Tx.psetsAt_eq (t : Tx s) (k : Nat) : t.psetsAt k = t.now.psetsAt k := rfl
@[simp] theorem Tx.primesAt_eq (t : Tx s) (k : Nat) : t.primesAt k = t.now.primesAt k := rfl
@[simp] theorem Tx.recordsAt_eq (t : Tx s) (k : Nat) : t.recordsAt k = t.now.recordsAt k := rfl
@[simp] theorem Tx.deferredAt_eq (t : Tx s) (k : Nat) : t.deferredAt k = t.now.deferredAt k := rfl
@[simp] theorem Tx.ksetsAt_eq (t : Tx s) (k : Nat) : t.ksetsAt k = t.now.ksetsAt k := rfl
@[simp] theorem Tx.regionsAt_eq (t : Tx s) (k : Nat) : t.regionsAt k = t.now.regionsAt k := rfl
@[simp] theorem Tx.domainsAt_eq (t : Tx s) (k : Nat) : t.domainsAt k = t.now.domainsAt k := rfl
@[simp] theorem Tx.pcieAt_eq (t : Tx s) (k : Nat) : t.pcieAt k = t.now.pcieAt k := rfl
@[simp] theorem Tx.peersAt_eq (t : Tx s) (k : Nat) : t.peersAt k = t.now.peersAt k := rfl
@[simp] theorem Tx.linksAt_eq (t : Tx s) (k : Nat) : t.linksAt k = t.now.linksAt k := rfl
@[simp] theorem Tx.graphsAt_eq (t : Tx s) (k : Nat) : t.graphsAt k = t.now.graphsAt k := rfl
@[simp] theorem Tx.memctlAt_eq (t : Tx s) (k : Nat) : t.memctlAt k = t.now.memctlAt k := rfl
@[simp] theorem Tx.contextsAt_eq (t : Tx s) (k : Nat) : t.contextsAt k = t.now.contextsAt k := rfl
@[simp] theorem Tx.errPagesAt_eq (t : Tx s) (k : Nat) : t.errPagesAt k = t.now.errPagesAt k := rfl
@[simp] theorem Tx.queuesAt_eq (t : Tx s) (k : Nat) : t.queuesAt k = t.now.queuesAt k := rfl
@[simp] theorem Tx.sessionsAt_eq (t : Tx s) (k : Nat) : t.sessionsAt k = t.now.sessionsAt k := rfl
@[simp] theorem Tx.doorbellsAt_eq (t : Tx s) (k : Nat) : t.doorbellsAt k = t.now.doorbellsAt k := rfl
@[simp] theorem Tx.coresAt_eq (t : Tx s) (k : Nat) : t.coresAt k = t.now.coresAt k := rfl
@[simp] theorem Tx.mboxesAt_eq (t : Tx s) (k : Nat) : t.mboxesAt k = t.now.mboxesAt k := rfl
@[simp] theorem Tx.spdmAt_eq (t : Tx s) (k : Nat) : t.spdmAt k = t.now.spdmAt k := rfl
@[simp] theorem Tx.heldAt_eq (t : Tx s) (k : Nat) : t.heldAt k = t.now.heldAt k := rfl
@[simp] theorem Tx.emit_now (t : Tx s) (o : Output) : (t.emit o).now = (Act.out o).apply t.now := rfl

end Sys2Proof.Machine
end

