-- ==== Sys2Proof/Laws/Issue.lean ====
section
/-!
SUPPORT. What issue does (R197, R203 to R205, R214): an instruction on a ready tile runs its body and the tile enters the
segments it can; an unmet WAIT condition holds it.
-/

namespace Sys2Proof.Machine

variable {s : State}

theorem readyTile_iff (s : State) (i unit : Nat) (side : Side) (w : NInstr) :
    s.readyTile i unit side w = true ↔
      s.canIssue i side = true ∧ issueLegal (s.tilesAt i) unit side w = true ∧ unmet ((s.tilesAt i).seenBy side) w = none ∧
        (unit < 2 ∨ (s.tilesAt i).enginesFree = true) := by
  simp [State.readyTile, and_assoc]

/-- A legal word has legal WAIT fields. -/
theorem issueLegal_waits {x : Tile} {unit : Nat} {side : Side} {w : NInstr} (h : issueLegal x unit side w = true) :
    waitLegal w.wa.toNat = true ∧ waitLegal w.wb.toNat = true := by
  simp only [issueLegal, Bool.and_eq_true] at h
  exact ⟨h.1.1.2, h.1.2⟩

/-- Issue on a ready tile. -/
theorem Tx.issue_ready (t : Tx s) (i unit op : Nat) (side : Side) (w : NInstr) (body : Tx s → Tx s)
    (h : t.now.readyTile i unit side w = true) :
    t.issue i unit op side w body = (body t).modTiles i Tile.settle := by
  obtain ⟨h1, h2, h3, -⟩ := (readyTile_iff ..).mp h
  simp [Tx.issue, h1, h2, h3, issueLegal_waits h2]

/-- Issue with an unmet WAIT condition. -/
theorem Tx.issue_held (t : Tx s) (i unit op : Nat) (side : Side) (w : NInstr) (body : Tx s → Tx s) (c : Nat)
    (h1 : t.now.canIssue i side = true) (h2 : waitLegal w.wa.toNat = true ∧ waitLegal w.wb.toNat = true)
    (h3 : unmet ((t.now.tilesAt i).seenBy side) w = some c) :
    t.issue i unit op side w body =
      t.putTiles i ((t.now.tilesAt i).setStream side (((t.now.tilesAt i).stream side).hold w c)) := by
  simp [Tx.issue, h1, h2, h3]

/-- Issue by a stream that cannot issue changes nothing. -/
theorem Tx.issue_cannot (t : Tx s) (i unit op : Nat) (side : Side) (w : NInstr) (body : Tx s → Tx s)
    (h : t.now.canIssue i side = false) : t.issue i unit op side w body = t := by
  simp [Tx.issue, h]

/-- A write of a tile changes that tile and nothing else. -/
theorem tileBecomes_put (s : State) (i : Nat) (x : Tile) : TileBecomes s ((Act.tiles i x).apply s) i x :=
  ⟨by simp, fun j hj => by simp [hj], rfl⟩

theorem TileBecomes.trans {s t u : State} {i : Nat} {x y : Tile} (h : TileBecomes s t i x) (g : TileBecomes t u i y) :
    TileBecomes s u i y :=
  ⟨g.1, fun j hj => (g.2.1 j hj).trans (h.2.1 j hj), by
    have h3 := h.2.2; have g3 := g.2.2
    rw [← h3, ← g3]⟩

end Sys2Proof.Machine
end

