-- ==== Sys2Proof/Laws/Fields.lean ====
section
/-!
SUPPORT. The law of register fields: what a field reads after a field, the same or another, was written.
-/

namespace Sys2Proof.Machine

variable {s : State}

/-! ### Bits of numbers -/

theorem bits_testBit (x hi lo j : Nat) : (bits x hi lo).testBit j = (decide (j < hi + 1 - lo) && x.testBit (lo + j)) := by
  simp [bits, Nat.testBit_mod_two_pow, Nat.testBit_shiftRight]

theorem bits_lt (x hi lo : Nat) : bits x hi lo < 2 ^ (hi + 1 - lo) := Nat.mod_lt _ (Nat.two_pow_pos _)

theorem setBits_eq (x hi lo v : Nat) : setBits x hi lo v =
    2 ^ lo * (2 ^ (hi + 1 - lo) * (x >>> (lo + (hi + 1 - lo))) + v % 2 ^ (hi + 1 - lo)) + x % 2 ^ lo := by
  unfold setBits bits
  simp only [Nat.shiftLeft_eq, Nat.shiftRight_eq_div_pow, pow_add, ← Nat.div_div_eq_div_mul]
  have h1 := Nat.div_add_mod x (2 ^ lo)
  have h2 := Nat.div_add_mod (x / 2 ^ lo) (2 ^ (hi + 1 - lo))
  generalize x / 2 ^ lo % 2 ^ (hi + 1 - lo) = b at *
  generalize x / 2 ^ lo / 2 ^ (hi + 1 - lo) = h at *
  generalize v % 2 ^ (hi + 1 - lo) = u at *
  have h3 : x = 2 ^ lo * (2 ^ (hi + 1 - lo) * h) + b * 2 ^ lo + x % 2 ^ lo := by
    conv_lhs => rw [← h1, ← h2]
    ring
  have h4 : 2 ^ lo * (2 ^ (hi + 1 - lo) * h + u) = 2 ^ lo * (2 ^ (hi + 1 - lo) * h) + u * 2 ^ lo := by ring
  rw [h4]
  generalize 2 ^ lo * (2 ^ (hi + 1 - lo) * h) = z at *
  omega

theorem setBits_testBit (x hi lo v j : Nat) :
    (setBits x hi lo v).testBit j = if lo ≤ j ∧ j < lo + (hi + 1 - lo) then v.testBit (j - lo) else x.testBit j := by
  rw [setBits_eq, Nat.testBit_two_pow_mul_add _ (Nat.mod_lt _ (Nat.two_pow_pos _)),
    Nat.testBit_two_pow_mul_add _ (Nat.mod_lt _ (Nat.two_pow_pos _)), Nat.testBit_mod_two_pow, Nat.testBit_mod_two_pow,
    Nat.testBit_shiftRight]
  by_cases h1 : j < lo
  · rw [if_neg (by omega : ¬(lo ≤ j ∧ j < lo + (hi + 1 - lo)))]; simp [h1]
  · by_cases h2 : j < lo + (hi + 1 - lo)
    · rw [if_pos (⟨by omega, h2⟩ : lo ≤ j ∧ j < lo + (hi + 1 - lo))]
      have h3 : j - lo < hi + 1 - lo := by omega
      simp [h1, h3]
    · rw [if_neg (by omega : ¬(lo ≤ j ∧ j < lo + (hi + 1 - lo)))]
      have h3 : ¬ j - lo < hi + 1 - lo := by omega
      have h4 : lo + (hi + 1 - lo) + (j - lo - (hi + 1 - lo)) = j := by omega
      simp [h1, h3, h4]

/-! ### Fields of one word -/

/-- BAR0 offset of the word a field begins in. -/
def Fld.word (f : Fld) (n : Nat := 0) (k : Nat := 0) : Nat := f.addr n k + 4 * (f.lo / 32)

/-- A field that lies in one word. -/
theorem State.fld_eq (s : State) (f : Fld) (n k : Nat) (h : f.hi / 32 = f.lo / 32) :
    s.fld f n k = bits (s.regsAt (f.word n k)).toNat (f.hi % 32) (f.lo % 32) := by
  have h1 : f.hi - 32 * (f.lo / 32) = f.hi % 32 := by omega
  have h2 : f.lo - 32 * (f.lo / 32) = f.lo % 32 := by omega
  have h3 : f.lo / 32 + 1 - f.lo / 32 = 1 := by omega
  simp [State.fld, h, h3, h1, h2, State.regSpan, Fld.word]

theorem Tx.setFld_now (t : Tx s) (f : Fld) (v n k : Nat) (h : f.hi / 32 = f.lo / 32) :
    (t.setFld f v n k).now = (Act.regs (f.word n k) (BitVec.ofNat 32
      (setBits (t.now.regsAt (f.word n k)).toNat (f.hi % 32) (f.lo % 32) v))).apply t.now := by
  have h1 : f.hi - 32 * (f.lo / 32) = f.hi % 32 := by omega
  have h2 : f.lo - 32 * (f.lo / 32) = f.lo % 32 := by omega
  have h3 : f.lo / 32 + 1 - f.lo / 32 = 1 := by omega
  simp [Tx.setFld, h, h3, h1, h2, State.regSpan, Fld.word, Tx.putSpan]

/-- Does the field of page number `n` hold what is written to it: every bit of it is a defined bit of its word? -/
def Fld.kept (f : Fld) (n : Nat := 0) (k : Nat := 0) : Bool :=
  f.hi / 32 = f.lo / 32 && f.lo ≤ f.hi &&
    bits (definedMask (f.word n k)).toNat (f.hi % 32) (f.lo % 32) = 2 ^ (f.hi + 1 - f.lo) - 1

theorem kept_testBit (m hi lo w : Nat) (h : bits m hi lo = 2 ^ (hi + 1 - lo) - 1) (j : Nat) (h1 : lo ≤ j)
    (h2 : j < hi + 1) (_ : w = 0) : m.testBit j = true := by
  have := congrArg (fun x => x.testBit (j - lo)) h
  simp only [bits_testBit, Nat.testBit_two_pow_sub_one, show lo + (j - lo) = j by omega] at this
  simpa [show j - lo < hi + 1 - lo by omega] using this

/-- A field reads what was written to it, cut to its width. -/
theorem fld_write_same (t : Tx s) (f : Fld) (v n k : Nat) (hk : f.kept n k = true) :
    ((t.setFld f v n k).now).fld f n k = v % 2 ^ (f.hi + 1 - f.lo) := by
  simp only [Fld.kept, Bool.and_eq_true, decide_eq_true_eq] at hk
  obtain ⟨⟨hw, hl⟩, hm⟩ := hk
  have hh : f.hi % 32 + 1 - f.lo % 32 = f.hi + 1 - f.lo := by omega
  rw [State.fld_eq _ _ _ _ hw, Tx.setFld_now _ _ _ _ _ hw]
  simp only [Act.apply_regsAt, if_true]
  refine Nat.eq_of_testBit_eq fun j => ?_
  rw [bits_testBit, Nat.testBit_mod_two_pow, hh]
  by_cases hj : j < f.hi + 1 - f.lo
  · have hm' := kept_testBit _ _ _ 0 (hh ▸ hm) (f.lo % 32 + j) (by omega) (by omega) rfl
    simp only [hj, decide_true, Bool.true_and]
    rw [BitVec.toNat_and, Nat.testBit_and, hm', BitVec.toNat_ofNat, Nat.testBit_mod_two_pow, setBits_testBit,
      if_pos (by omega)]
    simp [show f.lo % 32 + j < 32 by omega]
  · simp [hj]

/-- A field in another word is not touched. -/
theorem fld_write_word (t : Tx s) (f g : Fld) (v n k m l : Nat) (hf : f.hi / 32 = f.lo / 32) (hg : g.hi / 32 = g.lo / 32)
    (h : g.word m l ≠ f.word n k) : ((t.setFld f v n k).now).fld g m l = t.now.fld g m l := by
  rw [State.fld_eq _ _ _ _ hg, State.fld_eq _ _ _ _ hg, Tx.setFld_now _ _ _ _ _ hf]
  simp only [Act.apply_regsAt, h, if_false]

/-- Another field of the same word is not touched. -/
theorem fld_write_other (t : Tx s) (f g : Fld) (v n k m l : Nat) (hf : f.hi / 32 = f.lo / 32) (hg : g.kept m l = true)
    (hb : g.hi % 32 < f.lo % 32 ∨ f.hi % 32 < g.lo % 32) : ((t.setFld f v n k).now).fld g m l = t.now.fld g m l := by
  simp only [Fld.kept, Bool.and_eq_true, decide_eq_true_eq] at hg
  obtain ⟨⟨hw, hl⟩, hm⟩ := hg
  by_cases h : g.word m l = f.word n k
  · have hh : g.hi % 32 + 1 - g.lo % 32 = g.hi + 1 - g.lo := by omega
    rw [State.fld_eq _ _ _ _ hw, State.fld_eq _ _ _ _ hw, Tx.setFld_now _ _ _ _ _ hf]
    simp only [Act.apply_regsAt, h, if_true]
    rw [h] at hm
    refine Nat.eq_of_testBit_eq fun j => ?_
    rw [bits_testBit, bits_testBit, hh]
    by_cases hj : j < g.hi + 1 - g.lo
    · have hm' := kept_testBit _ _ _ 0 (hh ▸ hm) (g.lo % 32 + j) (by omega) (by omega) rfl
      rw [BitVec.toNat_and, Nat.testBit_and, hm', BitVec.toNat_ofNat, Nat.testBit_mod_two_pow, setBits_testBit,
        if_neg (by omega)]
      simp [show g.lo % 32 + j < 32 by omega]
    · simp [hj]
  · exact fld_write_word t f g v n k m l hf hw h

/-! ### Which fields keep what is written to them -/

theorem Fld.word_eq (f : Fld) (n k : Nat) : f.word n k = f.page.base n + (f.off + f.stride * k + 4 * (f.lo / 32)) := by
  unfold Fld.word Fld.addr; omega

theorem rowsMask_map (l : List FldRow) (g : FldRow → FldRow) (h : ∀ f, (g f).mask = f.mask) : rowsMask (l.map g) = rowsMask l := by
  unfold rowsMask
  rw [List.foldl_map]
  simp only [h]

theorem rowsMask_ite (c : Prop) [Decidable c] (a b a' b' : List FldRow) (h1 : rowsMask a = rowsMask a')
    (h2 : rowsMask b = rowsMask b') : rowsMask (if c then a else b) = rowsMask (if c then a' else b') := by
  split <;> assumption

/-- The bits a word defines are the same on every page of a type. -/
theorem rowsMask_page (p : Page) (n o : Nat) : rowsMask (wordRows p n o) = rowsMask (wordRows p 0 o) := by
  unfold wordRows
  split
  · unfold headerRow; repeat' apply rowsMask_ite
    all_goals rfl
  · split
    · rw [rowsMask_map, rowsMask_map] <;> intro f <;> (repeat' split) <;> rfl
    · rfl

/-- A field whose page exists and whose bits its word defines keeps what is written to it. -/
theorem Fld.kept_of (f : Fld) (n k : Nat) (hn : n < f.page.count)
    (ho : f.off + f.stride * k + 4 * (f.lo / 32) < f.page.size)
    (hx : ((f.page = .MSIX || f.page = .PBA) && n = 0) = false) (hw : (f.hi / 32 = f.lo / 32 && f.lo ≤ f.hi) = true)
    (hm : bits (rowsMask (wordRows f.page 0 (f.off + f.stride * k + 4 * (f.lo / 32))) % 2 ^ 32) (f.hi % 32) (f.lo % 32) =
      2 ^ (f.hi + 1 - f.lo) - 1) :
    f.kept n k = true := by
  unfold Fld.kept
  rw [Fld.word_eq, definedMask_base _ _ _ hn ho hx, BitVec.toNat_ofNat, rowsMask_page, hm, hw]
  simp

end Sys2Proof.Machine
end

