-- ==== Sys2Proof/Laws/Quiet.lean ====
section
/-!
SUPPORT. What the reports of a command can change: interrupts, error records and life-log counts touch interrupt and error
words, the life log, the error records' latches and the output, and nothing else (`Quiet`).
-/

namespace Sys2Proof.Machine

variable {s : State}

theorem Quiet.refl (s : State) : Quiet s s := ⟨rfl, fun _ _ => rfl⟩

theorem Quiet.trans {s t u : State} (h : Quiet s t) (g : Quiet t u) : Quiet s u := by
  refine ⟨?_, fun a ha => (g.2 a ha).trans (h.2 a ha)⟩
  obtain ⟨h1, -⟩ := h
  obtain ⟨g1, -⟩ := g
  rw [← h1, ← g1]

theorem Quiet.ite {r : State} {c : Prop} [Decidable c] {t u : Tx s} (ht : Quiet r t.now) (hu : Quiet r u.now) :
    Quiet r (if c then t else u).now := by split <;> assumption

theorem Quiet.regs {s : State} (k : Nat) (v : Word) (h : reportWord k = true) : Quiet s ((Act.regs k v).apply s) := by
  refine ⟨rfl, fun a ha => ?_⟩
  have : a ≠ k := fun e => by rw [e, h] at ha; cases ha
  simp [this]

theorem Quiet.out {s : State} (o : Output) : Quiet s ((Act.out o).apply s) := ⟨rfl, fun _ _ => rfl⟩
theorem Quiet.life {s : State} (v : LifeLog) : Quiet s ((Act.life v).apply s) := ⟨rfl, fun _ _ => rfl⟩
theorem Quiet.errPages {s : State} (k : Nat) (v : ErrPage) : Quiet s ((Act.errPages k v).apply s) := ⟨rfl, fun _ _ => rfl⟩
theorem Quiet.fresh {s : State} (v : Nat) : Quiet s ((Act.fresh v).apply s) := ⟨rfl, fun _ _ => rfl⟩

theorem Quiet.fld {s t : State} (h : Quiet s t) (f : Fld) (n k : Nat) (hw : f.hi / 32 = f.lo / 32)
    (ha : reportWord (f.word n k) = false) : t.fld f n k = s.fld f n k := by
  rw [State.fld_eq _ _ _ _ hw, State.fld_eq _ _ _ _ hw, h.2 _ ha]

theorem reportWord_base (p : Page) (n o : Nat) (hn : n < p.count) (ho : o < p.size)
    (hx : ((p = .MSIX || p = .PBA) && n = 0) = false) :
    reportWord (p.base n + o) = ((!p.isWindow && (o = 0x20 || o = 0x2C || (0x40 ≤ o && o ≤ 0x60))) || p = .PBAPF ||
      p = .PBA || (p = .ERRSYS && ERRSYS.CNT.COUNT.off ≤ o && o < ERRSYS.CNT.COUNT.off + 4 * 5)) := by
  unfold reportWord; rw [bar0_base p n o hn ho hx]

theorem Page.size_header (p : Page) (h : p.isWindow = false) : p.size = 0x1000 := by cases p <;> first | rfl | cases h

/-- The words of a page's header that reports write. -/
theorem reportWord_header (p : Page) (n o : Nat) (hn : n < p.count) (hp : p.isWindow = false)
    (ho : o = 0x20 ∨ o = 0x2C ∨ (0x40 ≤ o ∧ o ≤ 0x60)) : reportWord (p.base n + o) = true := by
  rw [reportWord_base p n o hn (by rw [p.size_header hp]; omega) (by cases p <;> first | rfl | cases hp)]
  rcases ho with rfl | rfl | ⟨h1, h2⟩ <;> simp [*]

theorem Quiet.setFld (t : Tx s) (f : Fld) (v n k : Nat) (hf : f.hi / 32 = f.lo / 32)
    (hw : reportWord (f.word n k) = true) : Quiet t.now (t.setFld f v n k).now := by
  rw [Tx.setFld_now _ _ _ _ _ hf]; exact .regs _ _ hw

theorem Quiet.putSpan (t : Tx s) (a n v : Nat) (hw : ∀ i < n, reportWord (a + 4 * i) = true) :
    Quiet t.now (t.putSpan a n v).now := by
  induction n generalizing t a v with
  | zero => exact .refl _
  | succ n ih =>
    refine .trans (.regs _ _ (hw 0 (by omega))) (ih (t.putRegs a _) (a + 4) (v >>> 32) fun i hi => ?_)
    have := hw (i + 1) (by omega)
    rwa [show a + 4 + 4 * i = a + 4 * (i + 1) by omega]

/-- An interrupt message or its pending bit is a report. -/
theorem Quiet.msix (t : Tx s) (f v : Nat) (hf : f < 64) : Quiet t.now (t.msix f v).now := by
  unfold Tx.msix
  cases h : msixAt f v with
  | none => exact .refl _
  | some cp =>
    obtain ⟨c, p⟩ := cp
    simp only
    split
    · exact .refl _
    split
    · refine .regs _ _ ?_
      unfold msixAt at h
      split at h
      · split at h
        · simp only [Option.some.injEq, Prod.mk.injEq] at h
          rw [← h.2, reportWord_base .PBAPF 0 _ (by decide) (by simp only [Page.size]; omega) rfl]; rfl
        · cases h
      · split at h
        · rename_i hf0 _
          simp only [Option.some.injEq, Prod.mk.injEq] at h
          rw [← h.2, ← Nat.add_zero (Page.PBA.base f), reportWord_base .PBA f 0 hf (by decide) (by simp [hf0])]; rfl
        · cases h
    · exact .out _

/-- Raising an interrupt source is a report. -/
theorem Quiet.raiseIrq (t : Tx s) (p : Page) (n b : Nat) (hn : n < p.count) (hp : p.isWindow = false) :
    Quiet t.now (t.raiseIrq p n b).now := by
  have h : Quiet t.now (t.setFld (HDR.IRQ_STAT p) (t.fld (HDR.IRQ_STAT p) n ||| 2 ^ b) n).now :=
    .setFld _ _ _ _ _ (by simp [HDR.IRQ_STAT]) (by rw [Fld.word_eq]; exact reportWord_header p n _ hn hp (by simp [HDR.IRQ_STAT]))
  unfold Tx.raiseIrq Tx.irqEdge
  dsimp only
  split
  · exact h.trans (.msix _ _ _ (by decide))
  · exact h

/-- Giving an interrupt source a level is a report. -/
theorem Quiet.levelIrq (t : Tx s) (p : Page) (n b : Nat) (on : Bool) (hn : n < p.count) (hp : p.isWindow = false) :
    Quiet t.now (t.levelIrq p n b on).now := by
  have h : ∀ v, Quiet t.now (t.setFld (HDR.IRQ_RAW p) v n).now := fun v =>
    .setFld _ _ _ _ _ (by simp [HDR.IRQ_RAW]) (by rw [Fld.word_eq]; exact reportWord_header p n _ hn hp (by simp [HDR.IRQ_RAW]))
  unfold Tx.levelIrq
  dsimp only
  split
  · exact (h _).trans (.raiseIrq _ _ _ _ hn hp)
  · exact h _

theorem Quiet.lifeCount (t : Tx s) (k by_ : Nat) : Quiet t.now (t.lifeCount k by_).now := .life _
theorem Quiet.lifeEvent (t : Tx s) (r : Nat) : Quiet t.now (t.lifeEvent r).now := .life _
theorem Quiet.freshen (t : Tx s) : Quiet t.now t.freshen.now := .fresh _
theorem Quiet.lifeNote (t : Tx s) : Quiet t.now t.lifeNote.now := (Quiet.freshen t).trans (.lifeEvent _ _)

/-- Logging an error is a report. -/
theorem Quiet.logError (t : Tx s) (p : Page) (n : Nat) (e : Err) (hn : n < p.count) (hp : p.isWindow = false)
    (he : e.cls ≤ 5) : Quiet t.now (t.logError p n e).now := by
  have h1 : Quiet t.now (t.bump (HDR.ERR_CNT.COUNT p) 1 n).now :=
    .setFld _ _ _ _ _ (by simp [HDR.ERR_CNT.COUNT]) (by rw [Fld.word_eq]; exact reportWord_header p n _ hn hp (by simp [HDR.ERR_CNT.COUNT]))
  have h2 : ∀ u : Tx s, Quiet u.now (u.bump ERRSYS.CNT.COUNT 1 0 (e.cls - 1)).now := fun u =>
    .setFld _ _ _ _ _ (by simp [ERRSYS.CNT.COUNT]) (by
      rw [Fld.word_eq]
      change reportWord (Page.ERRSYS.base 0 + (0x100 + 4 * (e.cls - 1))) = true
      rw [reportWord_base .ERRSYS 0 _ (by decide) (by simp only [Page.size]; omega) rfl]
      have h : 0x100 + 4 * (e.cls - 1) < 0x100 + 4 * 5 := by omega
      simp [ERRSYS.CNT.COUNT, h])
  have h3 : ∀ (u : Tx s) (k : Option Nat), Quiet u.now (match k with | some k => u.lifeCount k | none => u).now :=
    fun u k => by cases k <;> exact .refl _
  have h4 : ∀ (u : Tx s) (r : Nat) (q : ErrPage), Quiet u.now ((u.putSpan (p.base n + 0x40) 8 r).putErrPages (p.base n) q).now :=
    fun u r q => (Quiet.putSpan u _ _ _ fun i hi => by
      rw [Nat.add_assoc]; exact reportWord_header p n _ hn hp (.inr (.inr ⟨by omega, by omega⟩))).trans (.errPages _ _)
  have h5 : ∀ u : Tx s, Quiet u.now (u.setFld (HDR.ERR_LOG.OVF p) 1 n).now := fun u =>
    .setFld _ _ _ _ _ (by simp [HDR.ERR_LOG.OVF]) (by rw [Fld.word_eq]; exact reportWord_header p n _ hn hp (by simp [HDR.ERR_LOG.OVF]))
  have h6 : ∀ (u : Tx s) (b : Nat), Quiet u.now (u.raiseIrq .ERRSYS 0 b).now := fun u b => .raiseIrq _ _ _ _ (by decide) rfl
  have h7 : ∀ u : Tx s, Quiet t.now u.now → Quiet t.now
      (if e.cls = 2 then u.raiseIrq .ERRSYS 0 0 else if e.cls = 3 then (u.raiseIrq .ERRSYS 0 1).lifeEvent (errRecord t.now e) else u).now :=
    fun u hu => .ite (hu.trans (h6 u 0)) (.ite (hu.trans ((h6 u 1).trans (.lifeEvent _ _))) hu)
  have h8 := (h1.trans (h2 _)).trans (h3 _ (lifeIndex p n e.cls))
  exact h7 _ (.ite (h8.trans (h4 _ _ _)) (h8.trans (h5 _)))

theorem Status.cls_le (st : Status) : st.cls ≤ 5 := by cases st <;> decide

theorem Quiet.logStatus (t : Tx s) (p : Page) (n : Nat) (st : Status) (hn : n < p.count) (hp : p.isWindow = false) :
    Quiet t.now (t.logStatus p n st).now := .logError _ _ _ _ hn hp st.cls_le

end Sys2Proof.Machine
end

