-- ==== Sys2Proof/Laws/Engine.lean ====
section
/-!
SUPPORT. What issuing an engine instruction does (R52, R95, R203, R205): the plan's update at issue, its steps in order, and the
instruction in flight; and what one step does whose operands lie in the scratchpad or in tile registers.
-/

namespace Sys2Proof.Machine

variable {s : State}

/-- With no instruction at work, no pipe and no queue is taken. -/
theorem Tile.free_busy {x : Tile} (h : x.enginesFree = true) (unit op : Nat) (es : List (EStep s)) :
    x.pipeBusy unit op = false ∧ x.queueBusy es = false := by
  simp only [Tile.enginesFree, List.all_eq_true, Bool.not_eq_true'] at h
  simp only [Tile.pipeBusy, Tile.queueBusy, List.any_eq_false, Bool.and_eq_true, not_and]
  exact ⟨fun e he hw => absurd hw (by simp [h e he]), fun e he hw => absurd hw (by simp [h e he])⟩

/-- An engine instruction on a ready tile whose plan runs legal steps with its inbound queues filled. -/
theorem issueEngine_run (i unit op : Nat) (side : Side) (w : NInstr) (plan : Tx s → Plan s) (atIssue : Tx s → Tx s)
    (steps : List (EStep s)) (mont : Bool) (h : s.readyTile i unit side w = true) (hu : 2 ≤ unit)
    (hp : plan (begin s) = .run atIssue steps mont) (hl : (begin s).stepsLegal i steps = true)
    (hq : ∀ q, q < 8 → queueWant steps q ≤ ((s.tilesAt i).inq.getD q {}).words.length) :
    (begin s).issueEngine i unit op side w plan =
      (let t := ((atIssue ((begin s).putTiles i (issueTile (s.tilesAt i) side w))).when mont
          fun t => t.bump TILE.RESCNT.GENERIC 1 i).runSteps i unit false steps
       if t.now.runState i = runStopped then t
       else t.modTiles i fun x => { x with engines := x.engines ++ [x.flying unit op w
          ((List.range 8).filter fun q => queueWant steps q ≠ 0)
          ((List.range 8).filter (namesQueue (steps.flatMap (·.writes))))] }).modTiles i Tile.settle := by
  obtain ⟨hb, hb'⟩ := Tile.free_busy (((readyTile_iff ..).mp h).2.2.2.resolve_left (by omega)) unit op steps
  unfold Tx.issueEngine
  rw [Tx.issue_ready (begin s) _ _ _ _ _ _ h]
  simp only [hp, hl, hb, hb', Bool.not_true, Bool.false_eq_true, if_false, Tx.tilesAt_eq, begin_now]
  have hneg : ¬ ((List.range 8).any fun q => decide (((s.tilesAt i).inq.getD q {}).words.length < queueWant steps q)) = true := by
    simpa using hq
  exact congrArg (fun t : Tx s => t.modTiles i Tile.settle) (if_neg hneg)

/-- An engine instruction that finds an inbound queue too short issues, and its steps go as far as the queues allow. -/
theorem issueEngine_stalls (i unit op : Nat) (side : Side) (w : NInstr) (plan : Tx s → Plan s) (atIssue : Tx s → Tx s)
    (steps : List (EStep s)) (mont : Bool) (q : Nat) (h : s.readyTile i unit side w = true) (hu : 2 ≤ unit)
    (hp : plan (begin s) = .run atIssue steps mont) (hl : (begin s).stepsLegal i steps = true) (hq : q < 8)
    (hs : ((s.tilesAt i).inq.getD q {}).words.length < queueWant steps q) :
    (begin s).issueEngine i unit op side w plan =
      (((((atIssue ((begin s).putTiles i (issueTile (s.tilesAt i) side w))).when mont
          fun t => t.bump TILE.RESCNT.GENERIC 1 i).modTiles i fun x => { x with engines := x.engines ++ [{ x.flying unit op w
          ((List.range 8).filter fun q => queueWant steps q ≠ 0)
          ((List.range 8).filter (namesQueue (steps.flatMap (·.writes)))) with
            left := steps.length, side := side, word := w, view := s.issueView i }] }).flowSteps i unit steps)).modTiles i
        Tile.settle := by
  obtain ⟨hb, hb'⟩ := Tile.free_busy (((readyTile_iff ..).mp h).2.2.2.resolve_left (by omega)) unit op steps
  unfold Tx.issueEngine
  rw [Tx.issue_ready (begin s) _ _ _ _ _ _ h]
  simp only [hp, hl, hb, hb', Bool.not_true, Bool.false_eq_true, if_false, Tx.tilesAt_eq, begin_now]
  have hpos : ((List.range 8).any fun q => decide (((s.tilesAt i).inq.getD q {}).words.length < queueWant steps q)) = true := by
    rw [List.any_eq_true]; exact ⟨q, by simpa using hq, by simpa using hs⟩
  exact congrArg (fun t : Tx s => t.modTiles i Tile.settle) (if_pos hpos)

/-- An operand that is no queue. -/
def Opnd.plain : Opnd → Bool
  | .queue _ => false
  | _ => true

/-- Reading operands that are no queues changes nothing. -/
theorem readAll_plain (t : Tx s) (i : Nat) (rs : List (Opnd × Nat × Nat)) (h : ∀ r ∈ rs, r.1.plain = true) :
    t.readAll i rs = (t, rs.map fun r => (t.readOpnd i r.1 r.2.1).2) := by
  induction rs with
  | nil => rfl
  | cons r rs ih =>
    have h1 : (t.readOpnd i r.1 r.2.1).1 = t := by
      have := h r (by simp)
      cases hr : r.1 with
      | queue q => rw [hr] at this; cases this
      | spad o => rfl
      | tr k => rfl
    simp only [Tx.readAll, h1, ih fun x hx => h x (List.mem_cons_of_mem _ hx), List.map_cons]

/-- One step whose sources are no queues, are not poisoned and are canonical (or not trapped), and that neither checks nor stops
the tile. -/
theorem runSteps_one (t : Tx s) (i unit : Nat) (e : EStep s) (hr : ∀ r ∈ e.reads, r.1.plain = true)
    (hb : ∀ r ∈ e.reads, (t.readOpnd i r.1 r.2.1).2.bad = false)
    (hn : ∀ r ∈ e.reads, r.2.2 ≠ 0 → nonCanonical r.2.2 (t.readOpnd i r.1 r.2.1).2.words = false)
    (hmo : e.more = [])
    (hc : ∀ x ws, e.check x ws = none) (hs : ∀ x ws, e.stop x ws = none) :
    t.runSteps i unit false [e] =
      (let srcs := e.reads.map fun r => (t.readOpnd i r.1 r.2.1).2
       let ws := srcs.map (·.words)
       let c := e.compute (t.tilesAt i) ws
       ((e.note (t.tilesAt i) ws t).putTiles i (tagTile c.1 e.tagBanks (srcs.flatMap (·.tags)))).writeAll i (e.writes.zip c.2)) := by
  have h1 : ((e.reads.zip (e.reads.map fun r => (t.readOpnd i r.1 r.2.1).2)).any fun p =>
      decide (p.1.2.2 ≠ 0) && nonCanonical p.1.2.2 p.2.words) = false := by
    rw [Bool.eq_false_iff]
    intro hh
    obtain ⟨p, hp, hq⟩ := List.any_eq_true.mp hh
    rw [List.zip_map_right, List.mem_map] at hp
    obtain ⟨q, hq', rfl⟩ := hp
    have hm : q.1 ∈ e.reads := (List.of_mem_zip hq').1
    have heq : q.2 = q.1 := by
      obtain ⟨k, hk, hk'⟩ := List.getElem_of_mem hq'
      rw [List.getElem_zip] at hk'; rw [← hk']
    simp only [Bool.and_eq_true, decide_eq_true_eq, Prod.map, id] at hq
    rw [heq] at hq
    rw [hn _ hm hq.1] at hq
    exact absurd hq.2 (by simp)
  have h2 : (e.reads.map fun r => (t.readOpnd i r.1 r.2.1).2).find? (·.bad) = none := by
    rw [List.find?_eq_none]
    intro x hx
    obtain ⟨r, hr', rfl⟩ := List.mem_map.mp hx
    simp [hb r hr']
  simp only [Tx.runSteps, readAll_plain t i e.reads hr, h1, h2, hmo, List.any_nil, Bool.or_false, Bool.false_and, Bool.false_eq_true, if_false, hc, hs]

end Sys2Proof.Machine
end

