-- ==== Sys2Proof/Laws/RegForm.lean ====
section
/-!
SUPPORT. What an engine instruction on tile registers does (R172, R205, R207): its tile takes the results, the tile's counters
and flags take note of it, and nothing else changes.
-/

namespace Sys2Proof.Machine

variable {s : State}

/-- Two states that differ at most in their tiles. -/
def SameButTiles (a b : State) : Prop := { a with tiles := b.tiles } = b

theorem SameButTiles.refl (a : State) : SameButTiles a a := rfl
theorem SameButTiles.trans {a b c : State} (h : SameButTiles a b) (g : SameButTiles b c) : SameButTiles a c := by
  have e : { a with tiles := c.tiles } = { b with tiles := c.tiles } := congrArg (fun x : State => { x with tiles := c.tiles }) h
  exact e.trans g
theorem SameButTiles.regs {a b : State} (h : SameButTiles a b) : a.regs = b.regs := by
  unfold SameButTiles at h; rw [← h]
theorem SameButTiles.regsAt {a b : State} (h : SameButTiles a b) (k : Nat) : a.regsAt k = b.regsAt k := by
  unfold State.regsAt; rw [h.regs]
theorem SameButTiles.deferred {a b : State} (h : SameButTiles a b) : a.deferred = b.deferred := by
  unfold SameButTiles at h; rw [← h]

theorem SameButTiles.tiles {a b : State} (h : SameButTiles a b) (i : Nat) (x : Tile) :
    SameButTiles ((Act.tiles i x).apply a) b := by
  unfold SameButTiles at *; rw [← h]; rfl

theorem SameButTiles.putRegs {a b : State} (h : SameButTiles a b) (k : Nat) (v : Word) :
    SameButTiles ((Act.regs k v).apply a) ((Act.regs k v).apply b) := by
  unfold SameButTiles at *; rw [← h]; rfl

/-- The same field write on both. -/
theorem SameButTiles.setFld {r u : State} {t : Tx s} {v : Tx r} (h : SameButTiles t.now v.now) (f : Fld) (x n k : Nat)
    (hw : f.hi / 32 = f.lo / 32) : SameButTiles (t.setFld f x n k).now (v.setFld f x n k).now := by
  rw [Tx.setFld_now _ _ _ _ _ hw, Tx.setFld_now _ _ _ _ _ hw, h.regsAt]
  exact h.putRegs _ _

theorem SameButTiles.fld {a b : State} (h : SameButTiles a b) (f : Fld) (n k : Nat) (hw : f.hi / 32 = f.lo / 32) :
    a.fld f n k = b.fld f n k := by
  rw [State.fld_eq _ _ _ _ hw, State.fld_eq _ _ _ _ hw, h.regsAt]

theorem SameButTiles.bump {r : State} {t : Tx s} {v : Tx r} (h : SameButTiles t.now v.now) (f : Fld) (x n k : Nat)
    (hw : f.hi / 32 = f.lo / 32) : SameButTiles (t.bump f x n k).now (v.bump f x n k).now := by
  unfold Tx.bump Tx.fld
  rw [h.fld f n k hw]
  exact h.setFld f _ n k hw (u := s)

theorem SameButTiles.when {r : State} {t : Tx s} {v : Tx r} (h : SameButTiles t.now v.now) (c : Bool) {f : Tx s → Tx s}
    {g : Tx r → Tx r} (hf : SameButTiles (f t).now (g v).now) : SameButTiles (t.when c f).now (v.when c g).now := by
  unfold Tx.when; split
  · exact hf
  · exact h

theorem SameButTiles.pclFlags {r : State} {t : Tx s} {v : Tx r} (h : SameButTiles t.now v.now) (i fl : Nat) :
    SameButTiles (t.pclFlags i fl).now (v.pclFlags i fl).now := by
  unfold Tx.pclFlags
  split
  · exact h
  · have h' : SameButTiles (t.putRegs (TILE.PCLFLAGS.NX.addr i 0) (t.regsAt (TILE.PCLFLAGS.NX.addr i 0) ||| BitVec.ofNat 32 fl)).now
        (v.putRegs (TILE.PCLFLAGS.NX.addr i 0) (v.regsAt (TILE.PCLFLAGS.NX.addr i 0) ||| BitVec.ofNat 32 fl)).now := by
      simp only [Tx.putRegs_now, Tx.regsAt_eq, h.regsAt]
      exact h.putRegs _ _
    exact h'.when _ (h'.bump _ _ _ _ rfl)

/-- Counting and flagging change no tile. -/
theorem bump_tilesAt (t : Tx s) (f : Fld) (x n k j : Nat) (hw : f.hi / 32 = f.lo / 32) :
    (t.bump f x n k).now.tilesAt j = t.now.tilesAt j := by
  unfold Tx.bump; rw [Tx.setFld_now _ _ _ _ _ hw, Act.apply_tilesAt]

theorem when_tilesAt (t : Tx s) (c : Bool) (f : Tx s → Tx s) (j : Nat) (h : (f t).now.tilesAt j = t.now.tilesAt j) :
    (t.when c f).now.tilesAt j = t.now.tilesAt j := by
  unfold Tx.when; split
  · exact h
  · rfl

theorem pclFlags_tilesAt (t : Tx s) (i fl j : Nat) : (t.pclFlags i fl).now.tilesAt j = t.now.tilesAt j := by
  unfold Tx.pclFlags
  split
  · rfl
  · rw [when_tilesAt]
    · simp
    · rw [bump_tilesAt _ _ _ _ _ _ rfl]

/-- Tile registers written in order. -/
theorem writeAll_regs (t : Tx s) (i : Nat) (ks : List Nat) (n : Nat) (vs : List (List Nat)) :
    let u := t.writeAll i ((ks.map fun k => (Opnd.tr k, n)).zip vs)
    SameButTiles u.now t.now ∧ (∀ j, j ≠ i → u.now.tilesAt j = t.now.tilesAt j) ∧
    u.now.tilesAt i = (ks.zip vs).foldl (fun x p => x.setReg p.1 p.2) (t.now.tilesAt i) := by
  induction ks generalizing t vs with
  | nil => exact ⟨rfl, fun _ _ => rfl, rfl⟩
  | cons k ks ih =>
    cases vs with
    | nil => exact ⟨rfl, fun _ _ => rfl, rfl⟩
    | cons v vs =>
      obtain ⟨h1, h2, h3⟩ := ih (t.modTiles i (·.setReg k v)) vs
      have e : t.writeAll i (((k :: ks).map fun k => (Opnd.tr k, n)).zip (v :: vs)) =
          (t.modTiles i (·.setReg k v)).writeAll i ((ks.map fun k => (Opnd.tr k, n)).zip vs) := rfl
      rw [e]
      refine ⟨?_, fun j hj => ?_, ?_⟩
      · have : SameButTiles (t.modTiles i (·.setReg k v)).now t.now := by
          simp only [Tx.modTiles_now]; exact (SameButTiles.refl _).tiles _ _
        exact h1.trans this
      · rw [h2 j hj]; simp [hj]
      · rw [h3]; simp

/-- Two words of one page of a type differ where their offsets do. -/
theorem Fld.word_ne (f g : Fld) (n k l : Nat) (hp : f.page = g.page)
    (h : f.off + f.stride * k + 4 * (f.lo / 32) ≠ g.off + g.stride * l + 4 * (g.lo / 32)) : f.word n k ≠ g.word n l := by
  rw [Fld.word_eq, Fld.word_eq, hp]; omega

/-- A field of another word is not touched by counting. -/
theorem bump_fld (t : Tx s) (f g : Fld) (x n k m l : Nat) (hf : f.hi / 32 = f.lo / 32) (hg : g.hi / 32 = g.lo / 32)
    (h : g.word m l ≠ f.word n k) : (t.bump f x n k).now.fld g m l = t.now.fld g m l := by
  unfold Tx.bump; exact fld_write_word _ _ _ _ _ _ _ _ hf hg h

theorem when_eq (t : Tx s) (c : Bool) (f : Tx s → Tx s) {α : Type} (p : State → α) (h : p (f t).now = p t.now) :
    p (t.when c f).now = p t.now := by
  unfold Tx.when; split
  · exact h
  · rfl

theorem when_bump_fld (t : Tx s) (c : Bool) (f g : Fld) (x n k m l : Nat) (hf : f.hi / 32 = f.lo / 32)
    (hg : g.hi / 32 = g.lo / 32) (h : g.word m l ≠ f.word n k) :
    (t.when c fun t => t.bump f x n k).now.fld g m l = t.now.fld g m l := by
  unfold Tx.when; split
  · exact bump_fld t f g x n k m l hf hg h
  · rfl

/-- Flags leave the fields of other words alone. -/
theorem pclFlags_fld (t : Tx s) (i fl : Nat) (g : Fld) (hg : g.hi / 32 = g.lo / 32) (hp : g.page = .TILE)
    (h1 : g.off + 4 * (g.lo / 32) ≠ 0x214) (h2 : g.off + 4 * (g.lo / 32) ≠ 0x218) :
    (t.pclFlags i fl).now.fld g i 0 = t.now.fld g i 0 := by
  unfold Tx.pclFlags
  split
  · rfl
  · have e : (t.putRegs (TILE.PCLFLAGS.NX.addr i 0) (t.regsAt (TILE.PCLFLAGS.NX.addr i 0) ||| BitVec.ofNat 32 fl)).now.fld g i 0
        = t.now.fld g i 0 := by
      rw [State.fld_eq _ _ _ _ hg, State.fld_eq _ _ _ _ hg]
      have hne : g.word i 0 ≠ TILE.PCLFLAGS.NX.addr i 0 := by
        rw [Fld.word_eq, hp]
        have : TILE.PCLFLAGS.NX.addr i 0 = Page.TILE.base i + 0x214 := by simp [Fld.addr, TILE.PCLFLAGS.NX]
        rw [this]; omega
      simp only [Tx.putRegs_now, Act.apply_regsAt, hne, if_false]
    rw [when_eq _ _ _ (fun u => u.fld g i 0), e]
    exact bump_fld _ _ _ _ _ _ _ _ rfl hg (Fld.word_ne _ _ _ _ _ hp (by simpa [TILE.PCLCNT.NVCNT] using h2))

theorem issueTile_keeps (x : Tile) (d : Side) (w : NInstr) : (issueTile x d w).trs = x.trs ∧ (issueTile x d w).inq = x.inq ∧
    (issueTile x d w).ocache = x.ocache ∧ (issueTile x d w).ocBad = x.ocBad ∧ (issueTile x d w).engines = x.engines := by
  unfold issueTile consume
  cases d <;> (repeat' split) <;> exact ⟨rfl, rfl, rfl, rfl, rfl⟩

theorem issueTile_reg (x : Tile) (d : Side) (w : NInstr) (k : Nat) : (issueTile x d w).reg k = x.reg k := by
  unfold Tile.reg; rw [(issueTile_keeps x d w).1]

theorem runState_lt (s : State) (i : Nat) (d : Side) (h : s.canIssue i d = true) : s.runState i = runRunning := by
  unfold State.canIssue at h
  simp only [Bool.and_eq_true, decide_eq_true_eq] at h
  exact h.1.1.1.1.1

/-- The word of a register as it is in effect is not touched by counting in another word. -/
theorem bump_flagEff (t : Tx s) (f g : Fld) (x n k m l : Nat) (hf : f.hi / 32 = f.lo / 32) (h : g.word m l ≠ f.word n k) :
    (t.bump f x n k).flagEff g m l = t.flagEff g m l := by
  unfold Tx.flagEff Tx.fldEff State.regEff Tx.bump
  rw [Tx.setFld_now _ _ _ _ _ hf]
  have h' : g.addr m l + 4 * (g.lo / 32) ≠ f.word n k := h
  simp only [Act.apply_regsAt, Act.apply_deferredAt, h', if_false]

theorem putTiles_flagEff (t : Tx s) (i : Nat) (x : Tile) (g : Fld) (m l : Nat) :
    (t.putTiles i x).flagEff g m l = t.flagEff g m l := by
  unfold Tx.flagEff Tx.fldEff State.regEff
  simp only [Tx.putTiles_now, Act.apply_regsAt, Act.apply_deferredAt]

/-- An engine instruction of one step on tile registers. -/
theorem issueEngine_regs (i unit op : Nat) (side : Side) (w : NInstr) (plan : Tx s → Plan s) (e : EStep s) (mont : Bool)
    (rs : List (Nat × Nat)) (ds : List Nat) (fl : List (List Nat) → Nat) (h : s.readyTile i unit side w = true) (hu : 2 ≤ unit)
    (hp : plan (begin s) = .run id [e] mont) (hr : e.reads = rs.map fun r => (.tr r.1, 256, r.2))
    (hw : e.writes = ds.map fun k => (.tr k, 256)) (hn : ∀ x ws (u : Tx s), e.note x ws u = u.pclFlags i (fl ws))
    (ht : e.tagBanks = []) (hmo : e.more = [])
    (hc : ∀ x, x.reg = (s.tilesAt i).reg → x.ocBad = (s.tilesAt i).ocBad →
      e.check x (rs.map fun r => (s.tilesAt i).reg r.1) = none)
    (hs : ∀ x ws, e.stop x ws = none)
    (hnc : (rs.any fun r => r.2 ≠ 0 && nonCanonical r.2 ((s.tilesAt i).reg r.1)) = true →
      (begin s).flagEff TILE.RESCTL.NONCANON_TRAP i = false) :
    ∃ t, done ((begin s).issueEngine i unit op side w plan) = .next t ∧
      SameButTiles t ((((begin s).when mont fun t => t.bump TILE.RESCNT.GENERIC 1 i).when
        (rs.any fun r => r.2 ≠ 0 && nonCanonical r.2 ((s.tilesAt i).reg r.1)) fun t => t.bump TILE.RESCNT.NONCANON 1 i).pclFlags
        i (fl (rs.map fun r => (s.tilesAt i).reg r.1))).now ∧
      (∀ j, j ≠ i → t.tilesAt j = s.tilesAt j) ∧
      t.tilesAt i = Tile.settle
        (let c := e.compute (issueTile (s.tilesAt i) side w) (rs.map fun r => (s.tilesAt i).reg r.1)
         let y : Tile := (ds.zip c.2).foldl (fun x p => x.setReg p.1 p.2) c.1
         { y with engines := y.engines ++ [y.flying unit op w [] []] }) := by
  refine ⟨_, rfl, ?_⟩
  have hq : ∀ q, queueWant [e] q = 0 := by
    intro q
    have : (e.reads.filter fun r => decide (r.1 = .queue q)) = [] := by
      rw [hr, List.filter_eq_nil_iff]; intro r hr'
      obtain ⟨k, -, rfl⟩ := List.mem_map.mp hr'; simp
    simp [queueWant, this]
  have hl : (begin s).stepsLegal i [e] = true := by
    have h1 : spadRanges (e.reads.map fun r => (r.1, r.2.1)) = [] := by
      rw [hr]; simp [spadRanges]
    have h2 : spadRanges e.writes = [] := by rw [hw]; simp [spadRanges]
    unfold Tx.stepsLegal stepsApart EStep.coincides
    simp only [List.flatMap_cons, List.flatMap_nil, List.append_nil, List.all_cons, List.all_nil, h1, h2]
    simp only [hr, hw]
    simp
  rw [issueEngine_run i unit op side w plan id [e] mont h hu hp hl (by intro q _; rw [hq]; omega)]
  have hfil : (List.range 8).filter (fun q => decide (queueWant [e] q ≠ 0)) = [] := by
    rw [List.filter_eq_nil_iff]; intro q _; rw [hq]; simp
  have hout : (List.range 8).filter (namesQueue ([e].flatMap (·.writes))) = [] := by
    rw [List.filter_eq_nil_iff]; intro q _; simp [namesQueue, hw]
  -- the tile after issue and after the counters
  obtain ⟨t1, ht1⟩ : ∃ t1 : Tx s, t1 = (id ((begin s).putTiles i (issueTile (s.tilesAt i) side w))).when mont
    fun t => t.bump TILE.RESCNT.GENERIC 1 i := ⟨_, rfl⟩
  have a1 : SameButTiles t1.now ((begin s).when mont fun t => t.bump TILE.RESCNT.GENERIC 1 i).now := by
    have a0 : SameButTiles ((begin s).putTiles i (issueTile (s.tilesAt i) side w)).now (begin s).now := by
      simp only [Tx.putTiles_now]; exact (SameButTiles.refl _).tiles _ _
    rw [ht1]; exact a0.when _ (a0.bump _ _ _ _ rfl)
  have b1 : ∀ j, t1.now.tilesAt j = if j = i then issueTile (s.tilesAt i) side w else s.tilesAt j := by
    intro j; rw [ht1, when_tilesAt _ _ _ _ (bump_tilesAt _ _ _ _ _ _ rfl)]; simp
  have c1 : t1.now.runState i = runRunning := by
    unfold State.runState
    rw [ht1, when_bump_fld _ _ TILE.RESCNT.GENERIC TILE.RUNSTAT.STATE 1 i 0 i 0 rfl rfl
      (Fld.word_ne _ _ _ _ _ rfl (by decide))]
    have a0 : SameButTiles ((begin s).putTiles i (issueTile (s.tilesAt i) side w)).now s := by
      simp only [Tx.putTiles_now]; exact (SameButTiles.refl _).tiles _ _
    exact (a0.fld TILE.RUNSTAT.STATE i 0 rfl).trans (runState_lt s i side ((readyTile_iff ..).mp h).1)
  have f1 : t1.flagEff TILE.RESCTL.NONCANON_TRAP i = (begin s).flagEff TILE.RESCTL.NONCANON_TRAP i := by
    rw [ht1]; unfold Tx.when; split
    · dsimp only [id]
      rw [bump_flagEff _ TILE.RESCNT.GENERIC TILE.RESCTL.NONCANON_TRAP 1 i 0 i 0 rfl (Fld.word_ne _ _ _ _ _ rfl (by decide))]; exact putTiles_flagEff ..
    · exact putTiles_flagEff ..
  have hread : e.reads.map (fun r => (t1.readOpnd i r.1 r.2.1).2) =
      rs.map fun r => ({ words := (s.tilesAt i).reg r.1, bad := false, line := 0, tags := [] } : Src) := by
    rw [hr, List.map_map]
    apply List.map_congr_left
    intro r _
    have hi : (t1.tilesAt i).reg = (s.tilesAt i).reg := by
      funext k; rw [Tx.tilesAt_eq, b1, if_pos rfl, issueTile_reg]
    simp only [Function.comp, Tx.readOpnd, hi]
  have hall : t1.readAll i e.reads = (t1, rs.map fun r => ({ words := (s.tilesAt i).reg r.1, bad := false, line := 0, tags := [] } : Src)) := by
    rw [readAll_plain t1 i e.reads, hread]
    intro r hr'; rw [hr] at hr'; obtain ⟨k, -, rfl⟩ := List.mem_map.mp hr'; rfl
  have hzip : ((e.reads.zip (rs.map fun r => ({ words := (s.tilesAt i).reg r.1, bad := false, line := 0, tags := [] } : Src))).any
      fun p => decide (p.1.2.2 ≠ 0) && nonCanonical p.1.2.2 p.2.words) =
      rs.any fun r => decide (r.2 ≠ 0) && nonCanonical r.2 ((s.tilesAt i).reg r.1) := by
    rw [hr, List.zip_map']
    rw [List.any_map]; rfl
  have hfind : (rs.map fun r => ({ words := (s.tilesAt i).reg r.1, bad := false, line := 0, tags := [] } : Src)).find? (·.bad) = none := by
    rw [List.find?_eq_none]; intro x hx; obtain ⟨r, -, rfl⟩ := List.mem_map.mp hx; simp
  have hwords : (rs.map fun r => ({ words := (s.tilesAt i).reg r.1, bad := false, line := 0, tags := [] } : Src)).map (·.words) =
      rs.map fun r => (s.tilesAt i).reg r.1 := by rw [List.map_map]; rfl
  obtain ⟨nc, hncd⟩ : ∃ nc, nc = rs.any fun r => decide (r.2 ≠ 0) && nonCanonical r.2 ((s.tilesAt i).reg r.1) := ⟨_, rfl⟩
  obtain ⟨ws, hws⟩ : ∃ ws, ws = rs.map fun r => (s.tilesAt i).reg r.1 := ⟨_, rfl⟩
  obtain ⟨t2, ht2⟩ : ∃ t2 : Tx s, t2 = t1.when nc fun t => t.bump TILE.RESCNT.NONCANON 1 i := ⟨_, rfl⟩
  have b2 : ∀ j, t2.now.tilesAt j = t1.now.tilesAt j := by
    intro j; rw [ht2, when_tilesAt _ _ _ _ (bump_tilesAt _ _ _ _ _ _ rfl)]
  have f2 : nc = true → t2.flagEff TILE.RESCTL.NONCANON_TRAP i = false := by
    intro hh
    rw [ht2, hh]; simp only [Tx.when, if_true]
    rw [bump_flagEff _ TILE.RESCNT.NONCANON TILE.RESCTL.NONCANON_TRAP 1 i 0 i 0 rfl (Fld.word_ne _ _ _ _ _ rfl (by decide)), f1]
    exact hnc (hncd ▸ hh)
  have c2 : t2.now.runState i = runRunning := by
    rw [← c1]; unfold State.runState
    rw [ht2, when_bump_fld _ _ TILE.RESCNT.NONCANON TILE.RUNSTAT.STATE 1 i 0 i 0 rfl rfl
      (Fld.word_ne _ _ _ _ _ rfl (by decide))]
  have x2 : t2.now.tilesAt i = issueTile (s.tilesAt i) side w := by rw [b2, b1, if_pos rfl]
  have hrun : t1.runSteps i unit false [e] = ((t2.pclFlags i (fl ws)).putTiles i (e.compute (issueTile (s.tilesAt i) side w) ws).1).writeAll i
      ((ds.map fun k => (Opnd.tr k, 256)).zip (e.compute (issueTile (s.tilesAt i) side w) ws).2) := by
    have ec : e.check (issueTile (s.tilesAt i) side w) ws = none := by
      rw [hws]; refine hc _ ?_ (issueTile_keeps _ _ _).2.2.2.1
      funext k; exact issueTile_reg _ _ _ _
    unfold Tx.runSteps
    simp only [hall, hfind, hzip, hwords, hmo, List.any_nil, Bool.or_false, ← hncd, ← hws]
    have hw2 : (if (nc && !false) = true then t1.bump TILE.RESCNT.NONCANON 1 i else t1) = t2 := by
      rw [ht2]; simp [Tx.when]
    rw [hw2]
    rw [if_neg (by
      intro hh; simp only [Bool.and_eq_true] at hh
      rw [f2 hh.1] at hh; exact absurd hh.2 (by simp))]
    simp only [Tx.tilesAt_eq, x2, ec, hn, hs, hw, Tx.runSteps, ht]
    rfl
  rw [← ht1, hrun]
  obtain ⟨t3, ht3⟩ : ∃ t3 : Tx s, t3 = (t2.pclFlags i (fl ws)).putTiles i (e.compute (issueTile (s.tilesAt i) side w) ws).1 := ⟨_, rfl⟩
  obtain ⟨d1, d2, d3⟩ := writeAll_regs t3 i ds 256 (e.compute (issueTile (s.tilesAt i) side w) ws).2
  have s3 : SameButTiles t3.now (t2.pclFlags i (fl ws)).now := by
    rw [ht3]; simp only [Tx.putTiles_now]; exact (SameButTiles.refl _).tiles _ _
  have hst : ¬ (t3.writeAll i ((ds.map fun k => (Opnd.tr k, 256)).zip (e.compute (issueTile (s.tilesAt i) side w) ws).2)).now.runState i =
      runStopped := by
    have : (t3.writeAll i ((ds.map fun k => (Opnd.tr k, 256)).zip (e.compute (issueTile (s.tilesAt i) side w) ws).2)).now.runState i
        = runRunning := by
      unfold State.runState
      rw [(d1.trans s3).fld _ _ _ rfl, pclFlags_fld _ _ _ _ rfl rfl (by decide) (by decide)]; exact c2
    rw [this]; decide
  rw [← ht3]
  rw [hfil, hout]
  simp only [if_neg hst, Tx.modTiles_now]
  refine ⟨?_, ?_, ?_⟩
  · refine ((SameButTiles.refl _).tiles _ _).trans (((SameButTiles.refl _).tiles _ _).trans ((d1.trans s3).trans ?_))
    rw [← hncd, ← hws]
    refine SameButTiles.pclFlags ?_ _ _
    rw [ht2]
    exact a1.when _ (a1.bump _ _ _ _ rfl)
  · intro j hj
    simp only [Act.apply_tilesAt, hj, if_false]
    rw [d2 j hj, ht3]
    simp only [Tx.putTiles_now, Act.apply_tilesAt, hj, if_false]
    rw [pclFlags_tilesAt, b2, b1, if_neg hj]
  · simp only [Act.apply_tilesAt, if_true]
    rw [d3, ht3]
    simp only [Tx.putTiles_now, Act.apply_tilesAt, if_true]
    rw [← hws]

end Sys2Proof.Machine
end

