-- ==== Sys2Proof/Laws/Stop.lean ====
section
/-!
SUPPORT. What stopping a tile on an error does (R32, R214, R475): one law for every instruction that stops its tile.
-/

namespace Sys2Proof.Machine

variable {s : State}

theorem Quiet.epochCount {s t : State} (h : Quiet s t) : t.epochCount = s.epochCount := by
  unfold State.epochCount
  rw [h.fld EPOCH.COUNTLO.COUNT 0 0 rfl (by decide +kernel), h.fld EPOCH.COUNTHI.COUNT 0 0 rfl (by decide +kernel)]

theorem Quiet.tilesAt {s t : State} (h : Quiet s t) (i : Nat) : t.tilesAt i = s.tilesAt i := by
  have := congrArg (fun x : State => x.tilesAt i) h.1
  exact this

theorem Quiet.recordsAt {s t : State} (h : Quiet s t) (i : Nat) : t.recordsAt i = s.recordsAt i := by
  have := congrArg (fun x : State => x.recordsAt i) h.1
  exact this

theorem Tx.failRecord_now (t : Tx s) (r : Option Nat) (c : Nat) (st : Status) (d : Nat) :
    (t.failRecord r c st d).now = match r with
      | some k => (Act.records k { t.now.recordsAt k with
          failures := (t.now.recordsAt k).failures ++ [⟨t.now.epochCount, c, st, d⟩] }).apply t.now
      | none => t.now := by
  cases r <;> rfl

theorem reportWord_tile (i o : Nat) (hi : i < 64) (ho : o < 0x1000) (h1 : o ≠ 0x20) (h2 : o ≠ 0x2C)
    (h3 : o < 0x40 ∨ 0x60 < o) : reportWord (Page.TILE.base i + o) = false := by
  rw [reportWord_base .TILE i o hi ho rfl]
  have h4 : ¬ (0x40 ≤ o ∧ o ≤ 0x60) := by omega
  simp [h1, h2]
  omega

/-- Stopping a tile on an error. -/
theorem stopTile_stops (t : Tx s) (i : Nat) (e : Err) (hi : i < 64) (he : e.cls ≤ 5) :
    TileStops t.now (t.stopTile i e).now i e.status (if e.status = .LEDGER then e.detail % 256 else 0) := by
  obtain ⟨u, hu⟩ : ∃ u : Tx s, u = (t.setFld TILE.RUNSTAT.STATE runStopped i).setFld TILE.RUNSTAT.STATUS e.status.code i := ⟨_, rfl⟩
  obtain ⟨v, hv⟩ : ∃ v : Tx s, v = (u.raiseIrq .TILE i 0).logError .TILE i { e with rec? := (t.tilesAt i).rec? } := ⟨_, rfl⟩
  have hq : Quiet u.now v.now := by
    rw [hv]
    exact (Quiet.raiseIrq u .TILE i 0 hi rfl).trans (.logError _ _ _ _ hi rfl he)
  have kS : TILE.RUNSTAT.STATE.kept i 0 = true := Fld.kept_of _ _ _ hi (by decide) rfl rfl (by decide +kernel)
  have kT : TILE.RUNSTAT.STATUS.kept i 0 = true := Fld.kept_of _ _ _ hi (by decide) rfl rfl (by decide +kernel)
  have hst : t.stopTile i e = v.failRecord (t.tilesAt i).rec? (i / 8) e.status (if e.status = .LEDGER then e.detail % 256 else 0) := by
    rw [hv, hu]; rfl
  have hw : TILE.RUNSTAT.STATUS.word i 0 = TILE.RUNSTAT.STATE.addr i 0 := by simp [Fld.word, Fld.addr, TILE.RUNSTAT.STATUS, TILE.RUNSTAT.STATE]
  have hw' : TILE.RUNSTAT.STATE.word i 0 = TILE.RUNSTAT.STATE.addr i 0 := by simp [Fld.word, TILE.RUNSTAT.STATE]
  have hrep : reportWord (TILE.RUNSTAT.STATE.addr i 0) = false := by
    have : TILE.RUNSTAT.STATE.addr i 0 = Page.TILE.base i + TILE.RUNSTAT.STATE.off := by simp [Fld.addr, TILE.RUNSTAT.STATE]
    rw [this]; exact reportWord_tile i _ hi (by decide) (by decide) (by decide) (by decide)
  have hfr : (t.stopTile i e).now.regs = v.now.regs := by
    rw [hst, Tx.failRecord_now]; split <;> simp
  have hfra : ∀ a, (t.stopTile i e).now.regsAt a = v.now.regsAt a := fun a => by unfold State.regsAt; rw [hfr]
  have hun : u.now = (Act.regs (TILE.RUNSTAT.STATUS.word i 0) (BitVec.ofNat 32 (setBits
      ((t.setFld TILE.RUNSTAT.STATE runStopped i).now.regsAt (TILE.RUNSTAT.STATUS.word i 0)).toNat
        (TILE.RUNSTAT.STATUS.hi % 32) (TILE.RUNSTAT.STATUS.lo % 32) e.status.code))).apply
      ((Act.regs (TILE.RUNSTAT.STATE.word i 0) (BitVec.ofNat 32 (setBits (t.now.regsAt (TILE.RUNSTAT.STATE.word i 0)).toNat
        (TILE.RUNSTAT.STATE.hi % 32) (TILE.RUNSTAT.STATE.lo % 32) runStopped))).apply t.now) := by
    rw [hu, Tx.setFld_now _ _ _ _ _ rfl, Tx.setFld_now _ _ _ _ _ rfl]
  have hrec : ∀ k, v.now.recordsAt k = t.now.recordsAt k := fun k => by
    rw [hq.recordsAt, hun]; simp
  refine ⟨?_, ?_, ?_, ?_, ?_, ?_⟩
  · unfold State.runState
    rw [State.fld_eq _ _ _ _ rfl, hfra, ← State.fld_eq _ _ _ _ rfl]
    rw [hq.fld _ _ _ rfl (by rw [hw']; exact hrep), hu, fld_write_other _ _ _ _ _ _ _ _ rfl kS (by decide),
      fld_write_same _ _ _ _ _ kS]
    rfl
  · rw [State.fld_eq _ _ _ _ rfl, hfra, ← State.fld_eq _ _ _ _ rfl]
    rw [hq.fld _ _ _ rfl (by rw [hw]; exact hrep), hu, fld_write_same _ _ _ _ _ kT]
    cases e.status <;> rfl
  · intro k hk
    rw [hst, Tx.failRecord_now, show (t.tilesAt i).rec? = some k from hk]
    have he' : v.now.epochCount = t.now.epochCount := by
      rw [hq.epochCount, hun]
      unfold State.epochCount
      have h1 : EPOCH.COUNTLO.COUNT.word 0 0 ≠ TILE.RUNSTAT.STATE.word i 0 := by
        simp only [Fld.word, Fld.addr, EPOCH.COUNTLO.COUNT, TILE.RUNSTAT.STATE, Page.base]; omega
      have h2 : EPOCH.COUNTHI.COUNT.word 0 0 ≠ TILE.RUNSTAT.STATE.word i 0 := by
        simp only [Fld.word, Fld.addr, EPOCH.COUNTHI.COUNT, TILE.RUNSTAT.STATE, Page.base]; omega
      rw [State.fld_eq _ EPOCH.COUNTLO.COUNT _ _ rfl, State.fld_eq _ EPOCH.COUNTHI.COUNT _ _ rfl,
        State.fld_eq _ EPOCH.COUNTLO.COUNT _ _ rfl, State.fld_eq _ EPOCH.COUNTHI.COUNT _ _ rfl]
      simp only [Act.apply_regsAt, hw, ← hw', h1, h2, if_false]
    simp only [Act.apply_recordsAt, if_true, hrec, he']
  · intro k hk
    rw [hst, Tx.failRecord_now]
    split
    · rename_i j hj
      have : k ≠ j := fun e => hk (by rw [e]; exact hj)
      simp only [Act.apply_recordsAt, this, if_false, hrec]
    · exact hrec k
  · have h1 : { v.now with regs := t.now.regs, out := t.now.out, life := t.now.life, errPages := t.now.errPages, fresh := t.now.fresh, records := t.now.records } = t.now := by
      have := hq.1
      have h2 : { v.now with regs := t.now.regs, out := t.now.out, life := t.now.life, errPages := t.now.errPages, fresh := t.now.fresh, records := t.now.records } =
        { ({ v.now with regs := u.now.regs, out := u.now.out, life := u.now.life, errPages := u.now.errPages, fresh := u.now.fresh } : State) with regs := t.now.regs, out := t.now.out, life := t.now.life, errPages := t.now.errPages, fresh := t.now.fresh, records := t.now.records } := rfl
      rw [h2, this, hun]; rfl
    rw [hst, Tx.failRecord_now]
    split
    · exact h1
    · exact h1
  · intro a ha ha'
    rw [hfra, hq.2 a ha, hun]
    simp only [Act.apply_regsAt, hw, hw', ha', if_false]

end Sys2Proof.Machine
end

