-- ==== Sys2Proof/Laws/Frame.lean ====
section
/-!
SUPPORT. Frames of register writes: what fields read after fields of any page were written, which words a chain of writes leaves
alone, and the laws of a guarded write, a write of one field, of a deferred word, and of a run of words.
-/

namespace Sys2Proof.Machine

variable {s : State}

/-! ### Fields of any page -/

/-- A field of one word that keeps what is written to it, on every page of its type. -/
def Fld.sound (f : Fld) (k : Nat := 0) : Bool :=
  f.off + f.stride * k + 4 * (f.lo / 32) < f.page.size && !(f.page = .MSIX || f.page = .PBA) &&
    (f.hi / 32 = f.lo / 32 && f.lo ≤ f.hi) &&
    bits (rowsMask (wordRows f.page 0 (f.off + f.stride * k + 4 * (f.lo / 32))) % 2 ^ 32) (f.hi % 32) (f.lo % 32) =
      2 ^ (f.hi + 1 - f.lo) - 1

theorem Fld.sound_word {f : Fld} {k : Nat} (h : f.sound k = true) : f.hi / 32 = f.lo / 32 := by
  simp only [Fld.sound, Bool.and_eq_true, decide_eq_true_eq] at h; exact h.1.2.1

theorem Fld.sound_in {f : Fld} {k : Nat} (h : f.sound k = true) : f.off + f.stride * k + 4 * (f.lo / 32) < f.page.size := by
  simp only [Fld.sound, Bool.and_eq_true, decide_eq_true_eq] at h; exact h.1.1.1

theorem Fld.sound_kept {f : Fld} {k n : Nat} (h : f.sound k = true) (hn : n < f.page.count) : f.kept n k = true := by
  have h0 := h
  simp only [Fld.sound, Bool.and_eq_true, decide_eq_true_eq, Bool.not_eq_true'] at h
  refine Fld.kept_of f n k hn h.1.1.1 ?_ ?_ h.2
  · rw [h.1.1.2, Bool.false_and]
  · simp [h.1.2]

/-- A field reads what was written to it. -/
theorem fld_same (t : Tx s) (f : Fld) (v n k : Nat) (hn : n < f.page.count) (h : f.sound k = true) :
    (t.setFld f v n k).now.fld f n k = v % 2 ^ (f.hi + 1 - f.lo) :=
  fld_write_same _ _ _ _ _ (Fld.sound_kept h hn)

/-- Words of two pages, or at two offsets of a page, differ. -/
theorem Fld.word_apart (f g : Fld) (n k m l : Nat) (hn : n < f.page.count) (hm : m < g.page.count)
    (hf : f.off + f.stride * k + 4 * (f.lo / 32) < f.page.size) (hg : g.off + g.stride * l + 4 * (g.lo / 32) < g.page.size)
    (h : g.page ≠ f.page ∨ m ≠ n ∨ g.off + g.stride * l + 4 * (g.lo / 32) ≠ f.off + f.stride * k + 4 * (f.lo / 32)) :
    g.word m l ≠ f.word n k := by
  rw [Fld.word_eq, Fld.word_eq]
  by_cases hp : g.page = f.page
  · by_cases hx : m = n
    · subst hx
      rcases h with h | h | h
      · exact absurd hp h
      · exact absurd rfl h
      · rw [hp]; omega
    · intro e
      rw [hp] at e hg
      exact f.page.base_apart n m _ hn (hp ▸ hm) hx hf ⟨by omega, by omega⟩
  · intro e
    refine pages_apart f.page g.page n m _ hn hm hf (fun e => hp e.symm) ⟨?_, ?_⟩ <;> rw [← e] <;> omega

/-- A field of another word reads as before. -/
theorem fld_apart (t : Tx s) (f g : Fld) (v n k m l : Nat) (hn : n < f.page.count) (hm : m < g.page.count) (hf : f.sound k = true)
    (hg : g.sound l = true)
    (h : g.page ≠ f.page ∨ m ≠ n ∨ g.off + g.stride * l + 4 * (g.lo / 32) ≠ f.off + f.stride * k + 4 * (f.lo / 32)) :
    (t.setFld f v n k).now.fld g m l = t.now.fld g m l :=
  fld_write_word _ _ _ _ _ _ _ _ (Fld.sound_word hf) (Fld.sound_word hg)
    (Fld.word_apart f g n k m l hn hm (Fld.sound_in hf) (Fld.sound_in hg) h)

/-- Does field `g` lie on another page type than `f`, or at another word of its page? -/
def Fld.elsewhere (f g : Fld) (k l : Nat := 0) : Bool :=
  g.page ≠ f.page || g.off + g.stride * l + 4 * (g.lo / 32) ≠ f.off + f.stride * k + 4 * (f.lo / 32)

/-- A field elsewhere reads as before, whatever the page numbers. -/
theorem fld_elsewhere (t : Tx s) (f g : Fld) (v n k m l : Nat) (hn : n < f.page.count) (hm : m < g.page.count)
    (hf : f.sound k = true) (hg : g.sound l = true) (h : f.elsewhere g k l = true) :
    (t.setFld f v n k).now.fld g m l = t.now.fld g m l := by
  refine fld_apart t f g v n k m l hn hm hf hg ?_
  simp only [Fld.elsewhere, Bool.or_eq_true, decide_eq_true_eq] at h
  rcases h with h | h
  · exact .inl h
  · exact .inr (.inr h)

/-- Do two fields lie in different bits of a word? -/
def Fld.besides (f g : Fld) : Bool := g.hi % 32 < f.lo % 32 || f.hi % 32 < g.lo % 32

/-- Another field of the word reads as before. -/
theorem fld_besides (t : Tx s) (f g : Fld) (v n k m l : Nat) (hm : m < g.page.count) (hf : f.sound k = true) (hg : g.sound l = true)
    (h : f.besides g = true) : (t.setFld f v n k).now.fld g m l = t.now.fld g m l :=
  fld_write_other _ _ _ _ _ _ _ _ (Fld.sound_word hf) (Fld.sound_kept hg hm) (by simpa [Fld.besides] using h)

/-- Another field of the word reads as before. -/
theorem fld_beside (t : Tx s) (f g : Fld) (v n k m l : Nat) (hm : m < g.page.count) (hf : f.sound k = true) (hg : g.sound l = true)
    (h : g.hi % 32 < f.lo % 32 ∨ f.hi % 32 < g.lo % 32) : (t.setFld f v n k).now.fld g m l = t.now.fld g m l :=
  fld_write_other _ _ _ _ _ _ _ _ (Fld.sound_word hf) (Fld.sound_kept hg hm) h

theorem regSpan_congr {s t : State} (h : ∀ a, t.regsAt a = s.regsAt a) (a n : Nat) : t.regSpan a n = s.regSpan a n := by
  induction n with
  | zero => rfl
  | succ n ih => simp only [State.regSpan, ih, h]

/-- States with the same register words read the same fields. -/
theorem fld_congr {s t : State} (h : ∀ a, t.regsAt a = s.regsAt a) (f : Fld) (n k : Nat) : t.fld f n k = s.fld f n k := by
  unfold State.fld; simp only [regSpan_congr h]

/-- Is the primitive update one of a register word? -/
@[simp] def Act.isRegs : Act → Bool
  | .regs _ _ => true
  | _ => false

theorem regsAt_act (a : Act) (s : State) (h : a.isRegs = false) (k : Nat) : (a.apply s).regsAt k = s.regsAt k := by
  cases a <;> first | rfl | cases h

theorem fld_act (a : Act) (s : State) (h : a.isRegs = false) (f : Fld) (n k : Nat) : (a.apply s).fld f n k = s.fld f n k :=
  fld_congr (fun j => regsAt_act a s h j) f n k

@[simp] theorem Act.fld_mem (a : Nat) (bs : List Byte) (s : State) (f : Fld) (n j : Nat) :
    ((Act.mem a bs).apply s).fld f n j = s.fld f n j := fld_act _ _ rfl _ _ _
@[simp] theorem Act.fld_poison (k : Nat) (v : Bool) (s : State) (f : Fld) (n j : Nat) :
    ((Act.poison k v).apply s).fld f n j = s.fld f n j := fld_act _ _ rfl _ _ _
@[simp] theorem Act.fld_landTag (k : Nat) (v : Nat) (s : State) (f : Fld) (n j : Nat) :
    ((Act.landTag k v).apply s).fld f n j = s.fld f n j := fld_act _ _ rfl _ _ _
@[simp] theorem Act.fld_tiles (k : Nat) (v : Tile) (s : State) (f : Fld) (n j : Nat) :
    ((Act.tiles k v).apply s).fld f n j = s.fld f n j := fld_act _ _ rfl _ _ _
@[simp] theorem Act.fld_clusters (k : Nat) (v : Cluster) (s : State) (f : Fld) (n j : Nat) :
    ((Act.clusters k v).apply s).fld f n j = s.fld f n j := fld_act _ _ rfl _ _ _
@[simp] theorem Act.fld_psets (k : Nat) (v : Pset) (s : State) (f : Fld) (n j : Nat) :
    ((Act.psets k v).apply s).fld f n j = s.fld f n j := fld_act _ _ rfl _ _ _
@[simp] theorem Act.fld_primes (k : Nat) (v : Nat) (s : State) (f : Fld) (n j : Nat) :
    ((Act.primes k v).apply s).fld f n j = s.fld f n j := fld_act _ _ rfl _ _ _
@[simp] theorem Act.fld_out (o : Output) (s : State) (f : Fld) (n j : Nat) :
    ((Act.out o).apply s).fld f n j = s.fld f n j := fld_act _ _ rfl _ _ _
@[simp] theorem Act.fld_fresh (v : Nat) (s : State) (f : Fld) (n j : Nat) :
    ((Act.fresh v).apply s).fld f n j = s.fld f n j := fld_act _ _ rfl _ _ _
@[simp] theorem Act.fld_records (k : Nat) (v : RunRec) (s : State) (f : Fld) (n j : Nat) :
    ((Act.records k v).apply s).fld f n j = s.fld f n j := fld_act _ _ rfl _ _ _
@[simp] theorem Act.fld_deferred (k : Nat) (v : (Option Word)) (s : State) (f : Fld) (n j : Nat) :
    ((Act.deferred k v).apply s).fld f n j = s.fld f n j := fld_act _ _ rfl _ _ _
@[simp] theorem Act.fld_ksets (k : Nat) (v : KeySet) (s : State) (f : Fld) (n j : Nat) :
    ((Act.ksets k v).apply s).fld f n j = s.fld f n j := fld_act _ _ rfl _ _ _
@[simp] theorem Act.fld_regions (k : Nat) (v : Region) (s : State) (f : Fld) (n j : Nat) :
    ((Act.regions k v).apply s).fld f n j = s.fld f n j := fld_act _ _ rfl _ _ _
@[simp] theorem Act.fld_domains (k : Nat) (v : Domain) (s : State) (f : Fld) (n j : Nat) :
    ((Act.domains k v).apply s).fld f n j = s.fld f n j := fld_act _ _ rfl _ _ _
@[simp] theorem Act.fld_pcie (k : Nat) (v : PcieFn) (s : State) (f : Fld) (n j : Nat) :
    ((Act.pcie k v).apply s).fld f n j = s.fld f n j := fld_act _ _ rfl _ _ _
@[simp] theorem Act.fld_peers (k : Nat) (v : PeerTxn) (s : State) (f : Fld) (n j : Nat) :
    ((Act.peers k v).apply s).fld f n j = s.fld f n j := fld_act _ _ rfl _ _ _
@[simp] theorem Act.fld_links (k : Nat) (v : Link) (s : State) (f : Fld) (n j : Nat) :
    ((Act.links k v).apply s).fld f n j = s.fld f n j := fld_act _ _ rfl _ _ _
@[simp] theorem Act.fld_txq (v : (List TxPacket)) (s : State) (f : Fld) (n j : Nat) :
    ((Act.txq v).apply s).fld f n j = s.fld f n j := fld_act _ _ rfl _ _ _
@[simp] theorem Act.fld_graphs (k : Nat) (v : Graph) (s : State) (f : Fld) (n j : Nat) :
    ((Act.graphs k v).apply s).fld f n j = s.fld f n j := fld_act _ _ rfl _ _ _
@[simp] theorem Act.fld_memctl (k : Nat) (v : MemCtl) (s : State) (f : Fld) (n j : Nat) :
    ((Act.memctl k v).apply s).fld f n j = s.fld f n j := fld_act _ _ rfl _ _ _
@[simp] theorem Act.fld_life (v : LifeLog) (s : State) (f : Fld) (n j : Nat) :
    ((Act.life v).apply s).fld f n j = s.fld f n j := fld_act _ _ rfl _ _ _
@[simp] theorem Act.fld_cxl (v : Cxl) (s : State) (f : Fld) (n j : Nat) :
    ((Act.cxl v).apply s).fld f n j = s.fld f n j := fld_act _ _ rfl _ _ _
@[simp] theorem Act.fld_hash (v : HashUnit) (s : State) (f : Fld) (n j : Nat) :
    ((Act.hash v).apply s).fld f n j = s.fld f n j := fld_act _ _ rfl _ _ _
@[simp] theorem Act.fld_serge (v : SergeUnit) (s : State) (f : Fld) (n j : Nat) :
    ((Act.serge v).apply s).fld f n j = s.fld f n j := fld_act _ _ rfl _ _ _
@[simp] theorem Act.fld_contexts (k : Nat) (v : Context) (s : State) (f : Fld) (n j : Nat) :
    ((Act.contexts k v).apply s).fld f n j = s.fld f n j := fld_act _ _ rfl _ _ _
@[simp] theorem Act.fld_power (v : Power) (s : State) (f : Fld) (n j : Nat) :
    ((Act.power v).apply s).fld f n j = s.fld f n j := fld_act _ _ rfl _ _ _
@[simp] theorem Act.fld_glm (v : Gloaming) (s : State) (f : Fld) (n j : Nat) :
    ((Act.glm v).apply s).fld f n j = s.fld f n j := fld_act _ _ rfl _ _ _
@[simp] theorem Act.fld_epoch (v : EpochGen) (s : State) (f : Fld) (n j : Nat) :
    ((Act.epoch v).apply s).fld f n j = s.fld f n j := fld_act _ _ rfl _ _ _
@[simp] theorem Act.fld_sec (v : SecUnit) (s : State) (f : Fld) (n j : Nat) :
    ((Act.sec v).apply s).fld f n j = s.fld f n j := fld_act _ _ rfl _ _ _
@[simp] theorem Act.fld_errPages (k : Nat) (v : ErrPage) (s : State) (f : Fld) (n j : Nat) :
    ((Act.errPages k v).apply s).fld f n j = s.fld f n j := fld_act _ _ rfl _ _ _
@[simp] theorem Act.fld_tests (v : SelfTest) (s : State) (f : Fld) (n j : Nat) :
    ((Act.tests v).apply s).fld f n j = s.fld f n j := fld_act _ _ rfl _ _ _
@[simp] theorem Act.fld_queues (k : Nat) (v : Queue) (s : State) (f : Fld) (n j : Nat) :
    ((Act.queues k v).apply s).fld f n j = s.fld f n j := fld_act _ _ rfl _ _ _
@[simp] theorem Act.fld_sessions (k : Nat) (v : Session) (s : State) (f : Fld) (n j : Nat) :
    ((Act.sessions k v).apply s).fld f n j = s.fld f n j := fld_act _ _ rfl _ _ _
@[simp] theorem Act.fld_qe (v : QueueEngine) (s : State) (f : Fld) (n j : Nat) :
    ((Act.qe v).apply s).fld f n j = s.fld f n j := fld_act _ _ rfl _ _ _
@[simp] theorem Act.fld_doorbells (k : Nat) (v : (Option Nat × Option Nat)) (s : State) (f : Fld) (n j : Nat) :
    ((Act.doorbells k v).apply s).fld f n j = s.fld f n j := fld_act _ _ rfl _ _ _
@[simp] theorem Act.fld_cores (k : Nat) (v : FwCore) (s : State) (f : Fld) (n j : Nat) :
    ((Act.cores k v).apply s).fld f n j = s.fld f n j := fld_act _ _ rfl _ _ _
@[simp] theorem Act.fld_mboxes (k : Nat) (v : Mailbox) (s : State) (f : Fld) (n j : Nat) :
    ((Act.mboxes k v).apply s).fld f n j = s.fld f n j := fld_act _ _ rfl _ _ _
@[simp] theorem Act.fld_fw (v : Firmware) (s : State) (f : Fld) (n j : Nat) :
    ((Act.fw v).apply s).fld f n j = s.fld f n j := fld_act _ _ rfl _ _ _
@[simp] theorem Act.fld_spdm (k : Nat) (v : Spdm) (s : State) (f : Fld) (n j : Nat) :
    ((Act.spdm k v).apply s).fld f n j = s.fld f n j := fld_act _ _ rfl _ _ _
@[simp] theorem Act.fld_mgmt (v : Mgmt) (s : State) (f : Fld) (n j : Nat) :
    ((Act.mgmt v).apply s).fld f n j = s.fld f n j := fld_act _ _ rfl _ _ _
@[simp] theorem Act.fld_held (k : Nat) (v : (Option Word)) (s : State) (f : Fld) (n j : Nat) :
    ((Act.held k v).apply s).fld f n j = s.fld f n j := fld_act _ _ rfl _ _ _

/-! ### Words left alone -/

theorem Fld.at_eq (f : Fld) (n k : Nat) : f.at_ n k = f.word n k := rfl

theorem RegsBut.refl (s : State) (ws : List Nat) : RegsBut s s ws := fun _ _ => rfl
theorem RegsBut.act {s : State} {r : State} (t : Tx r) {ws : List Nat} (h : RegsBut s t.now ws) (a : Act) (ha : a.isRegs = false) :
    RegsBut s (t.act a).now ws := fun k hk => (regsAt_act a t.now ha k).trans (h k hk)
theorem RegsBut.putRegs {s : State} {r : State} (t : Tx r) {ws : List Nat} (h : RegsBut s t.now ws) (k : Nat) (v : Word)
    (hk : k ∈ ws) : RegsBut s (t.putRegs k v).now ws := fun a ha => by
  simp only [Tx.putRegs, Tx.act_now, Act.apply_regsAt]
  rw [if_neg (by rintro rfl; exact ha hk)]; exact h a ha
theorem RegsBut.setFld {s : State} {r : State} (t : Tx r) {ws : List Nat} (h : RegsBut s t.now ws) (f : Fld) (v n k : Nat)
    (hf : f.hi / 32 = f.lo / 32) (hw : f.at_ n k ∈ ws) : RegsBut s (t.setFld f v n k).now ws := by
  rw [Tx.setFld_now _ _ _ _ _ hf]; exact RegsBut.putRegs t h _ _ hw
theorem RegsBut.mono {s t : State} {ws vs : List Nat} (h : RegsBut s t ws) (hv : ∀ a ∈ ws, a ∈ vs) : RegsBut s t vs :=
  fun a ha => h a fun hb => ha (hv a hb)

theorem RegsRest.of {s t : State} {ws : List Nat} (h : RegsBut s t ws) : RegsRest s t ws := fun a _ hb => h a hb
theorem RegsRest.quiet {s t u : State} {ws : List Nat} (h : RegsRest s t ws) (q : Quiet t u) : RegsRest s u ws :=
  fun a ha hb => (q.2 a ha).trans (h a ha hb)
theorem RegsRest.act {s : State} {r : State} (t : Tx r) {ws : List Nat} (h : RegsRest s t.now ws) (a : Act) (ha : a.isRegs = false) :
    RegsRest s (t.act a).now ws := fun k hr hk => (regsAt_act a t.now ha k).trans (h k hr hk)
theorem RegsRest.setFld {s : State} {r : State} (t : Tx r) {ws : List Nat} (h : RegsRest s t.now ws) (f : Fld) (v n k : Nat)
    (hf : f.hi / 32 = f.lo / 32) (hw : f.at_ n k ∈ ws) : RegsRest s (t.setFld f v n k).now ws := by
  rw [Tx.setFld_now _ _ _ _ _ hf]
  intro a hr ha
  simp only [Act.apply_regsAt]
  rw [if_neg (by rintro rfl; exact ha hw)]; exact h a hr ha

theorem OnlyWords.refl (s : State) (ws : List Nat) : OnlyWords s s ws := ⟨rfl, fun _ _ => rfl⟩
theorem OnlyWords.putRegs {s : State} {r : State} (t : Tx r) {ws : List Nat} (h : OnlyWords s t.now ws) (k : Nat) (v : Word)
    (hk : k ∈ ws) : OnlyWords s (t.putRegs k v).now ws := by
  refine ⟨?_, RegsBut.putRegs t h.2 k v hk⟩
  have := h.1
  exact this
theorem OnlyWords.setFld {s : State} {r : State} (t : Tx r) {ws : List Nat} (h : OnlyWords s t.now ws) (f : Fld) (v n k : Nat)
    (hf : f.hi / 32 = f.lo / 32) (hw : f.at_ n k ∈ ws) : OnlyWords s (t.setFld f v n k).now ws := by
  rw [Tx.setFld_now _ _ _ _ _ hf]; exact OnlyWords.putRegs t h _ _ hw
theorem OnlyWords.trans {s t u : State} {ws : List Nat} (h : OnlyWords s t ws) (g : OnlyWords t u ws) : OnlyWords s u ws := by
  refine ⟨?_, fun a ha => (g.2 a ha).trans (h.2 a ha)⟩
  have h1 := h.1
  rw [← g.1] at h1; exact h1

/-- A run of words. -/
theorem putSpan_words (t : Tx s) (a n v : Nat) :
    (∀ j, j < n → (t.putSpan a n v).now.regsAt (a + 4 * j) = BitVec.ofNat 32 (v >>> (32 * j)) &&& definedMask (a + 4 * j)) ∧
      OnlyWords t.now (t.putSpan a n v).now ((List.range n).map (a + 4 * ·)) := by
  induction n generalizing t a v with
  | zero => exact ⟨fun j hj => absurd hj (Nat.not_lt_zero j), OnlyWords.refl _ _⟩
  | succ n ih =>
    obtain ⟨h1, h2⟩ := ih (t.putRegs a (BitVec.ofNat 32 v)) (a + 4) (v >>> 32)
    simp only [Tx.putSpan]
    refine ⟨fun j hj => ?_, ?_⟩
    · cases j with
      | zero =>
        rw [h2.2 _ (by simp; omega), Tx.putRegs, Tx.act_now, Act.apply_regsAt]; simp
      | succ j =>
        have := h1 j (by omega)
        rw [show a + 4 + 4 * j = a + 4 * (j + 1) by omega] at this
        rw [this, ← Nat.shiftRight_add, show 32 + 32 * j = 32 * (j + 1) by omega]
    · refine OnlyWords.trans (OnlyWords.putRegs t (OnlyWords.refl _ _) a _ (by simp)) ⟨h2.1, fun b hb => h2.2 b fun hc => hb ?_⟩
      obtain ⟨j, hj, rfl⟩ := List.mem_map.mp hc
      exact List.mem_map.mpr ⟨j + 1, by simp only [List.mem_range] at *; omega, by omega⟩

/-! ### What a field write keeps -/

theorem putSpan_keeps (t : Tx s) (a n v : Nat) : { (t.putSpan a n v).now with regs := t.now.regs } = t.now :=
  (putSpan_words t a n v).2.1

theorem setFld_keeps (t : Tx s) (f : Fld) (v n k : Nat) : { (t.setFld f v n k).now with regs := t.now.regs } = t.now :=
  putSpan_keeps t _ _ _

@[simp] theorem Tx.setFld_mem (t : Tx s) (f : Fld) (v n k : Nat) : (t.setFld f v n k).now.mem = t.now.mem :=
  (congrArg (fun x : State => x.mem) (setFld_keeps t f v n k) :)
@[simp] theorem Tx.setFld_poison (t : Tx s) (f : Fld) (v n k : Nat) : (t.setFld f v n k).now.poison = t.now.poison :=
  (congrArg (fun x : State => x.poison) (setFld_keeps t f v n k) :)
@[simp] theorem Tx.setFld_landTag (t : Tx s) (f : Fld) (v n k : Nat) : (t.setFld f v n k).now.landTag = t.now.landTag :=
  (congrArg (fun x : State => x.landTag) (setFld_keeps t f v n k) :)
@[simp] theorem Tx.setFld_tiles (t : Tx s) (f : Fld) (v n k : Nat) : (t.setFld f v n k).now.tiles = t.now.tiles :=
  (congrArg (fun x : State => x.tiles) (setFld_keeps t f v n k) :)
@[simp] theorem Tx.setFld_clusters (t : Tx s) (f : Fld) (v n k : Nat) : (t.setFld f v n k).now.clusters = t.now.clusters :=
  (congrArg (fun x : State => x.clusters) (setFld_keeps t f v n k) :)
@[simp] theorem Tx.setFld_psets (t : Tx s) (f : Fld) (v n k : Nat) : (t.setFld f v n k).now.psets = t.now.psets :=
  (congrArg (fun x : State => x.psets) (setFld_keeps t f v n k) :)
@[simp] theorem Tx.setFld_primes (t : Tx s) (f : Fld) (v n k : Nat) : (t.setFld f v n k).now.primes = t.now.primes :=
  (congrArg (fun x : State => x.primes) (setFld_keeps t f v n k) :)
@[simp] theorem Tx.setFld_out (t : Tx s) (f : Fld) (v n k : Nat) : (t.setFld f v n k).now.out = t.now.out :=
  (congrArg (fun x : State => x.out) (setFld_keeps t f v n k) :)
@[simp] theorem Tx.setFld_fresh (t : Tx s) (f : Fld) (v n k : Nat) : (t.setFld f v n k).now.fresh = t.now.fresh :=
  (congrArg (fun x : State => x.fresh) (setFld_keeps t f v n k) :)
@[simp] theorem Tx.setFld_records (t : Tx s) (f : Fld) (v n k : Nat) : (t.setFld f v n k).now.records = t.now.records :=
  (congrArg (fun x : State => x.records) (setFld_keeps t f v n k) :)
@[simp] theorem Tx.setFld_deferred (t : Tx s) (f : Fld) (v n k : Nat) : (t.setFld f v n k).now.deferred = t.now.deferred :=
  (congrArg (fun x : State => x.deferred) (setFld_keeps t f v n k) :)
@[simp] theorem Tx.setFld_ksets (t : Tx s) (f : Fld) (v n k : Nat) : (t.setFld f v n k).now.ksets = t.now.ksets :=
  (congrArg (fun x : State => x.ksets) (setFld_keeps t f v n k) :)
@[simp] theorem Tx.setFld_regions (t : Tx s) (f : Fld) (v n k : Nat) : (t.setFld f v n k).now.regions = t.now.regions :=
  (congrArg (fun x : State => x.regions) (setFld_keeps t f v n k) :)
@[simp] theorem Tx.setFld_domains (t : Tx s) (f : Fld) (v n k : Nat) : (t.setFld f v n k).now.domains = t.now.domains :=
  (congrArg (fun x : State => x.domains) (setFld_keeps t f v n k) :)
@[simp] theorem Tx.setFld_pcie (t : Tx s) (f : Fld) (v n k : Nat) : (t.setFld f v n k).now.pcie = t.now.pcie :=
  (congrArg (fun x : State => x.pcie) (setFld_keeps t f v n k) :)
@[simp] theorem Tx.setFld_peers (t : Tx s) (f : Fld) (v n k : Nat) : (t.setFld f v n k).now.peers = t.now.peers :=
  (congrArg (fun x : State => x.peers) (setFld_keeps t f v n k) :)
@[simp] theorem Tx.setFld_links (t : Tx s) (f : Fld) (v n k : Nat) : (t.setFld f v n k).now.links = t.now.links :=
  (congrArg (fun x : State => x.links) (setFld_keeps t f v n k) :)
@[simp] theorem Tx.setFld_txq (t : Tx s) (f : Fld) (v n k : Nat) : (t.setFld f v n k).now.txq = t.now.txq :=
  (congrArg (fun x : State => x.txq) (setFld_keeps t f v n k) :)
@[simp] theorem Tx.setFld_graphs (t : Tx s) (f : Fld) (v n k : Nat) : (t.setFld f v n k).now.graphs = t.now.graphs :=
  (congrArg (fun x : State => x.graphs) (setFld_keeps t f v n k) :)
@[simp] theorem Tx.setFld_memctl (t : Tx s) (f : Fld) (v n k : Nat) : (t.setFld f v n k).now.memctl = t.now.memctl :=
  (congrArg (fun x : State => x.memctl) (setFld_keeps t f v n k) :)
@[simp] theorem Tx.setFld_life (t : Tx s) (f : Fld) (v n k : Nat) : (t.setFld f v n k).now.life = t.now.life :=
  (congrArg (fun x : State => x.life) (setFld_keeps t f v n k) :)
@[simp] theorem Tx.setFld_cxl (t : Tx s) (f : Fld) (v n k : Nat) : (t.setFld f v n k).now.cxl = t.now.cxl :=
  (congrArg (fun x : State => x.cxl) (setFld_keeps t f v n k) :)
@[simp] theorem Tx.setFld_hash (t : Tx s) (f : Fld) (v n k : Nat) : (t.setFld f v n k).now.hash = t.now.hash :=
  (congrArg (fun x : State => x.hash) (setFld_keeps t f v n k) :)
@[simp] theorem Tx.setFld_serge (t : Tx s) (f : Fld) (v n k : Nat) : (t.setFld f v n k).now.serge = t.now.serge :=
  (congrArg (fun x : State => x.serge) (setFld_keeps t f v n k) :)
@[simp] theorem Tx.setFld_contexts (t : Tx s) (f : Fld) (v n k : Nat) : (t.setFld f v n k).now.contexts = t.now.contexts :=
  (congrArg (fun x : State => x.contexts) (setFld_keeps t f v n k) :)
@[simp] theorem Tx.setFld_power (t : Tx s) (f : Fld) (v n k : Nat) : (t.setFld f v n k).now.power = t.now.power :=
  (congrArg (fun x : State => x.power) (setFld_keeps t f v n k) :)
@[simp] theorem Tx.setFld_glm (t : Tx s) (f : Fld) (v n k : Nat) : (t.setFld f v n k).now.glm = t.now.glm :=
  (congrArg (fun x : State => x.glm) (setFld_keeps t f v n k) :)
@[simp] theorem Tx.setFld_epoch (t : Tx s) (f : Fld) (v n k : Nat) : (t.setFld f v n k).now.epoch = t.now.epoch :=
  (congrArg (fun x : State => x.epoch) (setFld_keeps t f v n k) :)
@[simp] theorem Tx.setFld_sec (t : Tx s) (f : Fld) (v n k : Nat) : (t.setFld f v n k).now.sec = t.now.sec :=
  (congrArg (fun x : State => x.sec) (setFld_keeps t f v n k) :)
@[simp] theorem Tx.setFld_errPages (t : Tx s) (f : Fld) (v n k : Nat) : (t.setFld f v n k).now.errPages = t.now.errPages :=
  (congrArg (fun x : State => x.errPages) (setFld_keeps t f v n k) :)
@[simp] theorem Tx.setFld_tests (t : Tx s) (f : Fld) (v n k : Nat) : (t.setFld f v n k).now.tests = t.now.tests :=
  (congrArg (fun x : State => x.tests) (setFld_keeps t f v n k) :)
@[simp] theorem Tx.setFld_queues (t : Tx s) (f : Fld) (v n k : Nat) : (t.setFld f v n k).now.queues = t.now.queues :=
  (congrArg (fun x : State => x.queues) (setFld_keeps t f v n k) :)
@[simp] theorem Tx.setFld_sessions (t : Tx s) (f : Fld) (v n k : Nat) : (t.setFld f v n k).now.sessions = t.now.sessions :=
  (congrArg (fun x : State => x.sessions) (setFld_keeps t f v n k) :)
@[simp] theorem Tx.setFld_qe (t : Tx s) (f : Fld) (v n k : Nat) : (t.setFld f v n k).now.qe = t.now.qe :=
  (congrArg (fun x : State => x.qe) (setFld_keeps t f v n k) :)
@[simp] theorem Tx.setFld_doorbells (t : Tx s) (f : Fld) (v n k : Nat) : (t.setFld f v n k).now.doorbells = t.now.doorbells :=
  (congrArg (fun x : State => x.doorbells) (setFld_keeps t f v n k) :)
@[simp] theorem Tx.setFld_cores (t : Tx s) (f : Fld) (v n k : Nat) : (t.setFld f v n k).now.cores = t.now.cores :=
  (congrArg (fun x : State => x.cores) (setFld_keeps t f v n k) :)
@[simp] theorem Tx.setFld_mboxes (t : Tx s) (f : Fld) (v n k : Nat) : (t.setFld f v n k).now.mboxes = t.now.mboxes :=
  (congrArg (fun x : State => x.mboxes) (setFld_keeps t f v n k) :)
@[simp] theorem Tx.setFld_fw (t : Tx s) (f : Fld) (v n k : Nat) : (t.setFld f v n k).now.fw = t.now.fw :=
  (congrArg (fun x : State => x.fw) (setFld_keeps t f v n k) :)
@[simp] theorem Tx.setFld_spdm (t : Tx s) (f : Fld) (v n k : Nat) : (t.setFld f v n k).now.spdm = t.now.spdm :=
  (congrArg (fun x : State => x.spdm) (setFld_keeps t f v n k) :)
@[simp] theorem Tx.setFld_mgmt (t : Tx s) (f : Fld) (v n k : Nat) : (t.setFld f v n k).now.mgmt = t.now.mgmt :=
  (congrArg (fun x : State => x.mgmt) (setFld_keeps t f v n k) :)
@[simp] theorem Tx.setFld_held (t : Tx s) (f : Fld) (v n k : Nat) : (t.setFld f v n k).now.held = t.now.held :=
  (congrArg (fun x : State => x.held) (setFld_keeps t f v n k) :)
@[simp] theorem Tx.setFld_pending (t : Tx s) (f : Fld) (v n k : Nat) : (t.setFld f v n k).now.pending = t.now.pending :=
  (congrArg (fun x : State => x.pending) (setFld_keeps t f v n k) :)
@[simp] theorem Tx.setFld_poisonAt (t : Tx s) (f : Fld) (v n k j : Nat) : (t.setFld f v n k).now.poisonAt j = t.now.poisonAt j :=
  (congrArg (fun x : State => x.poisonAt j) (setFld_keeps t f v n k) :)
@[simp] theorem Tx.setFld_landTagAt (t : Tx s) (f : Fld) (v n k j : Nat) : (t.setFld f v n k).now.landTagAt j = t.now.landTagAt j :=
  (congrArg (fun x : State => x.landTagAt j) (setFld_keeps t f v n k) :)
@[simp] theorem Tx.setFld_tilesAt (t : Tx s) (f : Fld) (v n k j : Nat) : (t.setFld f v n k).now.tilesAt j = t.now.tilesAt j :=
  (congrArg (fun x : State => x.tilesAt j) (setFld_keeps t f v n k) :)
@[simp] theorem Tx.setFld_clustersAt (t : Tx s) (f : Fld) (v n k j : Nat) : (t.setFld f v n k).now.clustersAt j = t.now.clustersAt j :=
  (congrArg (fun x : State => x.clustersAt j) (setFld_keeps t f v n k) :)
@[simp] theorem Tx.setFld_psetsAt (t : Tx s) (f : Fld) (v n k j : Nat) : (t.setFld f v n k).now.psetsAt j = t.now.psetsAt j :=
  (congrArg (fun x : State => x.psetsAt j) (setFld_keeps t f v n k) :)
@[simp] theorem Tx.setFld_primesAt (t : Tx s) (f : Fld) (v n k j : Nat) : (t.setFld f v n k).now.primesAt j = t.now.primesAt j :=
  (congrArg (fun x : State => x.primesAt j) (setFld_keeps t f v n k) :)
@[simp] theorem Tx.setFld_recordsAt (t : Tx s) (f : Fld) (v n k j : Nat) : (t.setFld f v n k).now.recordsAt j = t.now.recordsAt j :=
  (congrArg (fun x : State => x.recordsAt j) (setFld_keeps t f v n k) :)
@[simp] theorem Tx.setFld_deferredAt (t : Tx s) (f : Fld) (v n k j : Nat) : (t.setFld f v n k).now.deferredAt j = t.now.deferredAt j :=
  (congrArg (fun x : State => x.deferredAt j) (setFld_keeps t f v n k) :)
@[simp] theorem Tx.setFld_ksetsAt (t : Tx s) (f : Fld) (v n k j : Nat) : (t.setFld f v n k).now.ksetsAt j = t.now.ksetsAt j :=
  (congrArg (fun x : State => x.ksetsAt j) (setFld_keeps t f v n k) :)
@[simp] theorem Tx.setFld_regionsAt (t : Tx s) (f : Fld) (v n k j : Nat) : (t.setFld f v n k).now.regionsAt j = t.now.regionsAt j :=
  (congrArg (fun x : State => x.regionsAt j) (setFld_keeps t f v n k) :)
@[simp] theorem Tx.setFld_domainsAt (t : Tx s) (f : Fld) (v n k j : Nat) : (t.setFld f v n k).now.domainsAt j = t.now.domainsAt j :=
  (congrArg (fun x : State => x.domainsAt j) (setFld_keeps t f v n k) :)
@[simp] theorem Tx.setFld_pcieAt (t : Tx s) (f : Fld) (v n k j : Nat) : (t.setFld f v n k).now.pcieAt j = t.now.pcieAt j :=
  (congrArg (fun x : State => x.pcieAt j) (setFld_keeps t f v n k) :)
@[simp] theorem Tx.setFld_peersAt (t : Tx s) (f : Fld) (v n k j : Nat) : (t.setFld f v n k).now.peersAt j = t.now.peersAt j :=
  (congrArg (fun x : State => x.peersAt j) (setFld_keeps t f v n k) :)
@[simp] theorem Tx.setFld_linksAt (t : Tx s) (f : Fld) (v n k j : Nat) : (t.setFld f v n k).now.linksAt j = t.now.linksAt j :=
  (congrArg (fun x : State => x.linksAt j) (setFld_keeps t f v n k) :)
@[simp] theorem Tx.setFld_graphsAt (t : Tx s) (f : Fld) (v n k j : Nat) : (t.setFld f v n k).now.graphsAt j = t.now.graphsAt j :=
  (congrArg (fun x : State => x.graphsAt j) (setFld_keeps t f v n k) :)
@[simp] theorem Tx.setFld_memctlAt (t : Tx s) (f : Fld) (v n k j : Nat) : (t.setFld f v n k).now.memctlAt j = t.now.memctlAt j :=
  (congrArg (fun x : State => x.memctlAt j) (setFld_keeps t f v n k) :)
@[simp] theorem Tx.setFld_contextsAt (t : Tx s) (f : Fld) (v n k j : Nat) : (t.setFld f v n k).now.contextsAt j = t.now.contextsAt j :=
  (congrArg (fun x : State => x.contextsAt j) (setFld_keeps t f v n k) :)
@[simp] theorem Tx.setFld_errPagesAt (t : Tx s) (f : Fld) (v n k j : Nat) : (t.setFld f v n k).now.errPagesAt j = t.now.errPagesAt j :=
  (congrArg (fun x : State => x.errPagesAt j) (setFld_keeps t f v n k) :)
@[simp] theorem Tx.setFld_queuesAt (t : Tx s) (f : Fld) (v n k j : Nat) : (t.setFld f v n k).now.queuesAt j = t.now.queuesAt j :=
  (congrArg (fun x : State => x.queuesAt j) (setFld_keeps t f v n k) :)
@[simp] theorem Tx.setFld_sessionsAt (t : Tx s) (f : Fld) (v n k j : Nat) : (t.setFld f v n k).now.sessionsAt j = t.now.sessionsAt j :=
  (congrArg (fun x : State => x.sessionsAt j) (setFld_keeps t f v n k) :)
@[simp] theorem Tx.setFld_doorbellsAt (t : Tx s) (f : Fld) (v n k j : Nat) : (t.setFld f v n k).now.doorbellsAt j = t.now.doorbellsAt j :=
  (congrArg (fun x : State => x.doorbellsAt j) (setFld_keeps t f v n k) :)
@[simp] theorem Tx.setFld_coresAt (t : Tx s) (f : Fld) (v n k j : Nat) : (t.setFld f v n k).now.coresAt j = t.now.coresAt j :=
  (congrArg (fun x : State => x.coresAt j) (setFld_keeps t f v n k) :)
@[simp] theorem Tx.setFld_mboxesAt (t : Tx s) (f : Fld) (v n k j : Nat) : (t.setFld f v n k).now.mboxesAt j = t.now.mboxesAt j :=
  (congrArg (fun x : State => x.mboxesAt j) (setFld_keeps t f v n k) :)
@[simp] theorem Tx.setFld_spdmAt (t : Tx s) (f : Fld) (v n k j : Nat) : (t.setFld f v n k).now.spdmAt j = t.now.spdmAt j :=
  (congrArg (fun x : State => x.spdmAt j) (setFld_keeps t f v n k) :)
@[simp] theorem Tx.setFld_heldAt (t : Tx s) (f : Fld) (v n k j : Nat) : (t.setFld f v n k).now.heldAt j = t.now.heldAt j :=
  (congrArg (fun x : State => x.heldAt j) (setFld_keeps t f v n k) :)

/-! ### Laws of the write vocabulary -/

/-- Where a page takes a write, the guard lets it through. -/
theorem guarded_takes (o : RegFrom) (p : Page) (n : Nat) (f : Tx s → Tx s) (kept : Bool) (h : s.takesWrite o p n = true) :
    (begin s).guarded o p n f kept = f (begin s) := by
  unfold State.takesWrite at h
  simp only [Bool.and_eq_true, Bool.not_eq_true', decide_eq_true_eq, Bool.or_eq_true] at h
  obtain ⟨⟨⟨h1, h2⟩, h3⟩, h4⟩ := h
  unfold Tx.guarded
  simp only [begin_now, h1, h2, h3, Bool.false_and, Bool.false_eq_true, if_false]
  rw [if_neg]
  rintro ⟨a, b, c⟩
  rcases h4 with (h4 | h4) | h4
  · rw [h4] at a; cases a
  · rw [h4] at b; cases b
  · have : s.flag (HDR.OWNER.WORLD p) n = true := c
    rw [this] at h4; cases h4

theorem Sets.of {c : Instr} {f : Fld} {n k v : Nat} (h : exec c s = done ((begin s).setFld f v n k)) (hn : n < f.page.count)
    (hf : f.sound k = true) (hv : v < 2 ^ (f.hi + 1 - f.lo)) : Sets c s f n k v := by
  refine ⟨_, h, ?_, ?_, ?_⟩
  · rw [fld_same _ _ _ _ _ hn hf, Nat.mod_eq_of_lt hv]
  · exact OnlyWords.setFld (begin s) (OnlyWords.refl s _) f v n k (Fld.sound_word hf) (List.mem_singleton.mpr rfl)
  · rw [Tx.setFld_now _ _ _ _ _ (Fld.sound_word hf), Act.apply_regsAt]; simp [Fld.at_eq]

theorem writeDeferred_spec (t : Tx s) (a : Nat) (w : Word) :
    (t.writeDeferred a w).now.regsAt a = w &&& definedMask a ∧ (∀ b, (t.writeDeferred a w).now.regEff b = t.now.regEff b) ∧
      RegsBut t.now (t.writeDeferred a w).now [a] ∧
      { (t.writeDeferred a w).now with regs := t.now.regs, deferred := t.now.deferred } = t.now := by
  unfold Tx.writeDeferred
  refine ⟨?_, fun b => ?_, ?_, ?_⟩
  · simp [Tx.putRegs]
  · unfold State.regEff
    cases hd : t.now.deferredAt a with
    | none =>
      simp only [Option.isNone_none, if_true, Tx.putRegs, Tx.putDeferred, Tx.act_now, Act.apply_deferredAt, Act.apply_regsAt]
      by_cases hb : b = a
      · subst hb; simp [hd, Tx.regsAt]
      · simp [hb]
    | some x =>
      simp only [Option.isNone_some, Bool.false_eq_true, if_false, Tx.putRegs, Tx.act_now, Act.apply_deferredAt, Act.apply_regsAt]
      by_cases hb : b = a
      · subst hb; simp [hd]
      · simp [hb]
  · split
    · exact RegsBut.putRegs _ (RegsBut.act t (RegsBut.refl _ _) _ rfl) _ _ (List.mem_singleton.mpr rfl)
    · exact RegsBut.putRegs _ (RegsBut.refl _ _) _ _ (List.mem_singleton.mpr rfl)
  · split <;> rfl

theorem Defers.of {c : Instr} {a : Nat} {w : Word} (h : exec c s = done ((begin s).writeDeferred a w)) : Defers c s a w :=
  ⟨_, h, writeDeferred_spec (begin s) a w⟩

theorem WritesWords.of {c : Instr} {a n v : Nat} (h : exec c s = done ((begin s).putSpan a n v)) : WritesWords c s a n v :=
  ⟨_, h, (putSpan_words (begin s) a n v).1, (putSpan_words (begin s) a n v).2⟩

end Sys2Proof.Machine
end

