-- ==== Sys2Proof/Laws/Inv.lean ====
section
/-!
SUPPORT. What holds of every command because it holds of every primitive update: the invariant is kept, the output only
grows, the queue is left alone.
-/

namespace Sys2Proof.Machine

theorem Act.apply_canonical (a : Act) (s : State) (h : s.canonical = true) : (a.apply s).canonical = true := by
  unfold State.canonical at *
  simp only [Bool.and_eq_true] at h ⊢
  cases a <;> simp only [Act.apply] <;> first
    | exact h
    | (simp only [h, and_true, true_and]; first
        | (refine memory_wf_write _ _ _ ?_; simp only [h])
        | (refine mapWf_mapPut _ _ _ _ ?_; simp only [h]))

theorem Act.apply_reservedZero (a : Act) (s : State) (h : s.reservedZero = true) : (a.apply s).reservedZero = true := by
  cases a
  case regs k v =>
    unfold State.reservedZero at *
    rw [List.all_eq_true] at *
    intro kv hkv
    simp only [Act.apply_regs] at hkv
    unfold mapPut at hkv
    split at hkv
    · exact h kv (mem_mapErase _ _ _ hkv).1
    · rcases mem_mapInsert _ _ _ _ hkv with rfl | hkv
      · simp [BitVec.and_assoc]
      · exact h kv hkv
  all_goals exact h

/-- A primitive update keeps the invariant. -/
theorem Act.apply_inv (a : Act) (s : State) (h : s.Inv) : (a.apply s).Inv :=
  ⟨a.apply_canonical s h.1, a.apply_reservedZero s h.2⟩

theorem Reach.inv {s t : State} (h : Reach s t) (hs : s.Inv) : t.Inv := by
  induction h with
  | refl => exact hs
  | tail _ a ih => exact a.apply_inv _ ih

theorem Reach.pending {s t : State} (h : Reach s t) : t.pending = s.pending := by
  induction h with
  | refl => rfl
  | tail _ a ih => rw [Act.apply_pending, ih]

theorem Act.out_prefix (a : Act) (s : State) : s.out <+: (a.apply s).out := by
  cases a
  case out o => exact ⟨[o], rfl⟩
  all_goals exact List.prefix_refl _

theorem Reach.out {s t : State} (h : Reach s t) : s.out <+: t.out := by
  induction h with
  | refl => exact List.prefix_refl _
  | tail _ a ih => exact ih.trans (a.out_prefix _)

end Sys2Proof.Machine
end

