-- ==== Sys2Proof/Laws/Memory.lean ====
section
/-!
SUPPORT. Reading and writing memory (R9, R14): a read of canonical memory gives its bytes, a read of what was written gives it, and a
write changes nothing else but poison and key tags.
-/

namespace Sys2Proof.Machine

variable {s : State}

theorem memFill_eq (m : SMap Byte) (a n : Nat) (hs : mapSorted m = true) (hk : ∀ kv ∈ m, a ≤ kv.1) :
    memFill m a n = (List.range n).map fun k => mapGet 0 m (a + k) := by
  induction n generalizing a m with
  | zero => cases m <;> rfl
  | succ n ih =>
    rw [List.range_succ_eq_map, List.map_cons, List.map_map]
    cases m with
    | nil =>
      simp only [memFill]
      rw [ih [] (a + 1) rfl (by simp)]
      simp only [mapGet, List.cons.injEq, true_and]
      exact List.map_congr_left fun _ _ => rfl
    | cons c m =>
      obtain ⟨k, v⟩ := c
      rw [mapSorted_cons] at hs
      simp only [memFill]
      split
      · rename_i h
        subst h
        rw [ih m (k + 1) hs.2 fun kv hkv => hs.1 kv hkv]
        simp only [Nat.add_zero, mapGet, if_true]
        congr 1
        refine List.map_congr_left fun j _ => ?_
        simp only [Function.comp, Nat.succ_eq_add_one, show ¬ (k + (j + 1) = k) by omega, if_false]
        congr 1; omega
      · rename_i h
        have hk' : a < k := by have := hk (k, v) (by simp); simp at this; omega
        rw [ih ((k, v) :: m) (a + 1) ((mapSorted_cons ..).mpr hs) fun kv hkv => by
          rcases List.mem_cons.mp hkv with rfl | hkv
          · exact hk'
          · have := hs.1 kv hkv; omega]
        have h0 : mapGet 0 ((k, v) :: m) (a + 0) = 0 := by
          refine mapGet_absent _ _ _ fun kv hkv => ?_
          rcases List.mem_cons.mp hkv with rfl | hkv
          · omega
          · have := hs.1 kv hkv; omega
        rw [h0]; congr 1
        refine List.map_congr_left fun j _ => ?_
        simp only [Function.comp]; congr 1; omega

/-- A read of canonical memory is the bytes at its addresses. -/
theorem memReadBytes_eq (m : SMap Byte) (a n : Nat) (h : Memory.wf m = true) :
    memReadBytes m a n = (List.range n).map fun k => memByte m (a + k) := by
  unfold memReadBytes
  rw [memFill_eq]
  · refine List.map_congr_left fun k hk => ?_
    rw [List.mem_range] at hk
    exact mapGet_filter 0 (fun j => decide (a ≤ j) && decide (j < a + n)) m (a + k) (by simp; omega)
  · have h' := ((mapWf_iff _ _).mp h).1
    rw [mapSorted_iff_pairwise] at h' ⊢
    exact h'.filter _
  · intro kv hkv
    rw [List.mem_filter] at hkv
    simp at hkv; omega

theorem natLe_length (n x : Nat) : (natLe n x).length = n := by
  induction n generalizing x with
  | zero => rfl
  | succ n ih => simp [natLe, ih]

theorem leNat_natLe (n x : Nat) : leNat (natLe n x) = x % 2 ^ (8 * n) := by
  induction n generalizing x with
  | zero => simp [natLe, leNat, Nat.mod_one]
  | succ n ih =>
    simp only [natLe, leNat, ih, BitVec.toNat_ofNat]
    rw [show 8 * (n + 1) = 8 + 8 * n by omega, Nat.pow_add, Nat.mod_mul]

theorem bytesWords_wordsBytes (ws : List Nat) : bytesWords (wordsBytes ws) = ws.map (· % 2 ^ 32) := by
  induction ws with
  | nil => rfl
  | cons w ws ih =>
    have h : wordsBytes (w :: ws) = BitVec.ofNat 8 w :: BitVec.ofNat 8 (w / 256) :: BitVec.ofNat 8 (w / 256 / 256) ::
        BitVec.ofNat 8 (w / 256 / 256 / 256) :: wordsBytes ws := rfl
    have h2 := leNat_natLe 4 w
    rw [h, bytesWords, ih, List.map_cons]
    congr 1

theorem wordsBytes_length (ws : List Nat) : (wordsBytes ws).length = 4 * ws.length := by
  induction ws with
  | nil => rfl
  | cons w ws ih =>
    have h : wordsBytes (w :: ws) = natLe 4 w ++ wordsBytes ws := rfl
    rw [h, List.length_append, natLe_length, ih, List.length_cons]; omega

theorem range_getD (l : List Byte) : (List.range l.length).map (fun k => l.getD k 0) = l := by
  apply List.ext_getElem
  · simp
  · intro i h1 h2
    simp at h1
    simp [List.getD_eq_getElem?_getD, List.getElem?_eq_getElem h2]

/-- A read of words just written gives them. -/
theorem readWords_written (m : SMap Byte) (a : Nat) (ws : List Nat) (h : Memory.wf m = true) :
    bytesWords (memReadBytes (memWriteBytes m a (wordsBytes ws)) a (4 * ws.length)) = ws.map (· % 2 ^ 32) := by
  rw [memReadBytes_eq _ _ _ (memory_wf_write _ _ _ h), ← wordsBytes_length, ← bytesWords_wordsBytes]
  congr 1
  conv_rhs => rw [← range_getD (wordsBytes ws)]
  refine List.map_congr_left fun k hk => ?_
  rw [List.mem_range] at hk
  rw [memByte_memWriteBytes, if_pos ⟨by omega, by omega⟩, Nat.add_sub_cancel_left]

/-- Reads of bytes that are the same give the same words. -/
theorem readWords_congr {a b : State} (ha : Memory.wf a.mem = true) (hb : Memory.wf b.mem = true) (x n : Nat)
    (h : ∀ k, x ≤ k → k < x + 4 * n → memByte a.mem k = memByte b.mem k) : a.readWords x n = b.readWords x n := by
  unfold State.readWords State.read
  rw [memReadBytes_eq _ _ _ ha, memReadBytes_eq _ _ _ hb]
  congr 1
  refine List.map_congr_left fun k hk => ?_
  rw [List.mem_range] at hk
  exact h _ (by omega) (by omega)

/-- Two states that differ at most in memory, its poison and key tags. -/
def SameButMem (a b : State) : Prop := { a with mem := b.mem, poison := b.poison, landTag := b.landTag } = b

theorem SameButMem.refl (a : State) : SameButMem a a := rfl
theorem SameButMem.trans {a b c : State} (h : SameButMem a b) (g : SameButMem b c) : SameButMem a c := by
  have e : { a with mem := c.mem, poison := c.poison, landTag := c.landTag } =
      { b with mem := c.mem, poison := c.poison, landTag := c.landTag } :=
    congrArg (fun x : State => { x with mem := c.mem, poison := c.poison, landTag := c.landTag }) h
  exact e.trans g

theorem SameButMem.regsAt {a b : State} (h : SameButMem a b) (k : Nat) : a.regsAt k = b.regsAt k := by
  have := congrArg (fun x : State => x.regsAt k) h; exact this
theorem SameButMem.tilesAt {a b : State} (h : SameButMem a b) (k : Nat) : a.tilesAt k = b.tilesAt k := by
  have := congrArg (fun x : State => x.tilesAt k) h; exact this

/-- A loop of updates that each change poison or tags only. -/
theorem forEach_poison (t : Tx s) (l : List Nat) :
    let u := t.forEach l fun t k => t.putPoison k false
    SameButMem u.now t.now ∧ u.now.mem = t.now.mem ∧ ∀ kv ∈ u.now.poison, kv ∈ t.now.poison := by
  induction l generalizing t with
  | nil => exact ⟨rfl, rfl, fun _ h => h⟩
  | cons k l ih =>
    obtain ⟨h1, h2, h3⟩ := ih (t.putPoison k false)
    refine ⟨h1.trans rfl, h2.trans (by simp), fun kv h => ?_⟩
    have := h3 kv h
    simp only [Tx.putPoison_now, Act.apply_poison] at this
    exact (mem_mapErase _ _ _ (by simpa [mapPut, poisonDefault] using this)).1

theorem forEach_tag (t : Tx s) (l : List Nat) :
    let u := t.forEach l fun t k => t.putLandTag k 0
    SameButMem u.now t.now ∧ u.now.mem = t.now.mem ∧ u.now.poison = t.now.poison := by
  induction l generalizing t with
  | nil => exact ⟨rfl, rfl, rfl⟩
  | cons k l ih =>
    obtain ⟨h1, h2, h3⟩ := ih (t.putLandTag k 0)
    exact ⟨h1.trans rfl, h2.trans (by simp), h3.trans (by simp)⟩

/-- What a write of bytes does: the bytes change, poison and key tags only go, and nothing else changes. -/
theorem write_spec (t : Tx s) (a : Nat) (bs : List Byte) :
    SameButMem (t.write a bs).now t.now ∧
    (bs ≠ [] → (t.write a bs).now.mem = memWriteBytes t.now.mem a bs) ∧ (bs = [] → t.write a bs = t) ∧
    ∀ kv ∈ (t.write a bs).now.poison, kv ∈ t.now.poison := by
  unfold Tx.write
  by_cases hb : bs = []
  · subst hb; simp only [List.length_nil, if_true]
    exact ⟨rfl, fun h => absurd rfl h, by intros; trivial, fun _ h => h⟩
  · have hl : bs.length ≠ 0 := fun h => hb (List.length_eq_zero_iff.mp h)
    simp only [hl, if_false]
    obtain ⟨u, hu⟩ : ∃ u : Tx s, u = t.act (.mem a bs) := ⟨_, rfl⟩
    rw [← hu]
    obtain ⟨v, hv⟩ : ∃ v : Tx s, v = u.forEach (keysIn u.now.poison ((a + 63) / 64) ((a + bs.length) / 64)) fun t k => t.putPoison k false :=
      ⟨_, rfl⟩
    rw [← hv]
    have h1 := forEach_poison u (keysIn u.now.poison ((a + 63) / 64) ((a + bs.length) / 64))
    have h2 := forEach_tag v (keysIn v.now.landTag (a / 64) ((a + bs.length - 1) / 64 + 1))
    simp only at h1 h2
    rw [← hv] at h1
    have h3 : SameButMem u.now t.now := by rw [hu]; exact rfl
    refine ⟨h2.1.trans (h1.1.trans h3), fun _ => ?_, fun h => absurd h hb, fun kv hkv => ?_⟩
    · rw [h2.2.1, h1.2.1, hu]; rfl
    · rw [h2.2.2] at hkv
      have := h1.2.2 kv hkv
      rw [hu] at this; exact this

theorem firstPoison_sub {a b : State} (h : ∀ kv ∈ a.poison, kv ∈ b.poison) (x n : Nat) (hb : b.poisoned x n = false) :
    a.poisoned x n = false := by
  unfold State.poisoned State.firstPoison at *
  simp only [Option.isSome_map, Bool.eq_false_iff, ne_eq, List.find?_isSome] at *
  rintro ⟨kv, h1, h2⟩
  exact hb ⟨kv, h kv h1, h2⟩

/-- What a write of words does. -/
theorem writeWords_spec (t : Tx s) (a : Nat) (ws : List Nat) (hw : Memory.wf t.now.mem = true) :
    let u := (t.writeWords a ws).now
    SameButMem u t.now ∧ Memory.wf u.mem = true ∧ (∀ kv ∈ u.poison, kv ∈ t.now.poison) ∧
    u.readWords a ws.length = ws.map (· % 2 ^ 32) ∧
    ∀ b, (b < a ∨ a + 4 * ws.length ≤ b) → memByte u.mem b = memByte t.now.mem b := by
  have h := write_spec t a (wordsBytes ws)
  have hmem : ((t.writeWords a ws).now).mem = memWriteBytes t.now.mem a (wordsBytes ws) ∨
      (ws = [] ∧ (t.writeWords a ws) = t) := by
    by_cases hn : wordsBytes ws = []
    · right
      refine ⟨?_, h.2.2.1 hn⟩
      have := congrArg List.length hn
      rw [wordsBytes_length] at this
      exact List.length_eq_zero_iff.mp (by simpa using this)
    · left; exact h.2.1 hn
  refine ⟨h.1, ?_, h.2.2.2, ?_, ?_⟩
  · rcases hmem with e | ⟨-, e⟩
    · rw [e]; exact memory_wf_write _ _ _ hw
    · rw [e]; exact hw
  · rcases hmem with e | ⟨e1, e⟩
    · unfold State.readWords State.read; rw [e]; exact readWords_written _ _ _ hw
    · subst e1; rw [e]
      simp [State.readWords, State.read, memReadBytes, memFill, bytesWords]
  · intro b hb
    rcases hmem with e | ⟨e1, e⟩
    · rw [e, memByte_memWriteBytes, if_neg]
      rw [wordsBytes_length]; omega
    · rw [e]

end Sys2Proof.Machine
end

