-- ==== Sys2Proof/Laws/Limbs.lean ====
section
/-!
SUPPORT. What engine steps on the scratchpad do (R52, R82, R83): where the sources are clean and no step reads what an earlier one
wrote, every limb's result stands at its destination, and no other byte changes.
-/

namespace Sys2Proof.Machine

variable {s : State}

/-- Two states that differ at most in memory, its poison and key tags, and hold the same tiles. -/
def SameButLimbs (a b : State) : Prop :=
  { a with mem := b.mem, poison := b.poison, landTag := b.landTag, tiles := b.tiles } = b ∧ ∀ j, a.tilesAt j = b.tilesAt j

theorem SameButLimbs.refl (a : State) : SameButLimbs a a := ⟨rfl, fun _ => rfl⟩
theorem SameButLimbs.trans {a b c : State} (h : SameButLimbs a b) (g : SameButLimbs b c) : SameButLimbs a c := by
  refine ⟨?_, fun j => (h.2 j).trans (g.2 j)⟩
  have e : { a with mem := c.mem, poison := c.poison, landTag := c.landTag, tiles := c.tiles } =
      { b with mem := c.mem, poison := c.poison, landTag := c.landTag, tiles := c.tiles } :=
    congrArg (fun x : State => { x with mem := c.mem, poison := c.poison, landTag := c.landTag, tiles := c.tiles }) h.1
  exact e.trans g.1

theorem SameButLimbs.ofMem {a b : State} (h : SameButMem a b) : SameButLimbs a b :=
  ⟨congrArg (fun x : State => { x with tiles := b.tiles }) h, h.tilesAt⟩

theorem SameButLimbs.regsAt {a b : State} (h : SameButLimbs a b) (k : Nat) : a.regsAt k = b.regsAt k := by
  have := congrArg (fun x : State => x.regsAt k) h.1; exact this

/-- The words of a step's sources. -/
def srcWords (s : State) (i : Nat) (e : EStep s') : List (List Nat) :=
  e.reads.map fun r => s.readWords (opndAddr i r.1) r.2.1

/-- What a step computes from the words of its sources, and leaves its tile alone. -/
def EStep.out (e : EStep s) (ws : List (List Nat)) : List (List Nat) := (e.compute {} ws).2

/-- A step that reads and writes the scratchpad and does nothing else. -/
structure SpadStep (e : EStep s) : Prop where
  reads : ∀ r ∈ e.reads, ∃ off, r.1 = .spad off
  writes : ∀ r ∈ e.writes, ∃ off, r.1 = .spad off
  comp : ∀ x ws, e.compute x ws = (x, e.out ws)
  banks : e.tagBanks = []
  more : e.more = []
  note : ∀ x ws t, e.note x ws t = t
  check : ∀ x ws, e.check x ws = none
  stop : ∀ x ws, e.stop x ws = none

/-- The sources of a step are free of poison and canonical. -/
def cleanStep (s : State) (i : Nat) (e : EStep s') : Prop :=
  ∀ r ∈ e.reads, s.poisoned (opndAddr i r.1) (4 * r.2.1) = false ∧
    (r.2.2 ≠ 0 → nonCanonical r.2.2 (s.readWords (opndAddr i r.1) r.2.1) = false)

theorem writeAll_spad (t : Tx s) (i : Nat) (l : List ((Opnd × Nat) × List Nat)) (hw : Memory.wf t.now.mem = true)
    (hs : ∀ p ∈ l, ∃ off, p.1.1 = .spad off) (hl : ∀ p ∈ l, p.2.length = p.1.2) :
    let u := (t.writeAll i l).now
    SameButMem u t.now ∧ Memory.wf u.mem = true ∧ (∀ kv ∈ u.poison, kv ∈ t.now.poison) ∧
    (∀ b, (∀ p ∈ l, b < opndAddr i p.1.1 ∨ opndAddr i p.1.1 + 4 * p.1.2 ≤ b) → memByte u.mem b = memByte t.now.mem b) ∧
    (l.Pairwise (fun p q => apart p.1 q.1) → ∀ p ∈ l, u.readWords (opndAddr i p.1.1) p.1.2 = p.2.map (· % 2 ^ 32)) := by
  induction l generalizing t with
  | nil => exact ⟨rfl, hw, fun _ h => h, fun _ _ => rfl, fun _ _ h => absurd h (by simp)⟩
  | cons p l ih =>
    obtain ⟨⟨o, n⟩, ws⟩ := p
    obtain ⟨off, ho⟩ := hs _ List.mem_cons_self
    simp only at ho; subst ho
    have hn : ws.length = n := hl _ List.mem_cons_self
    subst hn
    obtain ⟨a1, a2, a3, a4, a5⟩ := writeWords_spec t (spadBase i + off) ws hw
    obtain ⟨b1, b2, b3, b4, b5⟩ := ih (t.writeWords (spadBase i + off) ws) a2 (fun p hp => hs p (List.mem_cons_of_mem _ hp))
      (fun p hp => hl p (List.mem_cons_of_mem _ hp))
    have e : t.writeAll i (((Opnd.spad off, ws.length), ws) :: l) = (t.writeWords (spadBase i + off) ws).writeAll i l := rfl
    rw [e]
    refine ⟨b1.trans a1, b2, fun kv h => a3 kv (b3 kv h), fun b hb => ?_, fun hp p hm => ?_⟩
    · rw [b4 b fun p hp => hb p (List.mem_cons_of_mem _ hp)]
      exact a5 b (hb _ List.mem_cons_self)
    · rw [List.pairwise_cons] at hp
      rcases List.mem_cons.mp hm with rfl | hm
      · refine Eq.trans (readWords_congr b2 a2 _ _ fun k h1 h2 => b4 k fun q hq => ?_) a4
        have := hp.1 q hq
        have e0 : (Opnd.spad off).off = off := rfl
        simp only [apart, opndAddr, e0] at this h1 h2 ⊢
        omega
      · exact b5 hp.2 p hm

theorem pairwise_zip (l : List (Opnd × Nat)) (vs : List (List Nat)) (h : l.Pairwise apart) :
    (l.zip vs).Pairwise fun p q => apart p.1 q.1 := by
  induction l generalizing vs with
  | nil => simp
  | cons w l ih =>
    cases vs with
    | nil => simp
    | cons v vs =>
      rw [List.pairwise_cons] at h
      rw [List.zip_cons_cons, List.pairwise_cons]
      exact ⟨fun q hq => h.1 _ (List.of_mem_zip hq).1, ih vs h.2⟩

theorem runSteps_spad (i unit : Nat) (nc : Bool) (es : List (EStep s)) (t : Tx s) (hw : Memory.wf t.now.mem = true)
    (hs : ∀ e ∈ es, SpadStep e) (hc : ∀ e ∈ es, cleanStep t.now i e)
    (hl : ∀ e ∈ es, ∀ p ∈ e.writes.zip (e.out (srcWords t.now i e)), p.2.length = p.1.2)
    (hd : es.Pairwise fun a b => ∀ w ∈ a.writes, ∀ r ∈ b.reads, apart w (r.1, r.2.1)) :
    let u := (t.runSteps i unit nc es).now
    SameButLimbs u t.now ∧ Memory.wf u.mem = true ∧ (∀ kv ∈ u.poison, kv ∈ t.now.poison) ∧
    (∀ b, (∀ e ∈ es, ∀ w ∈ e.writes, b < opndAddr i w.1 ∨ opndAddr i w.1 + 4 * w.2 ≤ b) →
      memByte u.mem b = memByte t.now.mem b) ∧
    ((∀ e ∈ es, e.writes.Pairwise apart) → (es.Pairwise fun a b => ∀ v ∈ a.writes, ∀ w ∈ b.writes, apart v w) →
      ∀ e ∈ es, ∀ p ∈ e.writes.zip (e.out (srcWords t.now i e)), u.readWords (opndAddr i p.1.1) p.1.2 = p.2.map (· % 2 ^ 32)) := by
  induction es generalizing t nc with
  | nil => exact ⟨.refl _, hw, fun _ h => h, fun _ _ => rfl, fun _ _ _ h => absurd h (by simp)⟩
  | cons e es ih =>
    have S := hs e List.mem_cons_self
    have hce := hc e List.mem_cons_self
    have hle := hl e List.mem_cons_self
    rw [List.pairwise_cons] at hd
    have hplain : ∀ r ∈ e.reads, r.1.plain = true := fun r hr => by obtain ⟨o, ho⟩ := S.reads r hr; rw [ho]; rfl
    have hread : e.reads.map (fun r => (t.readOpnd i r.1 r.2.1).2.words) = srcWords t.now i e := by
      refine List.map_congr_left fun r hr => ?_
      obtain ⟨o, ho⟩ := S.reads r hr
      simp only [ho, Tx.readOpnd, opndAddr, Opnd.off]
    have hnc : ((e.reads.zip (e.reads.map fun r => (t.readOpnd i r.1 r.2.1).2)).any fun p =>
        decide (p.1.2.2 ≠ 0) && nonCanonical p.1.2.2 p.2.words) = false := by
      rw [List.any_eq_false]
      intro p hp
      rw [List.zip_map_right, List.mem_map] at hp
      obtain ⟨q, hq', rfl⟩ := hp
      have hm : q.1 ∈ e.reads := (List.of_mem_zip hq').1
      have heq : q.2 = q.1 := by
        obtain ⟨k, hk, hk'⟩ := List.getElem_of_mem hq'
        rw [List.getElem_zip] at hk'; rw [← hk']
      simp only [Prod.map, id, heq, Bool.and_eq_true, decide_eq_true_eq, not_and, Bool.not_eq_true]
      intro h0
      obtain ⟨o, ho⟩ := S.reads _ hm
      have := (hce _ hm).2 h0
      simpa only [ho, Tx.readOpnd, opndAddr, Opnd.off] using this
    have hfind : (e.reads.map fun r => (t.readOpnd i r.1 r.2.1).2).find? (·.bad) = none := by
      rw [List.find?_eq_none]
      intro x hx
      obtain ⟨r, hr, rfl⟩ := List.mem_map.mp hx
      obtain ⟨o, ho⟩ := S.reads r hr
      have := (hce _ hr).1
      simp only [ho, opndAddr, Opnd.off] at this
      simp [ho, Tx.readOpnd, this]
    obtain ⟨u0, hu0⟩ : ∃ u0 : Tx s, u0 = t.putTiles i (t.now.tilesAt i) := ⟨_, rfl⟩
    obtain ⟨u, hu⟩ : ∃ u : Tx s, u = u0.writeAll i (e.writes.zip (e.out (srcWords t.now i e))) := ⟨_, rfl⟩
    have hrun : t.runSteps i unit nc (e :: es) = u.runSteps i unit nc es := by
      have hws : (e.reads.map fun r => (t.readOpnd i r.1 r.2.1).2).map (·.words) = srcWords t.now i e := by
        rw [List.map_map, ← hread]; rfl
      conv_lhs => unfold Tx.runSteps
      simp only [readAll_plain t i e.reads hplain, hnc, hfind, Bool.false_and, Bool.false_eq_true, if_false, S.note, S.check,
        S.comp, S.stop, hws, S.banks, S.more, List.any_nil, Bool.or_false, tagTile, List.contains_nil, Tx.tilesAt_eq]
      rw [hu, hu0]
    have h0 : SameButLimbs u0.now t.now := by
      rw [hu0]; refine ⟨rfl, fun j => ?_⟩
      simp only [Tx.putTiles_now, Act.apply_tilesAt]; split
      · rename_i h; rw [h]
      · rfl
    have m0 : u0.now.mem = t.now.mem ∧ u0.now.poison = t.now.poison := by rw [hu0]; exact ⟨rfl, rfl⟩
    obtain ⟨a1, a2, a3, a4, a5⟩ := writeAll_spad u0 i (e.writes.zip (e.out (srcWords t.now i e))) (by rw [m0.1]; exact hw)
      (fun p hp => S.writes _ (List.of_mem_zip hp).1) hle
    rw [← hu] at a1 a2 a3 a4 a5
    -- later sources are as before
    have hsame : ∀ f ∈ es, ∀ r ∈ f.reads, u.now.readWords (opndAddr i r.1) r.2.1 = t.now.readWords (opndAddr i r.1) r.2.1 := by
      intro f hf r hr
      refine readWords_congr a2 hw _ _ fun k h1 h2 => ?_
      rw [a4 k fun p hp => ?_, m0.1]
      have hap := hd.1 f hf p.1 (List.of_mem_zip hp).1 r hr
      simp only [apart, opndAddr] at hap h1 h2 ⊢
      omega
    have hsrc : ∀ f ∈ es, srcWords u.now i f = srcWords t.now i f := fun f hf =>
      List.map_congr_left fun r hr => hsame f hf r hr
    obtain ⟨b1, b2, b3, b4, b5⟩ := ih nc u a2 (fun f hf => hs f (List.mem_cons_of_mem _ hf))
      (fun f hf r hr => by
        have := hc f (List.mem_cons_of_mem _ hf) r hr
        rw [hsame f hf r hr]
        exact ⟨firstPoison_sub (fun kv h => by have := a3 kv h; rwa [m0.2] at this) _ _ this.1, this.2⟩)
      (fun f hf => by rw [hsrc f hf]; exact hl f (List.mem_cons_of_mem _ hf)) hd.2
    rw [hrun]
    refine ⟨b1.trans ((SameButLimbs.ofMem a1).trans h0), b2, fun kv h => by
      have := a3 kv (b3 kv h); rwa [m0.2] at this, fun b hb => ?_, fun hp1 hp2 f hf p hp => ?_⟩
    · rw [b4 b fun f hf => hb f (List.mem_cons_of_mem _ hf), a4 b fun p hp => hb e List.mem_cons_self _ (List.of_mem_zip hp).1, m0.1]
    · rw [List.pairwise_cons] at hp2
      rcases List.mem_cons.mp hf with rfl | hf
      · have hlen := hle p hp
        refine Eq.trans (readWords_congr b2 a2 _ _ fun k h1 h2 => b4 k fun g hg w hw' => ?_) (a5 ?_ p hp)
        · have := hp2.1 g hg p.1 (List.of_mem_zip hp).1 w hw'
          simp only [apart, opndAddr] at this h1 h2 ⊢
          omega
        · exact pairwise_zip _ _ (hp1 f List.mem_cons_self)
      · have := b5 (fun g hg => hp1 g (List.mem_cons_of_mem _ hg)) hp2.2 f hf p
        rw [hsrc f hf] at this
        exact this hp

theorem spadRanges_spad (l : List (Opnd × Nat)) (h : ∀ r ∈ l, r.1 = .spad r.1.off) :
    spadRanges l = l.map fun r => (r.1.off, 4 * r.2) := by
  unfold spadRanges
  rw [← List.filterMap_eq_map]
  apply List.filterMap_congr
  intro r hr
  have := h r hr
  simp only [Function.comp]
  rw [this]; rfl

theorem not_overlaps (a b : Opnd × Nat) (h : apart a b) : overlaps a.1.off (4 * a.2) b.1.off (4 * b.2) = false := by
  unfold overlaps
  rcases h with h | h
  · have : ¬ b.1.off < a.1.off + 4 * a.2 := by omega
    simp [this]
  · have : ¬ a.1.off < b.1.off + 4 * b.2 := by omega
    simp [this]

/-- Steps on the scratchpad whose operands fit and lie apart are legal (R82, R83, R240). -/
theorem stepsLegal_spad (i : Nat) (es : List (EStep s))
    (hr : ∀ e ∈ es, ∀ r ∈ e.reads, r.1 = .spad r.1.off ∧ r.1.off % 64 = 0 ∧ r.1.off + 4 * r.2.1 ≤ s.spadEnd i)
    (hw : ∀ e ∈ es, ∀ r ∈ e.writes, r.1 = .spad r.1.off ∧ r.1.off % 64 = 0 ∧ r.1.off + 4 * r.2 ≤ s.spadEnd i)
    (h1 : ∀ e ∈ es, e.writes.Pairwise apart) (h2 : es.Pairwise fun a b => ∀ d ∈ a.writes, ∀ e ∈ b.writes, apart d e)
    (h3 : ∀ e ∈ es, ∀ d ∈ e.writes, ∀ r ∈ e.reads, d = (r.1, r.2.1) ∨ apart d (r.1, r.2.1))
    (h4 : es.Pairwise fun a b => (∀ d ∈ a.writes, ∀ r ∈ b.reads, apart d (r.1, r.2.1)) ∧
      ∀ d ∈ b.writes, ∀ r ∈ a.reads, apart d (r.1, r.2.1)) : (begin s).stepsLegal i es = true := by
  have hW : spadRanges (es.flatMap (·.writes)) = (es.flatMap (·.writes)).map fun r => (r.1.off, 4 * r.2) :=
    spadRanges_spad _ fun r hr' => by
      obtain ⟨e, he, hr'⟩ := List.mem_flatMap.mp hr'; exact (hw e he r hr').1
  have hR : spadRanges (es.flatMap fun e => e.reads.map fun r => (r.1, r.2.1)) =
      (es.flatMap fun e => e.reads.map fun r => (r.1, r.2.1)).map fun r => (r.1.off, 4 * r.2) :=
    spadRanges_spad _ fun r hr' => by
      obtain ⟨e, he, hr'⟩ := List.mem_flatMap.mp hr'
      obtain ⟨r', hr'', rfl⟩ := List.mem_map.mp hr'
      exact (hr e he r' hr'').1
  have hd : (es.flatMap (·.writes)).Pairwise apart := List.pairwise_flatMap.mpr ⟨h1, h2⟩
  have hwr : ∀ e ∈ es, spadRanges e.writes = e.writes.map fun r => (r.1.off, 4 * r.2) := fun e he =>
    spadRanges_spad _ fun r h => (hw e he r h).1
  have hrd : ∀ e ∈ es, (spadRanges (e.reads.map fun r => (r.1, r.2.1))) =
      (e.reads.map fun r => (r.1, r.2.1)).map fun r => (r.1.off, 4 * r.2) := fun e he =>
    spadRanges_spad _ fun r h => by obtain ⟨r', h', rfl⟩ := List.mem_map.mp h; exact (hr e he r' h').1
  unfold Tx.stepsLegal
  simp only [hW, hR, Bool.and_eq_true, List.all_eq_true]
  refine ⟨⟨⟨⟨⟨?_, ?_⟩, ?_⟩, ?_⟩, ?_⟩, ?_⟩
  · intro p hp
    rcases List.mem_append.mp hp with hp | hp
    · obtain ⟨r, hr', rfl⟩ := List.mem_map.mp hp
      obtain ⟨e, he, hr'⟩ := List.mem_flatMap.mp hr'
      obtain ⟨r', hr'', rfl⟩ := List.mem_map.mp hr'
      have := hr e he r' hr''
      exact ⟨decide_eq_true this.2.1, decide_eq_true this.2.2⟩
    · obtain ⟨r, hr', rfl⟩ := List.mem_map.mp hp
      obtain ⟨e, he, hr'⟩ := List.mem_flatMap.mp hr'
      have := hw e he r hr'
      exact ⟨decide_eq_true this.2.1, decide_eq_true this.2.2⟩
  · intro p hp
    obtain ⟨e, he, hr'⟩ := List.mem_flatMap.mp hp
    obtain ⟨r', hr'', rfl⟩ := List.mem_map.mp hr'
    have := (hr e he r' hr'').1
    simp only; rw [this]
  · intro p hp
    obtain ⟨e, he, hr'⟩ := List.mem_flatMap.mp hp
    have := (hw e he p hr').1
    rw [this]
  · rintro ⟨a, x⟩ ha ⟨b, y⟩ hb
    obtain ⟨ha1, ha2⟩ := List.mem_zipIdx' ha
    obtain ⟨hb1, hb2⟩ := List.mem_zipIdx' hb
    simp only [List.length_map] at ha1 hb1
    rw [List.getElem_map] at ha2 hb2
    simp only [Bool.or_eq_true, decide_eq_true_eq, Bool.not_eq_true', ha2, hb2]
    rcases Nat.lt_trichotomy x y with h | h | h
    · exact .inr (not_overlaps _ _ (List.pairwise_iff_getElem.mp hd x y ha1 hb1 h))
    · exact .inl h
    · refine .inr (not_overlaps _ _ ?_)
      rcases List.pairwise_iff_getElem.mp hd y x hb1 ha1 h with h | h
      · exact .inr h
      · exact .inl h
  · intro e he
    unfold EStep.coincides
    rw [hwr e he, hrd e he, List.all_eq_true]
    intro a ha
    rw [List.all_eq_true]
    intro b hb
    obtain ⟨d, hd', rfl⟩ := List.mem_map.mp ha
    obtain ⟨r0, hr', rfl⟩ := List.mem_map.mp hb
    obtain ⟨r, hr'', rfl⟩ := List.mem_map.mp hr'
    simp only [Bool.or_eq_true, decide_eq_true_eq, Bool.not_eq_true']
    rcases h3 e he d hd' r hr'' with h | h
    · left; rw [h]
    · exact .inr (not_overlaps _ _ h)
  · unfold stepsApart
    rw [List.all_eq_true]
    rintro ⟨e, x⟩ he
    rw [List.all_eq_true]
    rintro ⟨f, y⟩ hf
    obtain ⟨hx, he'⟩ := List.mem_zipIdx' he
    obtain ⟨hy, hf'⟩ := List.mem_zipIdx' hf
    simp only [Bool.or_eq_true, decide_eq_true_eq, he', hf']
    rw [hwr _ (List.getElem_mem hx), hrd _ (List.getElem_mem hy)]
    rcases Nat.lt_trichotomy x y with h | h | h
    · right
      rw [List.all_eq_true]; intro a ha; rw [List.all_eq_true]; intro b hb
      obtain ⟨d, hd', rfl⟩ := List.mem_map.mp ha
      obtain ⟨r0, hr', rfl⟩ := List.mem_map.mp hb
      obtain ⟨r, hr'', rfl⟩ := List.mem_map.mp hr'
      simp only [Bool.not_eq_true']
      exact not_overlaps _ _ ((List.pairwise_iff_getElem.mp h4 x y hx hy h).1 d hd' r hr'')
    · exact .inl h
    · right
      rw [List.all_eq_true]; intro a ha; rw [List.all_eq_true]; intro b hb
      obtain ⟨d, hd', rfl⟩ := List.mem_map.mp ha
      obtain ⟨r0, hr', rfl⟩ := List.mem_map.mp hb
      obtain ⟨r, hr'', rfl⟩ := List.mem_map.mp hr'
      simp only [Bool.not_eq_true']
      exact not_overlaps _ _ ((List.pairwise_iff_getElem.mp h4 y x hy hx h).2 d hd' r hr'')

theorem readWords_length (s : State) (a n : Nat) (h : Memory.wf s.mem = true) : (s.readWords a n).length = n := by
  unfold State.readWords State.read
  have key : ∀ (n : Nat) (l : List Byte), l.length = 4 * n → (bytesWords l).length = n := by
    intro n
    induction n with
    | zero => intro l hl; have := List.length_eq_zero_iff.mp (by omega : l.length = 0); subst this; rfl
    | succ n ih =>
      intro l hl
      match l, hl with
      | a :: b :: c :: d :: r, hl => simp only [bytesWords, List.length_cons]; rw [ih r (by simp at hl; omega)]
      | [], hl => simp at hl
      | [_], hl => simp at hl; omega
      | [_, _], hl => simp at hl; omega
      | [_, _, _], hl => simp at hl; omega
  refine key n _ ?_
  rw [memReadBytes_eq _ _ _ h]; simp

end Sys2Proof.Machine
end

