-- ==== Sys2Proof/Laws/OneStep.lean ====
section
/-!
SUPPORT. What an engine instruction of one step does (R52, R95, R110): its tile takes the step's result and the key tags of its
sources, the destinations stand written, and nothing else changes but what the step notes in its tile's page.
-/

namespace Sys2Proof.Machine

variable {s : State}

/-- An update of register words of a tile's page that leaves its run state alone. -/
structure NotesOnly (i : Nat) (f : Tx s → Tx s) : Prop where
  same : ∀ u v : Tx s, SameButTiles u.now v.now → SameButTiles (f u).now (f v).now
  tiles : ∀ (u : Tx s) j, (f u).now.tilesAt j = u.now.tilesAt j
  run : ∀ u : Tx s, (f u).now.runState i = u.now.runState i
  mem : ∀ u : Tx s, (f u).now.mem = u.now.mem
  poison : ∀ u : Tx s, (f u).now.poison = u.now.poison
  tags : ∀ u : Tx s, (f u).now.landTag = u.now.landTag

theorem NotesOnly.id (i : Nat) : NotesOnly i (fun t : Tx s => t) :=
  ⟨fun _ _ h => h, fun _ _ => rfl, fun _ => rfl, fun _ => rfl, fun _ => rfl, fun _ => rfl⟩

theorem NotesOnly.comp {i : Nat} {f g : Tx s → Tx s} (hf : NotesOnly i f) (hg : NotesOnly i g) : NotesOnly i fun t => g (f t) :=
  ⟨fun u v h => hg.same _ _ (hf.same u v h), fun u j => (hg.tiles _ j).trans (hf.tiles u j), fun u => (hg.run _).trans (hf.run u),
    fun u => (hg.mem _).trans (hf.mem u), fun u => (hg.poison _).trans (hf.poison u), fun u => (hg.tags _).trans (hf.tags u)⟩

theorem NotesOnly.when {i : Nat} {f : Tx s → Tx s} (hf : NotesOnly i f) (c : Bool) : NotesOnly i fun t => t.when c f := by
  cases c
  · exact .id i
  · exact hf

theorem NotesOnly.setFld (i : Nat) (f : Fld) (v : Nat) (hw : f.hi / 32 = f.lo / 32)
    (hr : TILE.RUNSTAT.STATE.word i 0 ≠ f.word i 0) : NotesOnly i fun t : Tx s => t.setFld f v i := by
  refine ⟨fun u v h => h.setFld (u := s) f _ i 0 hw, fun u j => ?_, fun u => ?_, fun u => ?_, fun u => ?_, fun u => ?_⟩
  · rw [Tx.setFld_now _ _ _ _ _ hw, Act.apply_tilesAt]
  · exact fld_write_word _ _ _ _ _ _ _ _ hw rfl hr
  all_goals rw [Tx.setFld_now _ _ _ _ _ hw]; simp

theorem NotesOnly.bump (i : Nat) (f : Fld) (v : Nat) (hw : f.hi / 32 = f.lo / 32)
    (hr : TILE.RUNSTAT.STATE.word i 0 ≠ f.word i 0) : NotesOnly i fun t : Tx s => t.bump f v i := by
  refine ⟨fun u v h => h.bump f _ i 0 hw, fun u j => bump_tilesAt _ _ _ _ _ _ hw, fun u => ?_, fun u => ?_, fun u => ?_, fun u => ?_⟩
  · exact bump_fld _ _ _ _ _ _ _ _ hw rfl hr
  all_goals unfold Tx.bump; rw [Tx.setFld_now _ _ _ _ _ hw]; simp

/-- An engine instruction of one step whose sources and destinations lie in the scratchpad. -/
theorem issueEngine_step (i unit op : Nat) (side : Side) (w : NInstr) (plan : Tx s → Plan s) (upd : Tx s → Tx s) (e : EStep s)
    (mont : Bool) (pre note : Tx s → Tx s) (x1 : Tile) (h : s.readyTile i unit side w = true) (hu : 2 ≤ unit)
    (hp : plan (begin s) = .run upd [e] mont) (hwf : Memory.wf s.mem = true)
    (hpre : NotesOnly i pre)
    (hu1 : SameButTiles (upd ((begin s).putTiles i (issueTile (s.tilesAt i) side w))).now (pre (begin s)).now)
    (hu2 : ∀ j, (upd ((begin s).putTiles i (issueTile (s.tilesAt i) side w))).now.tilesAt j = if j = i then x1 else s.tilesAt j)
    (hr : ∀ r ∈ e.reads, r.1 = .spad r.1.off ∧ r.1.off % 64 = 0 ∧ r.1.off + 4 * r.2.1 ≤ s.spadEnd i ∧
      s.poisoned (opndAddr i r.1) (4 * r.2.1) = false ∧
      (r.2.2 ≠ 0 → nonCanonical r.2.2 (s.readWords (opndAddr i r.1) r.2.1) = false))
    (hw : ∀ r ∈ e.writes, r.1 = .spad r.1.off ∧ r.1.off % 64 = 0 ∧ r.1.off + 4 * r.2 ≤ s.spadEnd i)
    (hd : e.writes.Pairwise apart) (hdr : ∀ d ∈ e.writes, ∀ r ∈ e.reads, d = (r.1, r.2.1) ∨ apart d (r.1, r.2.1))
    (hn : NotesOnly i note) (hnote : e.note x1 (srcWords s i e) = note)
    (hmo : e.more = []) (hc : e.check x1 (srcWords s i e) = none) (hs : e.stop x1 (srcWords s i e) = none)
    (hlen : ∀ p ∈ e.writes.zip (e.compute x1 (srcWords s i e)).2, p.2.length = p.1.2) :
    ∃ t, done ((begin s).issueEngine i unit op side w plan) = .next t ∧
      (∀ p ∈ e.writes.zip (e.compute x1 (srcWords s i e)).2, t.readWords (opndAddr i p.1.1) p.1.2 = p.2.map (· % 2 ^ 32)) ∧
      (∀ b, (∀ r ∈ e.writes, b < opndAddr i r.1 ∨ opndAddr i r.1 + 4 * r.2 ≤ b) → memByte t.mem b = memByte s.mem b) ∧
      t.tilesAt i = Tile.settle
        (let y := tagTile (e.compute x1 (srcWords s i e)).1 e.tagBanks (e.reads.flatMap fun r => s.keyTags i r.1 r.2.1)
         { y with engines := y.engines ++ [y.flying unit op w [] []] }) ∧
      (∀ j, j ≠ i → t.tilesAt j = s.tilesAt j) ∧
      { t with mem := s.mem, poison := s.poison, landTag := s.landTag, tiles := s.tiles } =
        { (note ((pre (begin s)).when mont fun t => t.bump TILE.RESCNT.GENERIC 1 i)).now with tiles := s.tiles } := by
  have hq : ∀ q, queueWant [e] q = 0 := by
    intro q
    have : e.reads.filter (fun r => decide (r.1 = .queue q)) = [] := by
      rw [List.filter_eq_nil_iff]; intro r hr'
      rw [(hr r hr').1]; simp
    simp [queueWant, this]
  have hl : (begin s).stepsLegal i [e] = true := by
    refine stepsLegal_spad i _ ?_ ?_ ?_ (by simp) ?_ (by simp) <;> intro e' he <;> rw [List.mem_singleton] at he <;> subst he
    · intro r hr'; have := hr r hr'; exact ⟨this.1, this.2.1, this.2.2.1⟩
    · exact hw
    · exact hd
    · exact hdr
  refine ⟨_, congrArg done (issueEngine_run i unit op side w plan upd [e] mont h hu hp hl (by intro q _; rw [hq]; omega)), ?_⟩
  have hfil : (List.range 8).filter (fun q => decide (queueWant [e] q ≠ 0)) = [] := by
    rw [List.filter_eq_nil_iff]; intro q _; rw [hq]; simp
  have hout : (List.range 8).filter (namesQueue ([e].flatMap (·.writes))) = [] := by
    rw [List.filter_eq_nil_iff]; intro q _
    simp only [List.flatMap_cons, List.flatMap_nil, List.append_nil, namesQueue, Bool.not_eq_true, List.any_eq_false]
    intro r hr'
    rw [(hw r hr').1]; simp
  rw [hfil, hout]
  obtain ⟨u0, hu0⟩ : ∃ u0, u0 = upd ((begin s).putTiles i (issueTile (s.tilesAt i) side w)) := ⟨_, rfl⟩
  rw [← hu0] at hu1 hu2
  obtain ⟨t1, ht1⟩ : ∃ t1 : Tx s, t1 = (upd ((begin s).putTiles i (issueTile (s.tilesAt i) side w))).when mont
    fun t => t.bump TILE.RESCNT.GENERIC 1 i := ⟨_, rfl⟩
  rw [← ht1]
  rw [← hu0] at ht1
  have hg : NotesOnly i fun t : Tx s => t.when mont fun t => t.bump TILE.RESCNT.GENERIC 1 i :=
    (NotesOnly.bump i TILE.RESCNT.GENERIC 1 rfl (Fld.word_ne TILE.RUNSTAT.STATE TILE.RESCNT.GENERIC i 0 0 rfl (by decide))).when mont
  have b1 : SameButTiles t1.now ((pre (begin s)).when mont fun t => t.bump TILE.RESCNT.GENERIC 1 i).now := by
    rw [ht1]; exact hg.same _ _ hu1
  have b2 : ∀ j, t1.now.tilesAt j = if j = i then x1 else s.tilesAt j := fun j => by rw [ht1, hg.tiles, hu2]
  have b3 : t1.now.runState i = runRunning := by
    rw [ht1, hg.run]
    exact ((hu1.fld TILE.RUNSTAT.STATE i 0 rfl).trans (hpre.run (begin s))).trans
      (runState_lt s i side ((readyTile_iff ..).mp h).1)
  have m1 : t1.now.mem = s.mem ∧ t1.now.poison = s.poison ∧ t1.now.landTag = s.landTag := by
    rw [ht1, hg.mem, hg.poison, hg.tags]
    refine ⟨?_, ?_, ?_⟩
    · have := congrArg (fun x : State => x.mem) hu1; exact this.trans (hpre.mem (begin s))
    · have := congrArg (fun x : State => x.poison) hu1; exact this.trans (hpre.poison (begin s))
    · have := congrArg (fun x : State => x.landTag) hu1; exact this.trans (hpre.tags (begin s))
  have hopn : ∀ r ∈ e.reads, (t1.readOpnd i r.1 r.2.1).2.words = s.readWords (opndAddr i r.1) r.2.1 ∧
      (t1.readOpnd i r.1 r.2.1).2.bad = s.poisoned (opndAddr i r.1) (4 * r.2.1) ∧
      (t1.readOpnd i r.1 r.2.1).2.tags = s.keyTags i r.1 r.2.1 := by
    intro r hr'
    have e1 : t1.now.readWords = s.readWords := by funext a n; unfold State.readWords State.read; rw [m1.1]
    have e2 : t1.now.poisoned = s.poisoned := by funext a n; unfold State.poisoned State.firstPoison; rw [m1.2.1]
    have e4 : t1.landTagAt = s.landTagAt := by
      funext k; simp only [Tx.landTagAt_eq, State.landTagAt]; rw [m1.2.2]
    rw [(hr r hr').1]
    simp only [Tx.readOpnd, e1, e2, e4, opndAddr, Opnd.off, State.keyTags]
    exact ⟨trivial, trivial, trivial⟩
  have hplain : ∀ r ∈ e.reads, r.1.plain = true := fun r hr' => by rw [(hr r hr').1]; rfl
  have hread := readAll_plain t1 i e.reads hplain
  have hwords : (e.reads.map fun r => (t1.readOpnd i r.1 r.2.1).2).map (·.words) = srcWords s i e := by
    rw [List.map_map]
    exact List.map_congr_left fun r hr' => (hopn r hr').1
  have hnc : ((e.reads.zip (e.reads.map fun r => (t1.readOpnd i r.1 r.2.1).2)).any fun p =>
      decide (p.1.2.2 ≠ 0) && nonCanonical p.1.2.2 p.2.words) = false := by
    rw [List.any_eq_false]
    intro p hp
    rw [List.zip_map_right, List.mem_map] at hp
    obtain ⟨q, hq', rfl⟩ := hp
    have hm : q.1 ∈ e.reads := (List.of_mem_zip hq').1
    have heq : q.2 = q.1 := by
      obtain ⟨k, hk, hk'⟩ := List.getElem_of_mem hq'
      rw [List.getElem_zip] at hk'; rw [← hk']
    simp only [Prod.map, id, heq, Bool.and_eq_true, decide_eq_true_eq, not_and, Bool.not_eq_true]
    intro h0
    rw [(hopn _ hm).1]
    exact (hr _ hm).2.2.2.2 h0
  have hfind : (e.reads.map fun r => (t1.readOpnd i r.1 r.2.1).2).find? (·.bad) = none := by
    rw [List.find?_eq_none]
    intro x hx
    obtain ⟨r, hr', rfl⟩ := List.mem_map.mp hx
    simp [(hopn r hr').2.1, (hr _ hr').2.2.2.1]
  obtain ⟨c, hcd⟩ : ∃ c, c = e.compute x1 (srcWords s i e) := ⟨_, rfl⟩
  obtain ⟨y, hy⟩ : ∃ y, y = tagTile c.1 e.tagBanks (e.reads.flatMap fun r => s.keyTags i r.1 r.2.1) := ⟨_, rfl⟩
  obtain ⟨t2, ht2⟩ : ∃ t2 : Tx s, t2 = (note t1).putTiles i y := ⟨_, rfl⟩
  obtain ⟨t3, ht3⟩ : ∃ t3 : Tx s, t3 = t2.writeAll i (e.writes.zip c.2) := ⟨_, rfl⟩
  have x1eq : t1.now.tilesAt i = x1 := by rw [b2, if_pos rfl]
  have htags : (e.reads.map fun r => (t1.readOpnd i r.1 r.2.1).2).flatMap (·.tags) =
      e.reads.flatMap fun r => s.keyTags i r.1 r.2.1 := by
    rw [List.flatMap_map]
    exact List.flatMap_congr fun r hr' => (hopn r hr').2.2
  have hrun : t1.runSteps i unit false [e] = t3 := by
    conv_lhs => unfold Tx.runSteps
    simp only [hread, hnc, hfind, hmo, List.any_nil, Bool.or_false, Bool.false_and, Bool.false_eq_true, if_false, hwords, Tx.tilesAt_eq, x1eq, hnote, hc, ← hcd, hs, htags,
      Tx.runSteps]
    rw [ht3, ht2, hy]
  rw [hrun, ← hcd, ← hy]
  rw [← hcd] at hlen
  have m2 : t2.now.mem = s.mem ∧ t2.now.poison = s.poison ∧ t2.now.landTag = s.landTag := by
    rw [ht2]; simp only [Tx.putTiles_now, Act.apply_mem, Act.apply_poison, Act.apply_landTag]
    rw [hn.mem, hn.poison, hn.tags]; exact m1
  obtain ⟨a1, a2, a3, a4, a5⟩ := writeAll_spad t2 i (e.writes.zip c.2) (by rw [m2.1]; exact hwf)
    (fun p hp => ⟨_, (hw _ (List.of_mem_zip hp).1).1⟩) hlen
  rw [← ht3] at a1 a2 a3 a4 a5
  have hst : ¬ t3.now.runState i = runStopped := by
    have : t3.now.runState i = runRunning := by
      unfold State.runState
      rw [State.fld_eq _ _ _ _ rfl, a1.regsAt, ← State.fld_eq _ _ _ _ rfl, ht2]
      have e5 : ((note t1).putTiles i y).now.fld TILE.RUNSTAT.STATE i = (note t1).now.fld TILE.RUNSTAT.STATE i := by
        rw [State.fld_eq _ _ _ _ rfl, State.fld_eq _ _ _ _ rfl]; simp
      rw [e5]
      exact (hn.run t1).trans b3
    rw [this]; decide
  simp only [if_neg hst]
  refine ⟨?_, ?_, ?_, ?_, ?_⟩
  · intro p hp
    have := a5 (pairwise_zip _ _ hd) p hp
    rw [← this]; simp only [Tx.modTiles_now]; unfold State.readWords State.read; simp
  · intro b hb
    simp only [Tx.modTiles_now, Act.apply_mem]
    rw [a4 b fun p hp => hb _ (List.of_mem_zip hp).1, m2.1]
  · simp only [Tx.modTiles_now, Act.apply_tilesAt, if_true]
    rw [a1.tilesAt, ht2]; simp
  · intro j hj
    simp only [Tx.modTiles_now, Act.apply_tilesAt, hj, if_false]
    rw [a1.tilesAt, ht2]
    simp only [Tx.putTiles_now, Act.apply_tilesAt, hj, if_false]
    rw [hn.tiles, b2, if_neg hj]
  · simp only [Tx.modTiles_now]
    obtain ⟨g, hgd⟩ : ∃ g : Tx s, g = (pre (begin s)).when mont fun t => t.bump TILE.RESCNT.GENERIC 1 i := ⟨_, rfl⟩
    have e1 := congrArg (fun x : State => { x with mem := s.mem, poison := s.poison, landTag := s.landTag, tiles := s.tiles }) a1
    have k1 : SameButTiles t2.now (note g).now := by
      rw [ht2]; simp only [Tx.putTiles_now]
      exact ((SameButTiles.refl _).tiles _ _).trans (hn.same _ _ (hgd ▸ b1))
    have e2 := congrArg (fun x : State => { x with mem := s.mem, poison := s.poison, landTag := s.landTag, tiles := s.tiles }) k1
    have m3 : (note g).now.mem = s.mem ∧ (note g).now.poison = s.poison ∧ (note g).now.landTag = s.landTag := by
      rw [hn.mem, hn.poison, hn.tags, hgd, hg.mem, hg.poison, hg.tags, hpre.mem, hpre.poison, hpre.tags]; exact ⟨rfl, rfl, rfl⟩
    have e4 : ({ (note g).now with mem := s.mem, poison := s.poison, landTag := s.landTag, tiles := s.tiles } : State) =
        { (note g).now with tiles := s.tiles } := by
      rw [← m3.1, ← m3.2.1, ← m3.2.2]
    rw [← hgd]
    exact (e1.trans e2).trans e4

end Sys2Proof.Machine
end

