-- ==== Sys2Proof/WellFormed.lean ====
section
/-!
DEFINITION. Well-formed commands: operands within the widths the spec gives them. Most operands have a type of their
width; what is checked here is the rest.
-/

namespace Sys2Proof

open Sys2Proof.Machine

/-- Is the command well-formed: every operand within its width or range? -/
def Instr.wellFormed (i : Instr) : Bool :=
  match i with
  | .por _ _ => true
  | .warmRstN => true
  | .swrst _ _ => true
  | .perstN => true
  | .vaonBrownout _ _ => true
  | .aonclkLoss => true
  | .aonclkRestore => true
  | .patchVerify => true
  | .memTrainingDone _ _ _ => true
  | .readyDeclare => true
  | .configRequest _ _ => true
  | .doeRequest _ => true
  | .epochBoundary _ => true
  | .railRampDone _ _ => true
  | .syncInPulse _ => true
  | .syncMiss => true
  | .epochCtlWrite _ _ _ _ => true
  | .epochCountloRead _ _ => true
  | .esetSend _ _ => true
  | .doorbellSqtail _ _ _ => true
  | .doorbellCqhead _ _ _ => true
  | .workRecordFetch _ _ => true
  | .recordAdmit _ => true
  | .tileRecordDone _ => true
  | .cqeWrite _ => true
  | .interruptTimer _ => true
  | .enable _ _ => true
  | .suspend _ _ => true
  | .queueResume _ _ => true
  | .release _ _ => true
  | .releaseAbort _ _ => true
  | .drain _ _ => true
  | .disable _ _ => true
  | .writeCtx _ _ => true
  | .readCtx _ _ => true
  | .sessionNonce _ => true
  | .sessionOpen _ _ => true
  | .sessionBind _ => true
  | .sessionUnbind _ => true
  | .sessionClose _ => true
  | .sessionQuery _ => true
  | .sessionExpire _ => true
  | .sessionFree _ => true
  | .flr _ => true
  | .fnqWrite _ _ _ _ => true
  | .bar4mapWrite _ _ _ _ => true
  | .hwmapWrite _ _ _ => true
  | .bar4Read _ _ _ => true
  | .bar4Write _ _ _ _ => true
  | .bar4Atomicop _ _ _ _ _ => true
  | .hostReadTimeout _ => true
  | .hdmCommit _ _ => true
  | .cxlMemRequest _ _ => true
  | .identifyMemoryDevice => true
  | .getPartitionInfo => true
  | .getSupportedLogs => true
  | .getLog _ => true
  | .getHealthInfo => true
  | .hostLinkWake => true
  | .hello _ => true
  | .ident _ => true
  | .primeLoad _ => true
  | .primeClear _ => true
  | .psetLoad _ => true
  | .psetRemove _ => true
  | .ksetLoad _ => true
  | .ksetRemove _ => true
  | .graphLoad _ _ => true
  | .graphUnload _ => true
  | .memRepair _ => true
  | .patchStage _ => true
  | .patchStatus _ => true
  | .setEndpointId _ => true
  | .getEndpointId => true
  | .getMctpVersionSupport _ => true
  | .getMessageTypeSupport => true
  | .pldmRequest _ => true
  | .getVersion _ _ => true
  | .getCapabilities _ _ => true
  | .negotiateAlgorithms _ _ => true
  | .getDigests _ _ => true
  | .getCertificate _ _ => true
  | .challenge _ _ => true
  | .getMeasurements _ _ => true
  | .coreRequest _ _ _ => true
  | .coreReply _ _ => true
  | .coreControl _ _ _ => true
  | .coreRequestTimeout _ _ => true
  | .coreWatchdog _ => true
  | .fence _ => true
  | .ntt _ _ _ => true
  | .intt _ _ _ => true
  | .aut _ _ _ => true
  | .mul _ _ _ => true
  | .mulc _ _ _ => true
  | .mac _ _ _ => true
  | .mac2 _ _ _ => true
  | .accrd _ _ _ => true
  | .accclr _ _ _ => true
  | .tens _ _ _ => true
  | .bconv _ _ _ => true
  | .lift _ _ _ => true
  | .resc _ _ _ => true
  | .denc _ _ _ => true
  | .dmac _ _ _ => true
  | .drd _ _ _ => true
  | .dimm _ _ _ => true
  | .dird _ _ _ => true
  | .pclAdd _ _ _ => true
  | .pclSub _ _ _ => true
  | .pclMul _ _ _ => true
  | .mulh _ _ _ => true
  | .sadd _ _ _ => true
  | .ssub _ _ _ => true
  | .saddu _ _ _ => true
  | .ssubu _ _ _ => true
  | .pclMin _ _ _ => true
  | .pclMax _ _ _ => true
  | .pclAnd _ _ _ => true
  | .pclOr _ _ _ => true
  | .pclXor _ _ _ => true
  | .pclNot _ _ _ => true
  | .shl _ _ _ => true
  | .shr _ _ _ => true
  | .sar _ _ _ => true
  | .cmp _ _ _ => true
  | .sel _ _ _ => true
  | .pclModAdd _ _ _ => true
  | .pclModSub _ _ _ => true
  | .pclModNeg _ _ _ => true
  | .pclModMul _ _ _ => true
  | .pclModMulc _ _ _ => true
  | .pclModLift _ _ _ => true
  | .fromint _ _ _ => true
  | .fadd _ _ _ => true
  | .fsub _ _ _ => true
  | .fmul _ _ _ => true
  | .fma _ _ _ => true
  | .fmin _ _ _ => true
  | .fmax _ _ _ => true
  | .fcmp _ _ _ => true
  | .cvt _ _ _ => true
  | .fenc _ _ _ => true
  | .fdec _ _ _ => true
  | .fdec2 _ _ _ => true
  | .trn _ _ _ => true
  | .trnp _ _ _ => true
  | .cadd _ _ _ => true
  | .csub _ _ _ => true
  | .padd _ _ _ => true
  | .ldrop _ _ _ => true
  | .slotenc _ _ _ => true
  | .slotdec _ _ _ => true
  | .pld _ _ _ => true
  | .pst _ _ _ => true
  | .extract _ _ _ => true
  | .lweKs _ _ _ => true
  | .modsw _ _ _ => true
  | .blindrot _ _ _ => true
  | .repack _ _ _ => true
  | .move _ _ _ => true
  | .moveo _ _ _ => true
  | .sprog _ _ _ => true
  | .kstream _ _ _ => true
  | .wstream _ _ _ => true
  | .ocld _ _ _ => true
  | .ocst _ _ _ => true
  | .nop _ _ w => w.code = 0 || !opNamed w.code.toNat
  | .epw _ _ _ => true
  | .flagclr _ _ _ => true
  | .ctrset _ _ _ => true
  | .qopen _ _ _ => true
  | .qclose _ _ _ => true
  | .chcfg _ _ _ => true
  | .endStream _ _ _ => true
  | .instrResultVisible _ _ => true
  | .transferSignal _ _ _ => true
  | .underrunResume _ _ => true
  | .overrunResume _ _ => true
  | .messageAdmit _ _ => true
  | .keyLimbDeliver _ => true
  | .weightBlockDeliver _ _ => true
  | .noiseLimbLanded _ => true
  | .descriptorLoadArrive _ _ _ => true
  | .streamLoadTile _ _ _ => true
  | .streamStoreTile _ _ => true
  | .streamContrib _ _ => true
  | .streamRread _ _ => true
  | .streamBload _ _ _ => true
  | .streamBstore _ _ => true
  | .preempt _ _ => true
  | .contextSaved _ => true
  | .tileResume _ _ => true
  | .contextRestored _ => true
  | .halt _ _ => true
  | .haltRelease _ _ => true
  | .deadlockDetect _ => true
  | .spadNocAccess _ _ _ _ _ => true
  | .fetchAdd _ _ _ _ _ => true
  | .swap _ _ _ _ _ => true
  | .cas _ _ _ _ _ _ => true
  | .fetchMadd _ _ _ _ _ _ => true
  | .starvationGuard _ => true
  | .sptestUnit _ _ => true
  | .spadSizeWrite _ _ _ => true
  | .sptestWrite _ _ _ _ => true
  | .kcFlush _ _ => true
  | .kcSizeWrite _ _ _ => true
  | .scInv _ _ => true
  | .scRedWrite _ _ _ => true
  | .memLineServe _ _ _ _ _ => true
  | .regulatorWrite _ _ _ => true
  | .calibration _ => true
  | .thermalRetrain _ _ => true
  | .patrolPass _ _ => true
  | .halfctlWrite _ _ => true
  | .lendWrite _ _ _ => true
  | .lendFillDone => true
  | .t1500ShiftIr _ _ _ => true
  | .t1500ShiftDr _ _ _ => true
  | .t1500dataWrite _ _ _ _ => true
  | .linkTrained _ _ _ _ => true
  | .linkDown _ => true
  | .flitReceive _ _ _ => true
  | .replayTimeout _ => true
  | .packetTransmit _ => true
  | .packetForward _ _ _ => true
  | .plpWr _ _ => true
  | .plpRd _ _ => true
  | .plpAtom _ _ _ => true
  | .plpContrib _ _ => true
  | .plpRrd _ _ => true
  | .plpAccept _ _ => true
  | .plpDone _ _ => true
  | .plpFail _ _ => true
  | .plpNak _ _ => true
  | .plpRdata _ _ => true
  | .plpAtomr _ _ => true
  | .epochSet _ _ _ => true
  | .quar _ _ => true
  | .nakResend _ _ => true
  | .peerWriteTimeout _ => true
  | .linkRelease _ _ => true
  | .linkRetrain _ _ => true
  | .routerCtlWrite _ _ _ _ => true
  | .routeEntryWrite _ _ _ => true
  | .pwinWrite _ _ _ => true
  | .bondWrite _ _ _ => true
  | .bondChange _ => true
  | .lqbaseWrite _ _ => true
  | .domCreate _ => true
  | .regCreate _ => true
  | .regRelease _ => true
  | .domImport _ => true
  | .domDestroy _ => true
  | .regionFillDone _ => true
  | .hashGo _ _ _ _ _ _ _ => true
  | .hashAbort _ _ => true
  | .hashJobDone _ => true
  | .hashLanePreempt _ => true
  | .verify _ _ _ _ => true
  | .ecdh _ _ _ => true
  | .pubcheck _ _ _ => true
  | .sign _ _ _ _ => true
  | .keygen _ _ _ => true
  | .curveLoad _ _ _ => true
  | .sergeYield => true
  | .sergeJobDone => true
  | .jtagInstruction _ => true
  | .dvfsRequest _ _ _ => true
  | .pwrReqActive _ _ => true
  | .pwrReqIdle _ _ => true
  | .pwrReqDoze _ _ => true
  | .pwrReqSlumber _ _ => true
  | .powerTransitionDone _ _ => true
  | .clusterIdleEntry _ => true
  | .clusterUngate _ => true
  | .dozeTimeout _ => true
  | .capGroupEnd => true
  | .capWrite _ _ _ => true
  | .pwrBrakeAssert => true
  | .pwrBrakeRelease => true
  | .thermalTrip => true
  | .gloamingScan readings => readings.length = 96
  | .glmEventWrite _ _ => true
  | .mgmtAddressMatch => true
  | .fatalFault _ => true
  | .errCntRead _ _ => true
  | .errLogRead _ _ _ _ => true
  | .lbist _ _ => true
  | .kat _ _ => true
  | .patrol _ _ => true
  | .margin _ _ => true
  | .sensor _ _ => true
  | .selftestDone _ _ => true
  | .lifelogPeriodic => true
  | .lifelogWriteDone => true
  | .histogramSample _ => true
  | .lifeReq _ => true
  | .lifeSnap _ _ => true
  | .lifeSnapTimeout => true
  | .lifeDataRead _ => true
  | .cecfgWrite _ _ _ => true
  | .blkEnWrite _ _ _ => true
  | .srst _ _ => true
  | .blkTestWrite _ _ _ => true
  | .irqSetWrite _ _ _ => true
  | .registerWrite _ _ _ _ => true
  | .powerRemoval => true
  | .sysrefArrival => true
  | .vrAlertN => true
  | .dynamicAddressAssignment _ => true
  | .smbusClockLowTimeout => true

end Sys2Proof
end

