-- ==== Sys2Proof/Laws/PerInstr.lean ====
section
/-!
SUPPORT. What holds of every command as syntax, row by row of spec/opcode_table.json: a command is well-formed unless it is a
Gloaming scan (R465) with another number of readings than the module's 96 sensors, or a NOP whose code names another operation (R211).
-/

namespace Sys2Proof.Laws.Rows

open Sys2Proof.Machine

/-- Only a Gloaming scan can be ill-formed, by its number of readings, and a NOP, by its code. -/
def Statement (i : Instr) : Prop :=
  i.wellFormed = true ∨ (∃ readings, i = .gloamingScan readings ∧ readings.length ≠ 96) ∨
    ∃ tile side w, i = .nop tile side w ∧ w.code ≠ 0 ∧ opNamed w.code.toNat = true

theorem por (straps : BitVec 7) (sysref : Bool) : Statement (.por straps sysref) := .inl rfl
theorem warmRstN : Statement (.warmRstN) := .inl rfl
theorem swrst (o : RegFrom) (key : BitVec 16) : Statement (.swrst o key) := .inl rfl
theorem perstN : Statement (.perstN) := .inl rfl
theorem vaonBrownout (straps : BitVec 7) (sysref : Bool) : Statement (.vaonBrownout straps sysref) := .inl rfl
theorem aonclkLoss : Statement (.aonclkLoss) := .inl rfl
theorem aonclkRestore : Statement (.aonclkRestore) := .inl rfl
theorem patchVerify : Statement (.patchVerify) := .inl rfl
theorem memTrainingDone (m : Fin 28) (outcome : Fin 3) (cap : BitVec 8) : Statement (.memTrainingDone m outcome cap) := .inl rfl
theorem readyDeclare : Statement (.readyDeclare) := .inl rfl
theorem configRequest (f : Fin 64) (op : CfgOp) : Statement (.configRequest f op) := .inl rfl
theorem doeRequest (q : DoeReq) : Statement (.doeRequest q) := .inl rfl
theorem epochBoundary (power : BitVec 16) : Statement (.epochBoundary power) := .inl rfl
theorem railRampDone (half : Fin 2) (op : Fin 6) : Statement (.railRampDone half op) := .inl rfl
theorem syncInPulse (at_ : Int) : Statement (.syncInPulse at_) := .inl rfl
theorem syncMiss : Statement (.syncMiss) := .inl rfl
theorem epochCtlWrite (o : RegFrom) (len : BitVec 17) (role : BitVec 2) (det : Bool) : Statement (.epochCtlWrite o len role det) := .inl rfl
theorem epochCountloRead (o : RegFrom) (fn : Option (Fin 64)) : Statement (.epochCountloRead o fn) := .inl rfl
theorem esetSend (o : RegFrom) (past : Bool) : Statement (.esetSend o past) := .inl rfl
theorem doorbellSqtail (f : Fin 64) (slot : BitVec 18) (v : BitVec 16) : Statement (.doorbellSqtail f slot v) := .inl rfl
theorem doorbellCqhead (f : Fin 64) (slot : BitVec 18) (v : BitVec 16) : Statement (.doorbellCqhead f slot v) := .inl rfl
theorem workRecordFetch (q : BitVec 18) (ans : HostAnswer) : Statement (.workRecordFetch q ans) := .inl rfl
theorem recordAdmit (ans : HostAnswer) : Statement (.recordAdmit ans) := .inl rfl
theorem tileRecordDone (i : Fin 64) : Statement (.tileRecordDone i) := .inl rfl
theorem cqeWrite (r : Nat) : Statement (.cqeWrite r) := .inl rfl
theorem interruptTimer (q : BitVec 18) : Statement (.interruptTimer q) := .inl rfl
theorem enable (o : RegFrom) (f : Fin 64) : Statement (.enable o f) := .inl rfl
theorem suspend (o : RegFrom) (f : Fin 64) : Statement (.suspend o f) := .inl rfl
theorem queueResume (o : RegFrom) (f : Fin 64) : Statement (.queueResume o f) := .inl rfl
theorem release (o : RegFrom) (f : Fin 64) : Statement (.release o f) := .inl rfl
theorem releaseAbort (o : RegFrom) (f : Fin 64) : Statement (.releaseAbort o f) := .inl rfl
theorem drain (o : RegFrom) (f : Fin 64) : Statement (.drain o f) := .inl rfl
theorem disable (o : RegFrom) (f : Fin 64) : Statement (.disable o f) := .inl rfl
theorem writeCtx (o : RegFrom) (f : Fin 64) : Statement (.writeCtx o f) := .inl rfl
theorem readCtx (o : RegFrom) (f : Fin 64) : Statement (.readCtx o f) := .inl rfl
theorem sessionNonce (r : Nat) : Statement (.sessionNonce r) := .inl rfl
theorem sessionOpen (r : Nat) (ans : HostAnswer) : Statement (.sessionOpen r ans) := .inl rfl
theorem sessionBind (r : Nat) : Statement (.sessionBind r) := .inl rfl
theorem sessionUnbind (r : Nat) : Statement (.sessionUnbind r) := .inl rfl
theorem sessionClose (r : Nat) : Statement (.sessionClose r) := .inl rfl
theorem sessionQuery (r : Nat) : Statement (.sessionQuery r) := .inl rfl
theorem sessionExpire (sid : BitVec 16) : Statement (.sessionExpire sid) := .inl rfl
theorem sessionFree (sid : BitVec 16) : Statement (.sessionFree sid) := .inl rfl
theorem flr (f : Fin 64) : Statement (.flr f) := .inl rfl
theorem fnqWrite (o : RegFrom) (f : Fin 64) (base : BitVec 18) (count : BitVec 19) : Statement (.fnqWrite o f base count) := .inl rfl
theorem bar4mapWrite (o : RegFrom) (f seg : Fin 64) (v : BitVec 128) : Statement (.bar4mapWrite o f seg v) := .inl rfl
theorem hwmapWrite (o : RegFrom) (k : Fin 256) (v : BitVec 128) : Statement (.hwmapWrite o k v) := .inl rfl
theorem bar4Read (f : Fin 64) (off : BitVec 40) (n : Nat) : Statement (.bar4Read f off n) := .inl rfl
theorem bar4Write (f : Fin 64) (off : BitVec 40) (bs : List Byte) (how : HostWrite) : Statement (.bar4Write f off bs how) := .inl rfl
theorem bar4Atomicop (f : Fin 64) (off : BitVec 40) (n : Nat) (op : PcieAtom) (restarts : Nat) : Statement (.bar4Atomicop f off n op restarts) := .inl rfl
theorem hostReadTimeout (w : HostReadOf) : Statement (.hostReadTimeout w) := .inl rfl
theorem hdmCommit (base size : BitVec 64) : Statement (.hdmCommit base size) := .inl rfl
theorem cxlMemRequest (h : BitVec 64) (op : MemOp) : Statement (.cxlMemRequest h op) := .inl rfl
theorem identifyMemoryDevice : Statement (.identifyMemoryDevice) := .inl rfl
theorem getPartitionInfo : Statement (.getPartitionInfo) := .inl rfl
theorem getSupportedLogs : Statement (.getSupportedLogs) := .inl rfl
theorem getLog (arg : List Byte) : Statement (.getLog arg) := .inl rfl
theorem getHealthInfo : Statement (.getHealthInfo) := .inl rfl
theorem hostLinkWake : Statement (.hostLinkWake) := .inl rfl
theorem hello (o : MboxFrom) : Statement (.hello o) := .inl rfl
theorem ident (o : MboxFrom) : Statement (.ident o) := .inl rfl
theorem primeLoad (o : MboxFrom) : Statement (.primeLoad o) := .inl rfl
theorem primeClear (o : MboxFrom) : Statement (.primeClear o) := .inl rfl
theorem psetLoad (o : MboxFrom) : Statement (.psetLoad o) := .inl rfl
theorem psetRemove (o : MboxFrom) : Statement (.psetRemove o) := .inl rfl
theorem ksetLoad (o : MboxFrom) : Statement (.ksetLoad o) := .inl rfl
theorem ksetRemove (o : MboxFrom) : Statement (.ksetRemove o) := .inl rfl
theorem graphLoad (o : MboxFrom) (x : Translation) : Statement (.graphLoad o x) := .inl rfl
theorem graphUnload (o : MboxFrom) : Statement (.graphUnload o) := .inl rfl
theorem memRepair (o : MboxFrom) : Statement (.memRepair o) := .inl rfl
theorem patchStage (o : MboxFrom) : Statement (.patchStage o) := .inl rfl
theorem patchStatus (o : MboxFrom) : Statement (.patchStatus o) := .inl rfl
theorem setEndpointId (eid : BitVec 8) : Statement (.setEndpointId eid) := .inl rfl
theorem getEndpointId : Statement (.getEndpointId) := .inl rfl
theorem getMctpVersionSupport (ty : BitVec 8) : Statement (.getMctpVersionSupport ty) := .inl rfl
theorem getMessageTypeSupport : Statement (.getMessageTypeSupport) := .inl rfl
theorem pldmRequest (r : PldmReq) : Statement (.pldmRequest r) := .inl rfl
theorem getVersion (o : SpdmFrom) (r : SpdmReq) : Statement (.getVersion o r) := .inl rfl
theorem getCapabilities (o : SpdmFrom) (r : SpdmReq) : Statement (.getCapabilities o r) := .inl rfl
theorem negotiateAlgorithms (o : SpdmFrom) (r : SpdmReq) : Statement (.negotiateAlgorithms o r) := .inl rfl
theorem getDigests (o : SpdmFrom) (r : SpdmReq) : Statement (.getDigests o r) := .inl rfl
theorem getCertificate (o : SpdmFrom) (r : SpdmReq) : Statement (.getCertificate o r) := .inl rfl
theorem challenge (o : SpdmFrom) (r : SpdmReq) : Statement (.challenge o r) := .inl rfl
theorem getMeasurements (o : SpdmFrom) (r : SpdmReq) : Statement (.getMeasurements o r) := .inl rfl
theorem coreRequest (sender target : Fin 11) (seq : BitVec 32) : Statement (.coreRequest sender target seq) := .inl rfl
theorem coreReply (core : Fin 11) (st : Status) : Statement (.coreReply core st) := .inl rfl
theorem coreControl (sender : Fin 11) (mask : BitVec 16) (acks : List Status) : Statement (.coreControl sender mask acks) := .inl rfl
theorem coreRequestTimeout (core : Fin 11) (n : Nat) : Statement (.coreRequestTimeout core n) := .inl rfl
theorem coreWatchdog (core : Fin 11) : Statement (.coreWatchdog core) := .inl rfl
theorem fence (k : Fin 11) : Statement (.fence k) := .inl rfl
theorem ntt (tile : Fin 64) (side : Side) (w : NInstr) : Statement (.ntt tile side w) := .inl rfl
theorem intt (tile : Fin 64) (side : Side) (w : NInstr) : Statement (.intt tile side w) := .inl rfl
theorem aut (tile : Fin 64) (side : Side) (w : NInstr) : Statement (.aut tile side w) := .inl rfl
theorem mul (tile : Fin 64) (side : Side) (w : NInstr) : Statement (.mul tile side w) := .inl rfl
theorem mulc (tile : Fin 64) (side : Side) (w : NInstr) : Statement (.mulc tile side w) := .inl rfl
theorem mac (tile : Fin 64) (side : Side) (w : NInstr) : Statement (.mac tile side w) := .inl rfl
theorem mac2 (tile : Fin 64) (side : Side) (w : NInstr) : Statement (.mac2 tile side w) := .inl rfl
theorem accrd (tile : Fin 64) (side : Side) (w : NInstr) : Statement (.accrd tile side w) := .inl rfl
theorem accclr (tile : Fin 64) (side : Side) (w : NInstr) : Statement (.accclr tile side w) := .inl rfl
theorem tens (tile : Fin 64) (side : Side) (w : NInstr) : Statement (.tens tile side w) := .inl rfl
theorem bconv (tile : Fin 64) (side : Side) (w : NInstr) : Statement (.bconv tile side w) := .inl rfl
theorem lift (tile : Fin 64) (side : Side) (w : NInstr) : Statement (.lift tile side w) := .inl rfl
theorem resc (tile : Fin 64) (side : Side) (w : NInstr) : Statement (.resc tile side w) := .inl rfl
theorem denc (tile : Fin 64) (side : Side) (w : NInstr) : Statement (.denc tile side w) := .inl rfl
theorem dmac (tile : Fin 64) (side : Side) (w : NInstr) : Statement (.dmac tile side w) := .inl rfl
theorem drd (tile : Fin 64) (side : Side) (w : NInstr) : Statement (.drd tile side w) := .inl rfl
theorem dimm (tile : Fin 64) (side : Side) (w : NInstr) : Statement (.dimm tile side w) := .inl rfl
theorem dird (tile : Fin 64) (side : Side) (w : NInstr) : Statement (.dird tile side w) := .inl rfl
theorem pclAdd (tile : Fin 64) (side : Side) (w : NInstr) : Statement (.pclAdd tile side w) := .inl rfl
theorem pclSub (tile : Fin 64) (side : Side) (w : NInstr) : Statement (.pclSub tile side w) := .inl rfl
theorem pclMul (tile : Fin 64) (side : Side) (w : NInstr) : Statement (.pclMul tile side w) := .inl rfl
theorem mulh (tile : Fin 64) (side : Side) (w : NInstr) : Statement (.mulh tile side w) := .inl rfl
theorem sadd (tile : Fin 64) (side : Side) (w : NInstr) : Statement (.sadd tile side w) := .inl rfl
theorem ssub (tile : Fin 64) (side : Side) (w : NInstr) : Statement (.ssub tile side w) := .inl rfl
theorem saddu (tile : Fin 64) (side : Side) (w : NInstr) : Statement (.saddu tile side w) := .inl rfl
theorem ssubu (tile : Fin 64) (side : Side) (w : NInstr) : Statement (.ssubu tile side w) := .inl rfl
theorem pclMin (tile : Fin 64) (side : Side) (w : NInstr) : Statement (.pclMin tile side w) := .inl rfl
theorem pclMax (tile : Fin 64) (side : Side) (w : NInstr) : Statement (.pclMax tile side w) := .inl rfl
theorem pclAnd (tile : Fin 64) (side : Side) (w : NInstr) : Statement (.pclAnd tile side w) := .inl rfl
theorem pclOr (tile : Fin 64) (side : Side) (w : NInstr) : Statement (.pclOr tile side w) := .inl rfl
theorem pclXor (tile : Fin 64) (side : Side) (w : NInstr) : Statement (.pclXor tile side w) := .inl rfl
theorem pclNot (tile : Fin 64) (side : Side) (w : NInstr) : Statement (.pclNot tile side w) := .inl rfl
theorem shl (tile : Fin 64) (side : Side) (w : NInstr) : Statement (.shl tile side w) := .inl rfl
theorem shr (tile : Fin 64) (side : Side) (w : NInstr) : Statement (.shr tile side w) := .inl rfl
theorem sar (tile : Fin 64) (side : Side) (w : NInstr) : Statement (.sar tile side w) := .inl rfl
theorem cmp (tile : Fin 64) (side : Side) (w : NInstr) : Statement (.cmp tile side w) := .inl rfl
theorem sel (tile : Fin 64) (side : Side) (w : NInstr) : Statement (.sel tile side w) := .inl rfl
theorem pclModAdd (tile : Fin 64) (side : Side) (w : NInstr) : Statement (.pclModAdd tile side w) := .inl rfl
theorem pclModSub (tile : Fin 64) (side : Side) (w : NInstr) : Statement (.pclModSub tile side w) := .inl rfl
theorem pclModNeg (tile : Fin 64) (side : Side) (w : NInstr) : Statement (.pclModNeg tile side w) := .inl rfl
theorem pclModMul (tile : Fin 64) (side : Side) (w : NInstr) : Statement (.pclModMul tile side w) := .inl rfl
theorem pclModMulc (tile : Fin 64) (side : Side) (w : NInstr) : Statement (.pclModMulc tile side w) := .inl rfl
theorem pclModLift (tile : Fin 64) (side : Side) (w : NInstr) : Statement (.pclModLift tile side w) := .inl rfl
theorem fromint (tile : Fin 64) (side : Side) (w : NInstr) : Statement (.fromint tile side w) := .inl rfl
theorem fadd (tile : Fin 64) (side : Side) (w : NInstr) : Statement (.fadd tile side w) := .inl rfl
theorem fsub (tile : Fin 64) (side : Side) (w : NInstr) : Statement (.fsub tile side w) := .inl rfl
theorem fmul (tile : Fin 64) (side : Side) (w : NInstr) : Statement (.fmul tile side w) := .inl rfl
theorem fma (tile : Fin 64) (side : Side) (w : NInstr) : Statement (.fma tile side w) := .inl rfl
theorem fmin (tile : Fin 64) (side : Side) (w : NInstr) : Statement (.fmin tile side w) := .inl rfl
theorem fmax (tile : Fin 64) (side : Side) (w : NInstr) : Statement (.fmax tile side w) := .inl rfl
theorem fcmp (tile : Fin 64) (side : Side) (w : NInstr) : Statement (.fcmp tile side w) := .inl rfl
theorem cvt (tile : Fin 64) (side : Side) (w : NInstr) : Statement (.cvt tile side w) := .inl rfl
theorem fenc (tile : Fin 64) (side : Side) (w : NInstr) : Statement (.fenc tile side w) := .inl rfl
theorem fdec (tile : Fin 64) (side : Side) (w : NInstr) : Statement (.fdec tile side w) := .inl rfl
theorem fdec2 (tile : Fin 64) (side : Side) (w : NInstr) : Statement (.fdec2 tile side w) := .inl rfl
theorem trn (tile : Fin 64) (side : Side) (w : NInstr) : Statement (.trn tile side w) := .inl rfl
theorem trnp (tile : Fin 64) (side : Side) (w : NInstr) : Statement (.trnp tile side w) := .inl rfl
theorem cadd (tile : Fin 64) (side : Side) (w : NInstr) : Statement (.cadd tile side w) := .inl rfl
theorem csub (tile : Fin 64) (side : Side) (w : NInstr) : Statement (.csub tile side w) := .inl rfl
theorem padd (tile : Fin 64) (side : Side) (w : NInstr) : Statement (.padd tile side w) := .inl rfl
theorem ldrop (tile : Fin 64) (side : Side) (w : NInstr) : Statement (.ldrop tile side w) := .inl rfl
theorem slotenc (tile : Fin 64) (side : Side) (w : NInstr) : Statement (.slotenc tile side w) := .inl rfl
theorem slotdec (tile : Fin 64) (side : Side) (w : NInstr) : Statement (.slotdec tile side w) := .inl rfl
theorem pld (tile : Fin 64) (side : Side) (w : NInstr) : Statement (.pld tile side w) := .inl rfl
theorem pst (tile : Fin 64) (side : Side) (w : NInstr) : Statement (.pst tile side w) := .inl rfl
theorem extract (tile : Fin 64) (side : Side) (w : NInstr) : Statement (.extract tile side w) := .inl rfl
theorem lweKs (tile : Fin 64) (side : Side) (w : NInstr) : Statement (.lweKs tile side w) := .inl rfl
theorem modsw (tile : Fin 64) (side : Side) (w : NInstr) : Statement (.modsw tile side w) := .inl rfl
theorem blindrot (tile : Fin 64) (side : Side) (w : NInstr) : Statement (.blindrot tile side w) := .inl rfl
theorem repack (tile : Fin 64) (side : Side) (w : NInstr) : Statement (.repack tile side w) := .inl rfl
theorem move (tile : Fin 64) (side : Side) (w : NInstr) : Statement (.move tile side w) := .inl rfl
theorem moveo (tile : Fin 64) (side : Side) (w : NInstr) : Statement (.moveo tile side w) := .inl rfl
theorem sprog (tile : Fin 64) (side : Side) (w : NInstr) : Statement (.sprog tile side w) := .inl rfl
theorem kstream (tile : Fin 64) (side : Side) (w : NInstr) : Statement (.kstream tile side w) := .inl rfl
theorem wstream (tile : Fin 64) (side : Side) (w : NInstr) : Statement (.wstream tile side w) := .inl rfl
theorem ocld (tile : Fin 64) (side : Side) (w : CacheCopy) : Statement (.ocld tile side w) := .inl rfl
theorem ocst (tile : Fin 64) (side : Side) (w : NInstr) : Statement (.ocst tile side w) := .inl rfl
theorem nop (tile : Fin 64) (side : Side) (w : CodedInstr) : Statement (.nop tile side w) := by
  by_cases h : (Instr.nop tile side w).wellFormed = true
  · exact .inl h
  · simp only [Instr.wellFormed, Bool.or_eq_true, decide_eq_true_eq, Bool.not_eq_true', not_or, Bool.not_eq_false] at h
    exact .inr (.inr ⟨_, _, _, rfl, h⟩)
theorem epw (tile : Fin 64) (side : Side) (w : NInstr) : Statement (.epw tile side w) := .inl rfl
theorem flagclr (tile : Fin 64) (side : Side) (w : NInstr) : Statement (.flagclr tile side w) := .inl rfl
theorem ctrset (tile : Fin 64) (side : Side) (w : NInstr) : Statement (.ctrset tile side w) := .inl rfl
theorem qopen (tile : Fin 64) (side : Side) (w : NInstr) : Statement (.qopen tile side w) := .inl rfl
theorem qclose (tile : Fin 64) (side : Side) (w : NInstr) : Statement (.qclose tile side w) := .inl rfl
theorem chcfg (tile : Fin 64) (side : Side) (w : NInstr) : Statement (.chcfg tile side w) := .inl rfl
theorem endStream (tile : Fin 64) (side : Side) (w : NInstr) : Statement (.endStream tile side w) := .inl rfl
theorem instrResultVisible (tile : Fin 64) (k : Nat) : Statement (.instrResultVisible tile k) := .inl rfl
theorem transferSignal (tile : Fin 64) (k : Nat) (ans : HostAnswer) : Statement (.transferSignal tile k ans) := .inl rfl
theorem underrunResume (tile : Fin 64) (unit : Fin 7) : Statement (.underrunResume tile unit) := .inl rfl
theorem overrunResume (tile : Fin 64) (q : Fin 8) : Statement (.overrunResume tile q) := .inl rfl
theorem messageAdmit (tile : Fin 64) (q : Fin 8) : Statement (.messageAdmit tile q) := .inl rfl
theorem keyLimbDeliver (tile : Fin 64) : Statement (.keyLimbDeliver tile) := .inl rfl
theorem weightBlockDeliver (tile : Fin 64) (k : Nat) : Statement (.weightBlockDeliver tile k) := .inl rfl
theorem noiseLimbLanded (cl : Fin 8) : Statement (.noiseLimbLanded cl) := .inl rfl
theorem descriptorLoadArrive (cl : Fin 8) (k : Nat) (ans : HostAnswer) : Statement (.descriptorLoadArrive cl k ans) := .inl rfl
theorem streamLoadTile (tile : Fin 64) (k : Fin 8) (ans : HostAnswer) : Statement (.streamLoadTile tile k ans) := .inl rfl
theorem streamStoreTile (tile : Fin 64) (k : Fin 8) : Statement (.streamStoreTile tile k) := .inl rfl
theorem streamContrib (tile : Fin 64) (k : Fin 8) : Statement (.streamContrib tile k) := .inl rfl
theorem streamRread (tile : Fin 64) (k : Fin 8) : Statement (.streamRread tile k) := .inl rfl
theorem streamBload (tile : Fin 64) (k : Fin 8) (ans : HostAnswer) : Statement (.streamBload tile k ans) := .inl rfl
theorem streamBstore (tile : Fin 64) (k : Fin 8) : Statement (.streamBstore tile k) := .inl rfl
theorem preempt (o : RegFrom) (tile : Fin 64) : Statement (.preempt o tile) := .inl rfl
theorem contextSaved (tile : Fin 64) : Statement (.contextSaved tile) := .inl rfl
theorem tileResume (o : RegFrom) (tile : Fin 64) : Statement (.tileResume o tile) := .inl rfl
theorem contextRestored (tile : Fin 64) : Statement (.contextRestored tile) := .inl rfl
theorem halt (o : RegFrom) (tile : Fin 64) : Statement (.halt o tile) := .inl rfl
theorem haltRelease (o : RegFrom) (tile : Fin 64) : Statement (.haltRelease o tile) := .inl rfl
theorem deadlockDetect (tile : Fin 64) : Statement (.deadlockDetect tile) := .inl rfl
theorem spadNocAccess (who : Who) (tile : Fin 64) (off : BitVec 25) (op : MemOp) (rivals : Rivals) : Statement (.spadNocAccess who tile off op rivals) := .inl rfl
theorem fetchAdd (who : Who) (at_ : AtomAt) (n : Nat) (v : BitVec 64) (restarts : Nat) : Statement (.fetchAdd who at_ n v restarts) := .inl rfl
theorem swap (who : Who) (at_ : AtomAt) (n : Nat) (v : BitVec 64) (restarts : Nat) : Statement (.swap who at_ n v restarts) := .inl rfl
theorem cas (who : Who) (at_ : AtomAt) (n : Nat) (v cmp : BitVec 64) (restarts : Nat) : Statement (.cas who at_ n v cmp restarts) := .inl rfl
theorem fetchMadd (who : Who) (at_ : AtomAt) (n : Nat) (v : BitVec 32) (slot : BitVec 7) (restarts : Nat) : Statement (.fetchMadd who at_ n v slot restarts) := .inl rfl
theorem starvationGuard (tile : Fin 64) : Statement (.starvationGuard tile) := .inl rfl
theorem sptestUnit (tile : Fin 64) (rows : List Nat) : Statement (.sptestUnit tile rows) := .inl rfl
theorem spadSizeWrite (o : RegFrom) (tile : Fin 64) (v : BitVec 7) : Statement (.spadSizeWrite o tile v) := .inl rfl
theorem sptestWrite (o : RegFrom) (tile : Fin 64) (period : BitVec 16) (en : Bool) : Statement (.sptestWrite o tile period en) := .inl rfl
theorem kcFlush (o : RegFrom) (cl : Fin 8) : Statement (.kcFlush o cl) := .inl rfl
theorem kcSizeWrite (o : RegFrom) (cl : Fin 8) (v : BitVec 4) : Statement (.kcSizeWrite o cl v) := .inl rfl
theorem scInv (o : RegFrom) (cl : Fin 8) : Statement (.scInv o cl) := .inl rfl
theorem scRedWrite (o : RegFrom) (cl : Fin 8) (v : BitVec 4) : Statement (.scRedWrite o cl v) := .inl rfl
theorem memLineServe (m : Fin 28) (r : LineReq) (n : Nat) (contended : Bool) (chk : LineCheck) : Statement (.memLineServe m r n contended chk) := .inl rfl
theorem regulatorWrite (o : RegFrom) (m : Option (Fin 28 × Fin 8)) (v : BitVec 32) : Statement (.regulatorWrite o m v) := .inl rfl
theorem calibration (m : Fin 28) : Statement (.calibration m) := .inl rfl
theorem thermalRetrain (m : Fin 12) (temp : BitVec 8) : Statement (.thermalRetrain m temp) := .inl rfl
theorem patrolPass (m : Fin 28) (found : List (Nat × LineCheck)) : Statement (.patrolPass m found) := .inl rfl
theorem halfctlWrite (o : RegFrom) (req : BitVec 4) : Statement (.halfctlWrite o req) := .inl rfl
theorem lendWrite (o : RegFrom) (base : BitVec 10) (size : BitVec 11) : Statement (.lendWrite o base size) := .inl rfl
theorem lendFillDone : Statement (.lendFillDone) := .inl rfl
theorem t1500ShiftIr (o : RegFrom) (m : Fin 12) (len : BitVec 16) : Statement (.t1500ShiftIr o m len) := .inl rfl
theorem t1500ShiftDr (o : RegFrom) (m : Fin 12) (len : BitVec 16) : Statement (.t1500ShiftDr o m len) := .inl rfl
theorem t1500dataWrite (o : RegFrom) (m : Fin 12) (v back : BitVec 32) : Statement (.t1500dataWrite o m v back) := .inl rfl
theorem linkTrained (l : Fin 24) (width : Fin 3) (partner : BitVec 16) (pready : Bool) : Statement (.linkTrained l width partner pready) := .inl rfl
theorem linkDown (l : Fin 24) : Statement (.linkDown l) := .inl rfl
theorem flitReceive (l : Fin 24) (f : Flit) (time : Nat) : Statement (.flitReceive l f time) := .inl rfl
theorem replayTimeout (l : Fin 24) : Statement (.replayTimeout l) := .inl rfl
theorem packetTransmit (k : Nat) : Statement (.packetTransmit k) := .inl rfl
theorem packetForward (l : Fin 24) (vc : Fin 4) (cls : Fin 2) : Statement (.packetForward l vc cls) := .inl rfl
theorem plpWr (l : Fin 25) (cls : Fin 2) : Statement (.plpWr l cls) := .inl rfl
theorem plpRd (l : Fin 25) (cls : Fin 2) : Statement (.plpRd l cls) := .inl rfl
theorem plpAtom (l : Fin 25) (cls : Fin 2) (restarts : Nat) : Statement (.plpAtom l cls restarts) := .inl rfl
theorem plpContrib (l : Fin 25) (cls : Fin 2) : Statement (.plpContrib l cls) := .inl rfl
theorem plpRrd (l : Fin 25) (cls : Fin 2) : Statement (.plpRrd l cls) := .inl rfl
theorem plpAccept (l : Fin 25) (cls : Fin 2) : Statement (.plpAccept l cls) := .inl rfl
theorem plpDone (l : Fin 25) (cls : Fin 2) : Statement (.plpDone l cls) := .inl rfl
theorem plpFail (l : Fin 25) (cls : Fin 2) : Statement (.plpFail l cls) := .inl rfl
theorem plpNak (l : Fin 25) (cls : Fin 2) : Statement (.plpNak l cls) := .inl rfl
theorem plpRdata (l : Fin 25) (cls : Fin 2) : Statement (.plpRdata l cls) := .inl rfl
theorem plpAtomr (l : Fin 25) (cls : Fin 2) : Statement (.plpAtomr l cls) := .inl rfl
theorem epochSet (l : Fin 25) (cls : Fin 2) (since : Nat) : Statement (.epochSet l cls since) := .inl rfl
theorem quar (l : Fin 25) (cls : Fin 2) : Statement (.quar l cls) := .inl rfl
theorem nakResend (tag : BitVec 16) (past : Bool) : Statement (.nakResend tag past) := .inl rfl
theorem peerWriteTimeout (tag : BitVec 16) : Statement (.peerWriteTimeout tag) := .inl rfl
theorem linkRelease (o : RegFrom) (l : Fin 24) : Statement (.linkRelease o l) := .inl rfl
theorem linkRetrain (o : RegFrom) (l : Fin 24) : Statement (.linkRetrain o l) := .inl rfl
theorem routerCtlWrite (o : RegFrom) (dev : BitVec 16) (ttl : BitVec 6) (ready : Bool) : Statement (.routerCtlWrite o dev ttl ready) := .inl rfl
theorem routeEntryWrite (o : RegFrom) (dev : BitVec 16) (v : BitVec 32) : Statement (.routeEntryWrite o dev v) := .inl rfl
theorem pwinWrite (o : RegFrom) (n : BitVec 8) (v : BitVec 128) : Statement (.pwinWrite o n v) := .inl rfl
theorem bondWrite (o : RegFrom) (g : Fin 12) (mask : BitVec 24) : Statement (.bondWrite o g mask) := .inl rfl
theorem bondChange (g : Fin 12) : Statement (.bondChange g) := .inl rfl
theorem lqbaseWrite (o : RegFrom) (v : BitVec 27) : Statement (.lqbaseWrite o v) := .inl rfl
theorem domCreate (o : RegFrom) : Statement (.domCreate o) := .inl rfl
theorem regCreate (o : RegFrom) : Statement (.regCreate o) := .inl rfl
theorem regRelease (o : RegFrom) : Statement (.regRelease o) := .inl rfl
theorem domImport (o : RegFrom) : Statement (.domImport o) := .inl rfl
theorem domDestroy (o : RegFrom) : Statement (.domDestroy o) := .inl rfl
theorem regionFillDone (r : Fin 64) : Statement (.regionFillDone r) := .inl rfl
theorem hashGo (o : RegFrom) (c : Fin 16) (alg : BitVec 2) (init final : Bool) (src : BitVec 64) (len : BitVec 40) : Statement (.hashGo o c alg init final src len) := .inl rfl
theorem hashAbort (o : RegFrom) (c : Fin 16) : Statement (.hashAbort o c) := .inl rfl
theorem hashJobDone (c : Fin 16) : Statement (.hashJobDone c) := .inl rfl
theorem hashLanePreempt (c : Fin 16) : Statement (.hashLanePreempt c) := .inl rfl
theorem verify (o : RegFrom) (slot : Fin 8) (curve : BitVec 4) (hlen : BitVec 8) : Statement (.verify o slot curve hlen) := .inl rfl
theorem ecdh (o : RegFrom) (slot : Fin 8) (curve : BitVec 4) : Statement (.ecdh o slot curve) := .inl rfl
theorem pubcheck (o : RegFrom) (slot : Fin 8) (curve : BitVec 4) : Statement (.pubcheck o slot curve) := .inl rfl
theorem sign (o : RegFrom) (slot : Fin 8) (curve : BitVec 4) (hlen : BitVec 8) : Statement (.sign o slot curve hlen) := .inl rfl
theorem keygen (o : RegFrom) (slot : Fin 8) (curve : BitVec 4) : Statement (.keygen o slot curve) := .inl rfl
theorem curveLoad (o : RegFrom) (slot : Fin 8) (curve : BitVec 4) : Statement (.curveLoad o slot curve) := .inl rfl
theorem sergeYield : Statement (.sergeYield) := .inl rfl
theorem sergeJobDone : Statement (.sergeJobDone) := .inl rfl
theorem jtagInstruction (i : JtagIr) : Statement (.jtagInstruction i) := .inl rfl
theorem dvfsRequest (o : RegFrom) (tile : Fin 64) (target : BitVec 3) : Statement (.dvfsRequest o tile target) := .inl rfl
theorem pwrReqActive (o : RegFrom) (mask : BitVec 8) : Statement (.pwrReqActive o mask) := .inl rfl
theorem pwrReqIdle (o : RegFrom) (mask : BitVec 8) : Statement (.pwrReqIdle o mask) := .inl rfl
theorem pwrReqDoze (o : RegFrom) (mask : BitVec 8) : Statement (.pwrReqDoze o mask) := .inl rfl
theorem pwrReqSlumber (o : RegFrom) (mask : BitVec 8) : Statement (.pwrReqSlumber o mask) := .inl rfl
theorem powerTransitionDone (cl : Option (Fin 8)) (fails : Bool) : Statement (.powerTransitionDone cl fails) := .inl rfl
theorem clusterIdleEntry (cl : Fin 8) : Statement (.clusterIdleEntry cl) := .inl rfl
theorem clusterUngate (cl : Fin 8) : Statement (.clusterUngate cl) := .inl rfl
theorem dozeTimeout (cl : Fin 8) : Statement (.dozeTimeout cl) := .inl rfl
theorem capGroupEnd : Statement (.capGroupEnd) := .inl rfl
theorem capWrite (o : RegFrom) (cap brakecap : BitVec 16) : Statement (.capWrite o cap brakecap) := .inl rfl
theorem pwrBrakeAssert : Statement (.pwrBrakeAssert) := .inl rfl
theorem pwrBrakeRelease : Statement (.pwrBrakeRelease) := .inl rfl
theorem thermalTrip : Statement (.thermalTrip) := .inl rfl
theorem gloamingScan (readings : List (BitVec 16)) : Statement (.gloamingScan readings) := by
  by_cases h : readings.length = 96
  · exact .inl (by simp [Instr.wellFormed, h])
  · exact .inr (.inl ⟨readings, rfl, h⟩)
theorem glmEventWrite (o : RegFrom) (ev : Bool) : Statement (.glmEventWrite o ev) := .inl rfl
theorem mgmtAddressMatch : Statement (.mgmtAddressMatch) := .inl rfl
theorem fatalFault (cause : Fin 5) : Statement (.fatalFault cause) := .inl rfl
theorem errCntRead (o : RegFrom) (at_ : PageWord) : Statement (.errCntRead o at_) := .inl rfl
theorem errLogRead (o : RegFrom) (page : BitVec 14) (w : Fin 8) (late : Bool) : Statement (.errLogRead o page w late) := .inl rfl
theorem lbist (o : RegFrom) (target : BitVec 24) : Statement (.lbist o target) := .inl rfl
theorem kat (o : RegFrom) (target : BitVec 24) : Statement (.kat o target) := .inl rfl
theorem patrol (o : RegFrom) (target : BitVec 24) : Statement (.patrol o target) := .inl rfl
theorem margin (o : RegFrom) (target : BitVec 24) : Statement (.margin o target) := .inl rfl
theorem sensor (o : RegFrom) (target : BitVec 24) : Statement (.sensor o target) := .inl rfl
theorem selftestDone (fail : BitVec 24) (margins : List Nat) : Statement (.selftestDone fail margins) := .inl rfl
theorem lifelogPeriodic : Statement (.lifelogPeriodic) := .inl rfl
theorem lifelogWriteDone : Statement (.lifelogWriteDone) := .inl rfl
theorem histogramSample (shares : List Nat) : Statement (.histogramSample shares) := .inl rfl
theorem lifeReq (o : RegFrom) : Statement (.lifeReq o) := .inl rfl
theorem lifeSnap (o : RegFrom) (on : Bool) : Statement (.lifeSnap o on) := .inl rfl
theorem lifeSnapTimeout : Statement (.lifeSnapTimeout) := .inl rfl
theorem lifeDataRead (o : RegFrom) : Statement (.lifeDataRead o) := .inl rfl
theorem cecfgWrite (o : RegFrom) (cethr : BitVec 8) (patrol : BitVec 16) : Statement (.cecfgWrite o cethr patrol) := .inl rfl
theorem blkEnWrite (o : RegFrom) (page : BitVec 14) (en : Bool) : Statement (.blkEnWrite o page en) := .inl rfl
theorem srst (o : RegFrom) (page : BitVec 14) : Statement (.srst o page) := .inl rfl
theorem blkTestWrite (o : RegFrom) (page : BitVec 14) (test : Bool) : Statement (.blkTestWrite o page test) := .inl rfl
theorem irqSetWrite (o : RegFrom) (page : BitVec 14) (v : BitVec 32) : Statement (.irqSetWrite o page v) := .inl rfl
theorem registerWrite (o : RegFrom) (a : BitVec 26) (n : BitVec 4) (v : BitVec 64) : Statement (.registerWrite o a n v) := .inl rfl
theorem powerRemoval : Statement (.powerRemoval) := .inl rfl
theorem sysrefArrival : Statement (.sysrefArrival) := .inl rfl
theorem vrAlertN : Statement (.vrAlertN) := .inl rfl
theorem dynamicAddressAssignment (a : BitVec 7) : Statement (.dynamicAddressAssignment a) := .inl rfl
theorem smbusClockLowTimeout : Statement (.smbusClockLowTimeout) := .inl rfl

end Sys2Proof.Laws.Rows
end

