-- ==== Sys2Proof/Laws/Step.lean ====
section
/-!
SUPPORT. Every command answers a next state, reached by primitive updates (`exec_reach`); so what every primitive update
keeps, every command keeps.
-/

namespace Sys2Proof.Machine

/-- Every command is an effect built from primitive updates. -/
theorem exec_done (c : Instr) (s : State) : ∃ t : Tx s, exec c s = done t := by
  cases c <;> (dsimp only [exec]; first | exact ⟨_, rfl⟩ | skip)
  all_goals
    simp only [execConfigRequest, execDoeRequest, execSyncInPulse, execSyncMiss, execBar4Read, execBar4Write,
      execBar4Atomicop, execFence, execInstrResultVisible, execMessageAdmit, execKeyLimbDeliver,
      execWeightBlockDeliver, execNoiseLimbLanded, execStreamStoreTile, execStreamContrib, execStreamRread,
      execStreamBstore, execContextSaved, execContextRestored, execDeadlockDetect, execSpadNocAccess,
      execSptestUnit, execMemLineServe, execCalibration, execThermalRetrain, execLendFillDone, execPacketTransmit,
      execPacketForward, execNakResend, execPeerWriteTimeout, execBondChange, execHashJobDone, execHashLanePreempt,
      execSergeYield, execSergeJobDone, execErrCntRead, execErrLogRead, execSelftestDone, execEpochCountloRead, execLifeDataRead, execNop, execUnderrunResume, execOverrunResume]
    repeat' split
    all_goals exact ⟨_, rfl⟩
/-- A command's next state is reached by primitive updates. -/
theorem exec_reach {c : Instr} {s t : State} (h : exec c s = .next t) : Reach s t := by
  obtain ⟨u, hu⟩ := exec_done c s
  rw [hu] at h
  cases h
  exact u.ok

end Sys2Proof.Machine
end

