-- ==== Sys2Proof/Tests/Slice0.lean ====
section
/-! SUPPORT. Tests of single commands against values worked out from the spec's rules, and for the statements that have hypotheses
a concrete state and operands that meet them together, one witness a clause or group of clauses. -/

namespace Sys2Proof.Slice0

open Sys2Proof Sys2Proof.Machine Sys2Proof.Claims

set_option Elab.async false

/-! ### Small states -/

/-- `s` with fields of BAR0 set: field, value, number of the page, entry. -/
def fields (s : State) (l : List (Fld × Nat × Nat × Nat)) : State :=
  (l.foldl (fun t p => t.setFld p.1 p.2.1 p.2.2.1 p.2.2.2) (begin s)).now

/-- Tile 0 runs and is `x`; the other fields are those of `s`. -/
def running (x : Tile) (s : State := State.reset) : State :=
  fields { s with tiles := [(0, x)] } [(TILE.RUNSTAT.STATE, runRunning, 0, 0)]

/-- Parameter set 16 with ring degree 2^`logn`: two chain primes and one special prime, held in prime slots 0 to 2, with
the log2 of the chain primes in Q16.16. -/
def smallSet (logn : Nat) (l2 : Nat := 0) : State :=
  { primes := [(0, 97 + l2 <<< 32), (1, 193 + l2 <<< 32), (2, 257)]
    psets := [(16, { live := true, kinds := 7, logn := logn, numQ := 2, numP := 1, dnum := 1, qslot := [0, 1], pslot := [2] })] }

/-- An engine instruction word: PSET 16, LEVEL and IMM; references, strides in lines, number of limbs. -/
def eword (level imm r0 r1 r2 : Nat) (lstride : Nat := 1) (pstride : Nat := 1) (nlimb : Nat := 1) : NInstr :=
  { ext := true, opa := BitVec.ofNat 51 (16 <<< 44 + level <<< 36 + imm)
    opd := BitVec.ofNat 128 (r0 <<< 102 + r1 <<< 76 + r2 <<< 50 + lstride <<< 31 + pstride <<< 12 + nlimb <<< 4) }

/-- A register form's word: prime index, IMM without the form bit, destination and sources. -/
def rword (level imm d a b : Nat) : NInstr := eword level (2 ^ 26 + imm) d a b 0 0 0

/-- The command answers a next state of which `p` holds. -/
def answers (c : Instr) (s : State) (p : State → Bool) : Bool :=
  match exec c s with
  | .next t => p t
  | _ => false

/-- Inbound queue 0 of the tile is open. -/
def opened : Tile := { inq := { opened := true } :: List.replicate 7 {} }

/-- The module is ready and function 0 owns queues 0 to 15; other fields from `s`. -/
def readyState (s : State := State.reset) : State :=
  fields s [(RESET.BOOT.READY, 1, 0, 0), (QE.FNQ.BASE, 0, 0, 0), (QE.FNQ.COUNT, 16, 0, 0)]

/-! ### Well-formed commands -/

theorem test_scan_wellformed : (Instr.gloamingScan (List.replicate 96 0)).wellFormed = true := by decide
theorem test_scan_illformed : (Instr.gloamingScan (List.replicate 95 0)).wellFormed = false := by decide

/-! ### Witnesses: the scalar unit -/

theorem witness_scalar_control : (running {}).readyTile 0 0 .execute {} = true ∧ bits (0 : BitVec 12).toNat 11 10 ≠ 3 ∧
    ({} : NInstr).opa = 0 ∧ bits ({} : NInstr).opa.toNat 50 6 = 0 ∧ bits ({} : NInstr).opa.toNat 50 20 = 0 := by decide +kernel

theorem witness_scalar_access : (running {}).readyTile 0 0 .access { sig := 0x400 } = true ∧ bits (0x400 : BitVec 12).toNat 11 10 ≠ 3 := by
  decide +kernel

theorem witness_qopen : (running {}).readyTile 0 0 .execute { opa := 2 ^ 50 } = true ∧
    bits (2 ^ 50 : BitVec 51).toNat 45 0 = 0 ∧ ((running {}).tilesAt 0 |>.queue true 0).opened = false := by decide +kernel

theorem witness_qclose : ∃ b : Bool, (running opened).readyTile 0 0 .execute { opa := if b then 2 ^ 50 else 0 } = true ∧
    bits (if b then (2 ^ 50 : BitVec 51) else 0).toNat 46 0 = 0 ∧ (opened.queue b 0).opened = true ∧
    opened.stillRead b 0 = false := ⟨false, by decide +kernel⟩

theorem witness_chcfg : (running {}).readyTile 0 0 .execute { opa := 2 ^ 39 + 2 ^ 16 } = true ∧
    bits (2 ^ 39 + 2 ^ 16 : BitVec 51).toNat 12 0 = 0 ∧ bits (2 ^ 39 + 2 ^ 16 : BitVec 51).toNat 46 39 ≠ 0 ∧
    bits (2 ^ 39 + 2 ^ 16 : BitVec 51).toNat 31 16 ≠ 0 ∧ (({} : Tile).chans.getD 0 {}).bound = false ∧
    ({} : Tile).drainedByAccess 0 = false := by decide +kernel

/-- Channel 0 is bound to outbound queue 0, which holds one word. -/
def oneWord : Tile :=
  { chans := { bound := true, dmask := 1, msglen := 1 } :: List.replicate 15 {}
    outq := { opened := true, words := [{ w := 5 }] } :: List.replicate 7 {} }

theorem witness_token : (running oneWord).readyTile 0 0 .execute { sig := 0xC00 } = true ∧ bits (0xC00 : BitVec 12).toNat 11 10 = 3 ∧
    ((running oneWord).tilesAt 0).chans[0]? = some { bound := true, dmask := 1, msglen := 1 } ∧
    (((running oneWord).tilesAt 0).outq.getD 0 {}).words.length = 1 := by decide +kernel

theorem witness_token_alone (k : Nat) (v : Channel) (h : k ≠ 0) (e : oneWord.chans[k]? = some v) : v.bound = false := by
  rcases k with _ | k
  · exact absurd rfl h
  · have m : v ∈ List.replicate 15 ({} : Channel) := List.mem_of_getElem? (show (List.replicate 15 ({} : Channel))[k]? = some v from e)
    rw [List.eq_of_mem_replicate m]

theorem witness_unmet_wait : (running {}).canIssue 0 .execute = true ∧ waitLegal 0x400000 = true ∧ waitLegal 0 = true ∧
    unmet (((running {}).tilesAt 0).seenBy .execute) { wa := 0x400000 } = some 0x400000 := by decide +kernel

/-- Codes with an undefined OP of the scalar unit, and with an undefined UNIT. -/
theorem witness_undefined_op : (running {}).readyTile 0 ((0x007 : BitVec 12).toNat / 256) .execute {} = true ∧
    (running {}).readyTile 0 ((0xF07 : BitVec 12).toNat / 256) .execute { ext := true } = true ∧ (0x007 : BitVec 12) ≠ 0 := by
  decide +kernel

/-- FLAGCLR clears flag OPA [5:0], CTRSET writes counter OPA [19:16] (R213). -/
theorem test_flagclr : answers (.flagclr 0 .execute { opa := 3 }) (running { flags := 0xF }) (fun t => (t.tilesAt 0).flags = 7) := by
  decide +kernel

theorem test_ctrset : answers (.ctrset 0 .execute { opa := 0x21234 }) (running {}) (fun t => (t.tilesAt 0).ctrs.getD 2 0 = 0x1234) := by
  decide +kernel

/-! ### Witnesses: engine instructions -/

/-- A plan that runs, and what holds of it. -/
def Plan.runs {s : State} (p : Plan s) (q : (Tx s → Tx s) → List (EStep s) → Bool → Bool) : Bool :=
  match p with
  | .run u st m => q u st m
  | .refuse _ _ | .wait => false

theorem of_runs {s : State} {p : Plan s} {q : (Tx s → Tx s) → List (EStep s) → Bool → Bool} (h : Plan.runs p q = true) :
    ∃ u st m, p = .run u st m ∧ q u st m = true := by
  cases p with
  | run u st m => exact ⟨u, st, m, rfl, h⟩
  | refuse st d => exact absurd h (by simp [Plan.runs])
  | wait => exact absurd h (by simp [Plan.runs])

theorem witness_engine_issues : ∃ k u st m, engineOf (.pclAdd 0 .execute (rword 0 0 2 0 1)) = some k ∧
    (running {}).readyTile k.tile k.unit k.side k.word = true ∧ k.plan (running {}) (begin (running {})) = .run u st m ∧
    (begin (running {})).stepsLegal k.tile st = true ∧ queuesFilled ((running {}).tilesAt k.tile) st := by
  obtain ⟨u, st, m, e, h⟩ := of_runs (p := pclElem 0 (rword 0 0 2 0 1) (intOp fun a b => (a + b) % 2 ^ 32) (begin (running {})))
    (q := fun _ st _ => (begin (running {})).stepsLegal (s := running {}) 0 st && (List.range 8).all fun q => queueWant st q == 0)
    (by decide +kernel)
  simp only [Bool.and_eq_true, List.all_eq_true, List.mem_range, beq_iff_eq] at h
  exact ⟨_, u, st, m, rfl, by decide +kernel, e, h.1, fun q hq => by rw [h.2 q hq]; exact Nat.zero_le _⟩

/-- Percale's ADD in stream form on two inbound queues, of which queue 0 is open and empty. -/
def queueWord : NInstr := eword 0 0 1024 (2 ^ 25) (2 ^ 25)

theorem witness_underrun : let s := running opened (smallSet 4); ∃ k e es, engineOf (.pclModAdd 0 .execute queueWord) = some k ∧
    s.readyTile k.tile k.unit k.side k.word = true ∧ k.plan s (begin s) = .run id (e :: es) false ∧
    (begin s).stepsLegal k.tile (e :: es) = true ∧ ((s.tilesAt k.tile).inq.getD 0 {}).offers.length < queueWant [e] 0 ∧
    (∀ r ∈ e.writes, ∀ q, r.1 ≠ .queue q) ∧ (s.tilesAt k.tile).kstream = none ∧ (s.tilesAt k.tile).transfers = [] ∧
    (s.tilesAt k.tile).rx = [] ∧ (s.tilesAt k.tile).stallQ.contains k.unit = false := by
  refine ⟨_, _, _, rfl, by decide +kernel, rfl, by decide +kernel, by decide +kernel, ?_, by decide +kernel, by decide +kernel, by decide +kernel, by decide +kernel⟩
  intro r hr q
  have e : r ∈ ([(.spad 1024, 16)] : List (Opnd × Nat)) := hr
  rw [List.mem_singleton.mp e]
  exact fun h => nomatch h

/-- Worsted's T pipe is taken by an NTT with a limb left. -/
def busyTile : Tile := { engines := [{ unit := 2, op := 1, left := 1 }] }

theorem witness_engine_refuses : (∃ k, engineOf (.accclr 0 .execute { opd := 1 }) = some k ∧ k.unit ≠ 5 ∧
      (running {}).canIssue k.tile k.side = true ∧ issueLegal ((running {}).tilesAt k.tile) k.unit k.side k.word = false) ∧
    ∃ k, engineOf (.accclr 0 .execute (eword 0 0 0 0 0)) = some k ∧ k.unit ≠ 5 ∧
      (running {}).readyTile k.tile k.unit k.side k.word = true ∧ k.plan (running {}) (begin (running {})) = .refuse .RANGE none :=
  ⟨⟨_, rfl, by decide +kernel, by decide +kernel, by decide +kernel⟩, _, rfl, by decide +kernel, by decide +kernel, rfl⟩

theorem witness_engine_holds : (∃ k, engineOf (.ntt 0 .execute { eword 0 0 0 0 0 with wa := 0x400000 }) = some k ∧
      (running {}).canIssue k.tile k.side = true ∧ waitLegal k.word.wa.toNat = true ∧ waitLegal k.word.wb.toNat = true ∧
      unmet (((running {}).tilesAt k.tile).seenBy k.side) k.word = some 0x400000) ∧
    ∃ k, engineOf (.ntt 0 .execute (eword 0 0 0 0 0)) = some k ∧ (running busyTile).canIssue k.tile k.side = true ∧
      issueLegal ((running busyTile).tilesAt k.tile) k.unit k.side k.word = true ∧
      unmet (((running busyTile).tilesAt k.tile).seenBy k.side) k.word = none ∧ ((running busyTile).tilesAt k.tile).pipeBusy k.unit k.op = true :=
  ⟨⟨_, rfl, by decide +kernel⟩, _, rfl, by decide +kernel⟩

/-! ### Witnesses: ledger traps, Percale's register forms -/

/-- A CKKS ciphertext of level 0 in a ring of degree 1024. -/
def smallCtd : Ctd := { comp := 2, pset := 16, scale := 0x10000 }

/-- CADD of LDG 1 that adds the ciphertext in slot 0 to itself. -/
def addWord : NInstr := { eword 0 0 0x10000 0 0 64 64 with opa := 0, ldg := 1 }

/-- A plan that refuses with LEDGER and the given DETAIL. -/
def Plan.trapsWith {s : State} (p : Plan s) (d : Nat) : Bool :=
  match p with
  | .refuse .LEDGER (some e) => e == d
  | _ => false

theorem of_trapsWith {s : State} {p : Plan s} {d : Nat} (h : Plan.trapsWith p d = true) : p = .refuse .LEDGER (some d) := by
  unfold Plan.trapsWith at h
  split at h
  · rw [beq_iff_eq.mp h]
  · exact absurd h (by simp)

theorem witness_ledger_traps : ∃ k, engineOf (.cadd 0 .execute addWord) = some k ∧
    (running { ctds := [(0, smallCtd)] } (smallSet 10)).readyTile k.tile k.unit k.side k.word = true ∧
    k.plan (running { ctds := [(0, smallCtd)] } (smallSet 10)) (begin _) = .refuse .LEDGER (some 0x101) :=
  ⟨_, rfl, by decide +kernel, of_trapsWith (p := caddPlan 0 addWord modAdd (begin (running { ctds := [(0, smallCtd)] } (smallSet 10))))
    (by decide +kernel)⟩

/-- A poisoned first source line: line 0 of tile 0's scratchpad. -/
def poisonedState : State := { running {} (smallSet 4) with poison := [(spadBase 0 / 64, true)] }
/-- CADD of the limbs at 0 and 1024 into 2048. -/
def sumWord : NInstr := eword 0 0 2048 0 1024 1 4

theorem witness_poison : ∃ (k : EngineCmd) (e : EStep poisonedState) (es : List (EStep poisonedState)),
    engineOf (.cadd 0 .execute sumWord) = some k ∧ poisonedState.readyTile k.tile k.unit k.side k.word = true ∧
    k.plan poisonedState (begin poisonedState) = .run id (e :: es) false ∧
    (begin poisonedState).stepsLegal k.tile (e :: es) = true ∧ queuesFilled (poisonedState.tilesAt k.tile) (e :: es) ∧
    (∀ r ∈ e.reads, ∀ q, r.1 ≠ .queue q) ∧
    (∃ off n m, (.spad off, n, m) ∈ e.reads ∧ poisonedState.poisoned (spadBase k.tile + off) (4 * n) = true) ∧
    (∀ r ∈ e.reads, ∀ off, r.1 = .spad off → r.2.2 ≠ 0 →
      nonCanonical r.2.2 (poisonedState.readWords (spadBase k.tile + off) r.2.1) = false) ∧
    (∀ r ∈ e.reads, ∀ n, r.1 = .tr n → r.2.2 ≠ 0 → nonCanonical r.2.2 ((poisonedState.tilesAt k.tile).reg n) = false) ∧
    e.more = [] ∧ ∀ t, e.spoil t = t := by
  refine ⟨_, _, _, rfl, by decide +kernel, rfl, by decide +kernel, ?_, ?_, ⟨0, 16, 97, by decide +kernel, by decide +kernel⟩, ?_, ?_, rfl, fun _ => rfl⟩
  · unfold queuesFilled
    decide +kernel
  all_goals intro r hr
  all_goals
    have h : r = (.spad 0, 16, 97) ∨ r = (.spad 1024, 16, 97) := by
      have e : r ∈ ([(.spad 0, 16, 97), (.spad 1024, 16, 97)] : List (Opnd × Nat × Nat)) := hr
      simpa using e
  · rintro q
    rcases h with rfl | rfl <;> simp
  · rcases h with rfl | rfl <;> rintro off ⟨⟩ - <;> decide +kernel
  · rcases h with rfl | rfl <;> rintro n ⟨⟩

/-- A running tile with parameter set 16 of degree 16. -/
def limbState : State := running {} (smallSet 4)

/-- Both traps of Percale and the canonicity trap are off on tile 0. -/
def trapsOff (s : State) : Bool := !(begin s).flagEff TILE.RESCTL.NONCANON_TRAP 0 && !(begin s).flagEff TILE.PCLCTL.NV_TRAP 0

/-- Each register form with its word, the IMM bits it uses and what its OPA and the state must be. -/
theorem witness_register_forms : trapsOff limbState = true ∧
    (∀ p ∈ [(rword 0 0 2 0 4, 0), (rword 0 0xFC0 2 0 4, 0xFC0), (rword 0 0xD 2 0 4, 0xF), (rword 0 3 2 0 4, 3),
        (rword 0 (6 <<< 21 + 3) 2 0 4, 31 <<< 21 + 3), (rword 0 0x17 2 0 4, 0x3F), (rword 0 0x3FFF 2 0 4, 0xFFFF), (rword 0 0x3FFF 2 0 4, 0x3FFF),
        (rword 0 0x3FF 2 0 4, 0x3FF)], limbState.readyTile 0 4 .execute p.1 = true ∧ regFormOk p.1 p.2 = true) ∧
    bits (rword 0 0x7C0 2 0 4).imm 11 6 = 31 ∧ bits (rword 0 0xD 2 0 4).imm 3 0 % 8 < 6 ∧
    (∀ k ∈ [2, 0, 4, 6], (fpRegs (fmtOf 3) k).isSome) ∧ bits (rword 0 0x17 2 0 4).imm 5 2 ≤ 5 ∧
    bits (rword 0 0x23 2 0 4).imm 2 0 ≤ 4 ∧ bits (rword 0 0x23 2 0 4).imm 5 3 = 4 ∧ bits (rword 0 0x3FFF 2 0 4).imm 15 14 = 0 ∧
    (limbState.regPrime (rword 0 0 2 0 4) 0).isSome ∧ (limbState.regPrime (rword 0 0 2 0 4) 1).isSome ∧
    (namedPrime limbState (rword 0 0 2 0 4) 0).q ≠ (namedPrime limbState (rword 0 0 2 0 4) 1).q ∧
    (limbState.tilesAt 0).ocBad.contains 0x3FF = false := by decide +kernel

/-- Modular MULC by 5 with the form bit OPA [33]. -/
def mulcRegs : NInstr := { rword 0 0 2 0 4 with opa := 0x1000200000005 }

theorem witness_modular_constant : ∃ l, limbState.readyTile 0 4 .execute mulcRegs = true ∧ regRefs mulcRegs = some (2, 0, 4) ∧
    mulcRegs.ldg = 0 ∧ bits mulcRegs.a 35 34 = 0 ∧ bit mulcRegs.a 33 = true ∧ limbState.regPrime mulcRegs mulcRegs.level = some l ∧
    (begin limbState).flagEff TILE.RESCTL.NONCANON_TRAP 0 = false :=
  ⟨_, by decide +kernel, by decide +kernel, by decide +kernel, by decide +kernel, by decide +kernel, rfl, by decide +kernel⟩

theorem witness_poisoned_cache_line : let s := running { ocBad := [0] }
    s.readyTile 0 4 .execute (rword 0 0 2 0 4) = true ∧ regFormOk (rword 0 0 2 0 4) 0x3FF = true ∧
    (s.tilesAt 0).ocBad.contains (bits (rword 0 0 2 0 4).imm 9 0) = true := by decide +kernel

theorem witness_invalid_flags : (0x1F : Nat) < 32 ∧ bit 0x1F 3 = true := by decide

/-- 0xFFFFFFFF + 1 wraps to 0; the sum of a full positive saturates and sets ISAT (R178). -/
theorem test_pcl_add : answers (.pclAdd 0 .execute (rword 0 0 2 0 1)) (running { trs := [(0, [0xFFFFFFFF]), (1, [1])] })
    (fun t => (t.tilesAt 0).reg 2 = [0]) := by decide +kernel

theorem test_sadd : answers (.sadd 0 .execute (rword 0 0 2 0 1)) (running { trs := [(0, [0x7FFFFFFF]), (1, [1])] })
    (fun t => (t.tilesAt 0).reg 2 = [0x7FFFFFFF] && t.flag TILE.PCLFLAGS.ISAT) := by decide +kernel

/-- 1.0 + 1.0 = 2.0 in FP32 (R182). -/
theorem test_fadd : answers (.fadd 0 .execute (rword 0 0 2 0 1)) (running { trs := [(0, [0x3F800000]), (1, [0x3F800000])] })
    (fun t => ((t.tilesAt 0).reg 2).headD 0 = 0x40000000) := by decide +kernel

/-! ### Witnesses: limbs and single steps -/

/-- Words of three operands apart from each other, at the given LEVEL and IMM. -/
def limbWord (level imm : Nat) : NInstr := eword level imm 2048 0 1024 1 4

/-- A limb-by-limb instruction that the word fits, with at least one limb of work, its operands in order. -/
def limbFits (work : State → Fin 64 → NInstr → Option (List LimbWork × Bool)) (w : NInstr) (s : State) : Prop :=
  ∃ ls mont, work s 0 w = some (ls, mont) ∧ ls.length = 1 ∧ limbsReady s 0 ls

theorem witness_limb_issue : ∀ p ∈ [(2, 0, 0), (2, 0, 1), (2, 1, 0), (2, 1, 8), (2, 0, 0x40001), (4, 0, 0), (4, 1, 0)],
    limbState.readyTile 0 p.1 .execute (limbWord p.2.1 p.2.2) = true := by decide +kernel

theorem witness_ntt : limbFits nttWork (limbWord 0 0) limbState := ⟨_, _, rfl, by decide +kernel, by unfold limbsReady; decide +kernel⟩
theorem witness_intt : limbFits inttWork (limbWord 0 0) limbState := ⟨_, _, rfl, by decide +kernel, by unfold limbsReady; decide +kernel⟩
theorem witness_aut : limbFits autWork (limbWord 0 31) limbState := ⟨_, _, rfl, by decide +kernel, by unfold limbsReady; decide +kernel⟩
theorem witness_mul : limbFits mulWork (limbWord 0 0) limbState := ⟨_, _, rfl, by decide +kernel, by unfold limbsReady; decide +kernel⟩
theorem witness_mulc : limbFits mulcWork (limbWord 0 5) limbState := ⟨_, _, rfl, by decide +kernel, by unfold limbsReady; decide +kernel⟩
theorem witness_tens : limbFits tensWork (limbWord 0 0) limbState := ⟨_, _, rfl, by decide +kernel, by unfold limbsReady; decide +kernel⟩
theorem witness_lift : limbFits liftWork (limbWord 1 0) limbState := ⟨_, _, rfl, by decide +kernel, by unfold limbsReady; decide +kernel⟩
theorem witness_resc : limbFits rescWork (limbWord 1 0) limbState := ⟨_, _, rfl, by decide +kernel, by unfold limbsReady; decide +kernel⟩
theorem witness_resc_div : limbFits rescWork (limbWord 1 8) limbState := ⟨_, _, rfl, by decide +kernel, by unfold limbsReady; decide +kernel⟩
theorem witness_cadd : limbFits caddWork (limbWord 0 0) limbState := ⟨_, _, rfl, by decide +kernel, by unfold limbsReady; decide +kernel⟩
theorem witness_csub : limbFits csubWork (limbWord 0 0) limbState := ⟨_, _, rfl, by decide +kernel, by unfold limbsReady; decide +kernel⟩
theorem witness_padd : limbFits paddWork (limbWord 0 0) limbState := ⟨_, _, rfl, by decide +kernel, by unfold limbsReady; decide +kernel⟩
theorem witness_ldrop : limbFits ldropWork (limbWord 1 0) limbState := ⟨_, _, rfl, by decide +kernel, by unfold limbsReady; decide +kernel⟩
theorem witness_pcl_add : limbFits pclModAddWork (limbWord 0 0) limbState := ⟨_, _, rfl, by decide +kernel, by unfold limbsReady; decide +kernel⟩
theorem witness_pcl_sub : limbFits pclModSubWork (limbWord 0 0) limbState := ⟨_, _, rfl, by decide +kernel, by unfold limbsReady; decide +kernel⟩
theorem witness_pcl_neg : limbFits pclModNegWork (limbWord 0 0) limbState := ⟨_, _, rfl, by decide +kernel, by unfold limbsReady; decide +kernel⟩
theorem witness_pcl_mul : limbFits pclModMulWork (limbWord 0 0) limbState := ⟨_, _, rfl, by decide +kernel, by unfold limbsReady; decide +kernel⟩
theorem witness_pcl_lift : limbFits pclModLiftWork (limbWord 0 0) limbState := ⟨_, _, rfl, by decide +kernel, by unfold limbsReady; decide +kernel⟩

theorem witness_ldrop_in_place : limbState.readyTile 0 4 .execute (eword 1 0 0 0 0 1 4) = true ∧
    (opWord (limbWord 1 0)).ref0 ≠ (opWord (limbWord 1 0)).ref1 ∧ (opWord (eword 1 0 0 0 0 1 4)).ref0 = (opWord (eword 1 0 0 0 0 1 4)).ref1 ∧
    ∃ l mont, ldropWork limbState 0 (eword 1 0 0 0 0 1 4) = some ([l], mont) ∧
      ∀ r ∈ l.dsts, r.1 = .spad r.1.off ∧ r.1.off % 64 = 0 ∧ r.1.off + 4 * r.2 ≤ limbState.spadEnd 0 :=
  ⟨by decide +kernel, by decide +kernel, by decide +kernel, _, _, rfl, by decide +kernel⟩

theorem witness_pcl_integer : limbFits (intWork (fun a b => a &&& b)) (limbWord 0 0) limbState :=
  ⟨_, _, rfl, by decide +kernel, by unfold limbsReady; decide +kernel⟩

theorem witness_pcl_mulc : limbFits pclModMulcWork { limbWord 0 0 with opa := BitVec.ofNat 51 (16 <<< 44 + 5) } limbState :=
  ⟨_, _, rfl, by decide +kernel, by unfold limbsReady; decide +kernel⟩

theorem witness_fromint : limbFits fromintWork (limbWord 0 0) limbState := ⟨_, _, rfl, by decide +kernel, by unfold limbsReady; decide +kernel⟩

/-- An instruction of one step that the word fits on a tile that can issue it, its operands and words in order. -/
def stepFits (unit : Nat) (work : State → Fin 64 → NInstr → Option StepWork) (w : NInstr) (s : State) : Prop :=
  s.readyTile 0 unit .execute w = true ∧ ∃ u, work s 0 w = some u ∧ u.ready s 0 ∧
    u.ok (u.start (issueTile (s.tilesAt 0) .execute w)) (u.words s 0) = true

theorem witness_mac : stepFits 2 macWork (limbWord 0 0) limbState :=
  ⟨by decide +kernel, _, rfl, by unfold StepWork.ready limbsReady; decide +kernel, by decide +kernel⟩
theorem witness_mac_folds : stepFits 2 macWork (limbWord 0 0) (running { acc0 := { terms := 65536 } } (smallSet 4)) :=
  ⟨by decide +kernel, _, rfl, by unfold StepWork.ready limbsReady; decide +kernel, by decide +kernel⟩
theorem witness_mac2 : stepFits 2 mac2Work (limbWord 0 0) limbState :=
  ⟨by decide +kernel, _, rfl, by unfold StepWork.ready limbsReady; decide +kernel, by decide +kernel⟩
theorem witness_accrd : stepFits 2 accrdWork (limbWord 0 4) limbState :=
  ⟨by decide +kernel, _, rfl, by unfold StepWork.ready limbsReady; decide +kernel, by decide +kernel⟩
theorem witness_accclr : stepFits 2 accclrWork (eword 0 1 0 0 0) limbState :=
  ⟨by decide +kernel, _, rfl, by unfold StepWork.ready limbsReady; decide +kernel, by decide +kernel⟩
theorem witness_bconv : stepFits 2 bconvWork (eword 0 36 0 64 0) limbState :=
  ⟨by decide +kernel, _, rfl, by unfold StepWork.ready limbsReady; decide +kernel, by decide +kernel⟩
theorem witness_dmac : stepFits 3 dmacWork (limbWord 0 0)
    (running { wbrs := [(0, { valid := true, limbs := 1, off := 1024, stride := 64 })] } (smallSet 4)) :=
  ⟨by decide +kernel, _, rfl, by unfold StepWork.ready limbsReady; decide +kernel, by decide +kernel⟩
theorem witness_drd : stepFits 3 drdWork (limbWord 0 0) limbState :=
  ⟨by decide +kernel, _, rfl, by unfold StepWork.ready limbsReady; decide +kernel, by decide +kernel⟩
theorem witness_denc : stepFits 3 dencWork (limbWord 0 0) (running { wslots := [(0, {})] } (smallSet 8)) :=
  ⟨by decide +kernel, _, rfl, by unfold StepWork.ready limbsReady; decide +kernel, by decide +kernel⟩
theorem witness_dimm : stepFits 3 dimmWork (limbWord 0 4) (running { wslots := [(0, { order := true })] }) :=
  ⟨by decide +kernel, _, rfl, by unfold StepWork.ready limbsReady; decide +kernel, by decide +kernel⟩
theorem witness_dird : stepFits 3 dirdWork (limbWord 0 0) (running {}) :=
  ⟨by decide +kernel, _, rfl, by unfold StepWork.ready limbsReady; decide +kernel, by decide +kernel⟩
theorem witness_slotenc : stepFits 4 slotencWork (limbWord 0 0) limbState :=
  ⟨by decide +kernel, _, rfl, by unfold StepWork.ready limbsReady; decide +kernel, by decide +kernel⟩
theorem witness_slotdec : stepFits 4 slotdecWork (limbWord 0 0) limbState :=
  ⟨by decide +kernel, _, rfl, by unfold StepWork.ready limbsReady; decide +kernel, by decide +kernel⟩

/-- A slot whose real part, an FP64 infinity, is not finite. -/
def slotState : State := { running {} (smallSet 4) with mem := [⟨spadBase 0 + 6, 0xF0⟩, ⟨spadBase 0 + 7, 0x7F⟩] }

theorem witness_slotenc_refused : slotState.readyTile 0 4 .execute (limbWord 0 0) = true ∧ ∃ u, slotencWork slotState 0 (limbWord 0 0) = some u ∧
    u.ready slotState 0 ∧ u.ok (slotState.tilesAt 0) (u.words slotState 0) = false :=
  ⟨by decide +kernel, _, rfl, by unfold StepWork.ready limbsReady; decide +kernel, by decide +kernel⟩

/-! ### Witnesses: Gauze -/

/-- EXTRACT of 16 positions from the ciphertext in slot 0 to slot 1. -/
def extractWord : NInstr := { eword 0 0 0 0 4096 64 64 with opa := BitVec.ofNat 51 (1 <<< 43 + 1), ldg := 1 }

theorem witness_gauze_order : ∃ k, engineOf (.extract 0 .execute extractWord) = some k ∧ k.unit = 5 ∧
    ((running { gauze := some { dst := 2 } }).readyTile k.tile 5 k.side k.word = true ∧
      ((running { gauze := some { dst := 2 } }).tilesAt k.tile).holdsOther k.op k.word = true) ∧
    (running {} { clusters := [(0, { gzHeads := [[9]] })] }).readyTile k.tile 5 k.side k.word = true ∧
    ((running {} { clusters := [(0, { gzHeads := [[9]] })] }).tilesAt k.tile).holdsOther k.op k.word = false ∧
    (running {} { clusters := [(0, { gzHeads := [[9]] })] }).nextMacro k.tile k.op k.word = false :=
  ⟨_, rfl, rfl, by decide +kernel⟩

/-- A running tile whose slot 0 holds a CKKS ciphertext of level 0 that EXTRACT takes. -/
def extractState : State :=
  running { ctds := [(0, { comp := 2, pset := 16, scale := 0x40000 })] } (smallSet 10 (20 <<< 16))

theorem witness_extract : ∃ a d, extractState.srcCtd 0 extractWord.src1 = some a ∧ ledger (extractState.psetCtx a.pset) .extract [a] {} = .passed d ∧
    inOrder extractState 0 1 extractWord ∧ bundleOf extractWord = some 16 ∧
    refOpnd (opWord extractWord).ref0 = some (.spad 0) ∧ refOpnd (opWord extractWord).ref1 = some (.spad 0) ∧
    refOpnd (opWord extractWord).ref2 = some (.spad 4096) ∧ extractWord.ldg ≠ 0 ∧ immOk extractWord 0x1F = true ∧
    (opWord extractWord).resv = 0 ∧ a.kind = 0 ∧ a.level = 0 ∧ a.ntt = false ∧ a.comp = 2 ∧
    (extractState.psetCtx a.pset).ps.logn ≠ 17 ∧ bit (extractState.psetCtx a.pset).ps.kinds 2 = true ∧
    (extractState.psetCtx a.pset).mont.getD 0 false = false ∧ extractState.limbFits 0 0 (extractState.psetCtx a.pset).ps.n = true ∧
    extractState.limbFits 0 (0 + (opWord extractWord).pstride * 64) (extractState.psetCtx a.pset).ps.n = true ∧
    Memory.wf extractState.mem = true ∧
    4096 + 4 * 16 ≤ extractState.spadEnd 0 ∧ extractState.poisoned (spadBase 0 + 4096) (4 * 16) = false ∧
    (∀ v ∈ extractState.readWords (spadBase 0 + 4096) 16, v < (extractState.psetCtx a.pset).ps.n) := by
  refine ⟨_, _, rfl, rfl, ?_⟩
  unfold inOrder
  decide +kernel

/-- Parameter set 16 with an LWE dimension of 8 below a ring of degree 1024, key set 0 bound with the keys of every macro, and REPACK's
sequence 1. -/
def gauzeSet : State :=
  { primes := [(0, 97 + (30 * 65536) <<< 32), (1, 193 + (30 * 65536) <<< 32), (2, 257)]
    psets := [(16, { live := true, kinds := 7, logn := 10, numQ := 2, numP := 1, dnum := 1, qslot := [0, 1], pslot := [2], lweN := 8,
                     lweLogq := 20, gauze := { brLogn := 10, glev := 1, bgLog := 6, ksDigits := 2, ksBaseLog := 3, repackLevel := 1,
                                               repackSeq := 1 } })]
    ksets := [(0, { live := true, state := 2, pset := 16,
                    dir := ([0, 33, 65, 129, 257, 513, 1025, 2 ^ 18, 2 ^ 18 + 1, 2 * 2 ^ 18, 3 * 2 ^ 18] : List Nat).map fun k => ⟨k, 0, 0, false⟩ })]
    fw := { vendor := { repacks := [(1, [])] } } }

/-- Tile `i` runs record 5 with the LWE sample `a` in slot 0. -/
def macroState (a : Ctd) (x : Tile := {}) (i : Nat := 0) (mem : List Host.Cell := []) : State :=
  fields { gauzeSet with mem := mem, tiles := [(i, { x with rec? := some 5, ctds := [(0, { a with comp := 1, pset := 16, kind := 2, layout := 128 })] })] }
    [(TILE.RUNSTAT.STATE, runRunning, i, 0)]

/-- A macro of LDG 1 from slot 0 to slot 1. -/
def bundleWord (imm dst src lut : Nat) : NInstr := { eword 0 0 dst src lut 64 64 with opa := BitVec.ofNat 51 (1 <<< 43 + imm), ldg := 1 }

theorem witness_modsw : let s := macroState { scale := 12 <<< 16, dim := 7, lwemod := 1 }
    let w := bundleWord 1 4096 0 0
    ∃ a d, inOrder s 0 3 w ∧ macroWord s 0 w 0x1F a 16 4096 0 (.spad 0) ∧ a.kind = 2 ∧ a.lwemod = 1 ∧
      (s.psetCtx a.pset).ps.logn + 1 ≤ (s.psetCtx a.pset).ps.lweLogq ∧ ledger (s.psetCtx a.pset) .lweModsw [a] {} = .passed d ∧
      limbsReady s 0 ((List.range 2).map fun k =>
        { srcs := [(.spad (k * 64), 9, 0)], dsts := [(.spad (4096 + k * 64), 9)], res := fun _ => [] }) := by
  refine ⟨_, _, ?_, ⟨rfl, ?_⟩, rfl, rfl, ?_, rfl, ?_⟩ <;> (try unfold inOrder) <;> (try unfold limbsReady) <;> decide +kernel

/-- A bundle of 16 samples waits on tile `i` for its LWE_KS. -/
def waitingBundle : PendingBundle := { dst := 0, off0 := 16384, off1 := 32768, positions := List.replicate 16 0 }
@[inherit_doc waitingBundle]
def lweKsState (i : Nat) : State := macroState { scale := 12 <<< 16, dim := 1023 } { gauze := some waitingBundle } i

theorem witness_lwe_ks : ∀ i : Fin 64, (i = 0 ∨ i = 1) → ∃ a d ks e, inOrder (lweKsState i) i 2 (bundleWord 1 8192 0 0) ∧
    macroWord (lweKsState i) i (bundleWord 1 8192 0 0) 0x1F a 16 8192 0 (.spad 0) ∧ a.kind = 2 ∧ a.lwemod = 0 ∧
    ((lweKsState i).tilesAt i).gauze = some waitingBundle ∧ waitingBundle.positions.length = 16 ∧
    (lweKsState i).bundleFits i 8192 2 ((lweKsState i).psetCtx a.pset).ps.lweN = true ∧ (lweKsState i).recKeys i = some ks ∧
    ks.find (2 ^ 18) = some e ∧ ledger ((lweKsState i).psetCtx a.pset) .lweKs [a] {} = .passed d := by
  rintro i (rfl | rfl)
  all_goals
    refine ⟨_, _, _, _, ?_, ⟨rfl, ?_⟩, rfl, rfl, rfl, rfl, ?_, rfl, rfl, rfl⟩ <;> (try unfold inOrder) <;> decide +kernel

theorem witness_lwe_ks_scatter : let s := macroState { scale := 12 <<< 16, dim := 1023 }
    let q := (extLimb (s.psetCtx 16) 0 0).q
    (s.clustersAt 0).keyCache = [] ∧ (s.psetCtx 16).ps.gauze.ksDigits = 2 ∧
      limbsReady s 0 [{ srcs := [(.spad 16384, 1024, q), (.spad 32768, 1024, q)], dsts := [], res := fun _ => [] }] ∧
      ∀ g, g < 2 → s.rangeStatus (.tile 0) (g * 4096) 4096 = .OK ∧ s.poisoned (g * 4096) 4096 = false ∧
        nonCanonical q (s.readWords (g * 4096) 1024) = false := by
  unfold limbsReady
  decide +kernel

theorem witness_blindrot : let s := macroState { scale := 9 <<< 16, dim := 7, lwemod := 2 } {} 0 [(spadBase 0 + 8192, 1), (spadBase 0 + 8193, 1)]
    let w := bundleWord 1 4096 0 8192
    ∃ a d u ks, inOrder s 0 4 w ∧ macroWord s 0 w 0x1F a 16 4096 0 (.spad 8192) ∧ a.kind = 2 ∧ a.lwemod = 2 ∧
      lutOf (s.read (spadBase 0 + 8192) 64) = some u ∧ ((a.scale : Int) - (10 - u.hLog) * 65536).natAbs ≤ 256 ∧
      w.dst + 2 ^ u.outsLog ≤ 256 ∧ (w.src1 < w.dst ∨ w.dst + 2 ^ u.outsLog ≤ w.src1) ∧ s.keyHeld 0 = false ∧ s.recKeys 0 = some ks ∧
      (ks.find (2 * 2 ^ 18)).isSome = true ∧ (ks.find (2 ^ 18 + 1)).isSome = true ∧
      s.keyDiffers 0 (rotationStream (s.tileKsid 0)) = false ∧ blindrotLedger (s.psetCtx a.pset) u a = .passed d ∧
      limbsReady s 0 ((List.range 2).map fun k =>
        { srcs := [(.spad (k * 64), 9, 0), (.spad 8192, 16, 0)], dsts := [(.spad (4096 + k * 64), 9)], res := fun _ => [] }) := by
  refine ⟨_, _, _, _, ?_, ⟨rfl, ?_⟩, rfl, rfl, rfl, ?_, ?_, ?_, ?_, rfl, ?_, ?_, ?_, rfl, ?_⟩ <;> (try unfold inOrder) <;>
    (try unfold limbsReady) <;> decide +kernel

theorem witness_repack : let s := macroState { scale := 12 <<< 16, dim := 7, lwemod := 1 }
    let w := bundleWord (20 <<< 5 + 1) 65536 0 0
    let ks := s.ksetsAt 0
    let kids := repackKids (s.psetCtx 16).ps 16 (mapGet [] s.fw.vendor.repacks 1)
    (∃ a d, inOrder s 0 5 w ∧ macroWord s 0 w 0x7FF a 16 65536 0 (.spad 0) ∧ a.kind = 2 ∧ a.lwemod = 1 ∧
      ledger (s.psetCtx a.pset) (.repack (20 * 65536 : Nat) 16 1) [a] {} = .passed d) ∧
    s.fw.vendor.repacks.any (·.1 = 1) = true ∧ bits w.imm 10 5 = 20 ∧ s.bundleFits 0 0 2 8 = true ∧ s.macrosDone 0 0 = true ∧
    s.recKeys 0 = some ks ∧ (∀ k ∈ kids, ∃ e, ks.find k = some e ∧ s.keyPoisoned 0 e (keyBytes (s.psetCtx 16).ps k) = false) ∧
    s.bundlePoison 0 0 16 8 = none ∧ (tileLimbs (s.psetCtx 16) 1 .chain 0).length = 1 ∧
    limbsReady s 0 [{ srcs := [(.spad 0, 9, 0), (.spad 64, 9, 0)], dsts := [(.spad 65536, 1024), (.spad (65536 + 4096), 1024)],
                      res := fun _ => [] }] := by
  refine ⟨⟨_, _, ?_, ⟨rfl, ?_⟩, rfl, rfl, rfl⟩, ?_, ?_, ?_, ?_, ?_, ?_, ?_, ?_, ?_⟩
  all_goals (try unfold inOrder); (try unfold limbsReady); decide +kernel

/-! ### Witnesses: the access unit -/

/-- OCLD of `n` lines. -/
def ocldWord (n : Nat) : NInstr := { ext := true, opd := BitVec.ofNat 128 (n <<< 81) }

theorem witness_access : (∃ k f, accessOf (.ocld 0 .access ⟨ocldWord 1, []⟩) = some k ∧ (running {}).readyTile k.tile 1 k.side k.word = true ∧
      k.plan (running {}) (begin (running {})) = .run f) ∧
    (∃ k, accessOf (.ocld 0 .access ⟨ocldWord 0, []⟩) = some k ∧ (running {}).readyTile k.tile 1 k.side k.word = true ∧
      k.plan (running {}) (begin (running {})) = .refuse .RANGE) ∧
    (∃ k, accessOf (.wstream 0 .access { ext := true, opa := BitVec.ofNat 51 nearEnd }) = some k ∧
      (running {}).readyTile k.tile 1 k.side k.word = true ∧ k.plan (running {}) (begin (running {})) = .refuseAt .RANGE nearEnd) ∧
    ∃ k, accessOf (.sprog 0 .access { ext := true }) = some k ∧
      (running { prog := some {} }).readyTile k.tile 1 k.side k.word = true ∧
      k.plan (running { prog := some {} }) (begin (running { prog := some {} })) = .wait :=
  ⟨⟨_, _, rfl, by decide +kernel, rfl⟩, ⟨_, rfl, by decide +kernel, rfl⟩, ⟨_, rfl, by decide +kernel, rfl⟩, _, rfl, by decide +kernel, rfl⟩

theorem witness_ocld : oclWord (running {}) 0 (ocldWord 1024) 0 1024 0 ∧ Memory.wf (running {}).mem = true ∧
    ∀ j, j < 1024 → (((running {}).tilesAt 0).ocLine (0 + j)).length = 256 := by
  unfold oclWord
  decide +kernel

/-- MOVE or MOVEO of one line between near address 0 and the scratchpad's first line. -/
def moveWord : NInstr := { ext := true, opd := BitVec.ofNat 128 (1 <<< 18) }

theorem witness_move : moveReady (running {}) 0 moveWord 1 0 0 ∧ (running {}).poisoned 0 64 = false ∧
    (running {}).poisoned (spadBase 0) 64 = false := by
  unfold moveReady
  decide +kernel

/-- A program of one BLOAD in the scratchpad of tile 0, its list of one block of one line behind it. -/
def progState : State :=
  running {} { mem := [(spadBase 0, 1), (spadBase 0 + 64, 5), (spadBase 0 + 65, 2), (spadBase 0 + 73, 16), (spadBase 0 + 76, 1),
                       (spadBase 0 + 4104, 1)] }

theorem witness_sprog : ∃ e, progState.readyTile 0 1 .access { ext := true } = true ∧ (progState.tilesAt 0).prog = none ∧
    leBytes (progState.read (spadBase 0) 64) 0 1 = 1 ∧ leBytes (progState.read (spadBase 0) 64) 1 1 = 0 ∧
    leBytes (progState.read (spadBase 0) 64) 2 2 = 0 ∧ leBytes (progState.read (spadBase 0) 64) 8 56 = 0 ∧
    64 + 128 ≤ progState.spadEnd 0 ∧ progState.poisoned (spadBase 0) 192 = false ∧
    progState.blockListPoison 0 (entryOf (progState.read (spadBase 0 + 64) 128)) = false ∧
    progState.entryAt 0 (progState.graphsAt (progState.recordsAt 0).graph).width (progState.read (spadBase 0 + 64) 128) = some e ∧
    progState.contribFits e = true ∧ e.total ≠ 0 := ⟨_, by decide +kernel, by decide +kernel, by decide +kernel, by decide +kernel, by decide +kernel, by decide +kernel, by decide +kernel, by decide +kernel, by decide +kernel, rfl, by decide +kernel, by decide +kernel⟩

/-- KSTREAM of key 0, digit 0 of level 1, to queues 0 and 1, or to the landing area at 0. -/
def keyWord (dest : Bool) : NInstr := { ext := true, opd := BitVec.ofNat 128 (1 <<< 84 + 1 <<< 72 + (if dest then 1 <<< 71 else 0)) }

/-- Tile 0 of record 5 has queues 0 and 1 open; key set 0 of the small parameter set is bound and holds key 0. -/
def keySetState : State :=
  running { inq := { opened := true } :: { opened := true } :: List.replicate 6 {}, rec? := some 5 }
    { smallSet 4 with ksets := [(0, { live := true, state := 2, pset := 16, dir := [⟨0, 0, 0, false⟩] })] }

theorem witness_kstream : ∀ dest, let k := kstreamOf (keyWord dest)
    ∃ e n bs, keySetState.readyTile 0 1 .access (keyWord dest) = true ∧ (keyWord dest).a = 0 ∧ bits (keyWord dest).opd.toNat 45 0 = 0 ∧
      k.bq ≠ k.aq ∧ k.dlo ≤ k.dhi ∧ k.land % 64 = 0 ∧ keySetState.keyHeld 0 = false ∧ k.ksid = keySetState.tileKsid 0 ∧
      (keySetState.ksetsAt 0).bound = true ∧ (keySetState.ksetsAt 0).dir.zipIdx.find? (·.1.kid = k.kid) = some (e, n) ∧
      k.level < (keySetState.psetCtx 16).ps.numQ ∧ k.dhi < k.digitBound (keySetState.psetCtx 16).ps ∧ k.dest = dest ∧
      k.land + (streamRows (keySetState.psetCtx 16) k 0).length * k.digits * 2 * (4 * keyRing (keySetState.psetCtx 16).ps k.kid) ≤
        keySetState.spadEnd 0 ∧ keySetState.keyDiffers 0 k = false ∧
      keySetState.lineOf (.tile 0) (((keySetState.ksetsAt 0).dirAddr + 16 * n) / 64 * 64) = .ok bs := by
  rintro (_ | _)
  all_goals exact ⟨_, _, _, by decide +kernel, by decide +kernel, by decide +kernel, by decide +kernel, by decide +kernel, by decide +kernel,
    by decide +kernel, by decide +kernel, by decide +kernel, rfl, by decide +kernel, by decide +kernel, by decide +kernel, by decide +kernel, by decide +kernel, rfl⟩

/-- WSTREAM of one block of the weights that the WSD at near address 0 describes, to queue 0 or to the landing area at 0. -/
def weightWord (dest : Bool) : NInstr := { ext := true, opd := BitVec.ofNat 128 (1 <<< 94 + 1 <<< 62 + (if dest then 1 <<< 60 else 0)) }

/-- A WSD of one row of one block at near address 64: PSTRIDE 1. -/
def weightState0 : State :=
  running opened { mem := [(8, 64), (18, 1), (20, 1), (25, 128)] }

theorem witness_wstream : let a := bits (weightWord true).a 43 0
    let d := wsdOfNat (leNat (weightState0.read a 32))
    (∀ dest, let v := wstreamOf (weightWord dest) 0
      weightState0.readyTile 0 1 .access (weightWord dest) = true ∧ v.dest = dest ∧ v.land % 64 = 0 ∧ v.order = false ∧
      (weightState0.tilesAt 0).slotBusy v.slot = false ∧ 0 < v.nr ∧ v.r0 + v.nr ≤ d.rows ∧ 0 < v.nb ∧ v.b0 + v.nb ≤ d.rowblk ∧
      ((weightState0.tilesAt 0).inq.getD v.qn {}).opened = true ∧ v.land + v.landBytes d ≤ weightState0.spadEnd 0) ∧
    bits (weightWord true).a 50 44 = 0 ∧ bits (weightWord true).opd.toNat 31 0 = 0 ∧ a % 32 = 0 ∧
    weightState0.access (.tile 0) a = .OK ∧ weightState0.poisoned a 32 = false ∧ d.legal = true ∧
    weightState0.withinTier d.addr (d.blockAddr (d.rows - 1) (d.rowblk - 1) + blockBytes d.fmt d.esc - d.addr) = true ∧
    (weightState0.clustersAt 0).wheads = [] ∧ d.isSealed = false := by decide +kernel

/-! ### Witnesses: tiles from outside their streams -/

/-- An instruction in flight on tile 0 whose work is done, and one that stalls on Percale's unit with a step left. -/
def flightTile : Tile := { engines := [{ unit := 4, op := 0x20, sig := 0x400 }] }

@[inherit_doc flightTile]
def stalledEngine : InFlight := { unit := 4, op := 0x20, left := 1, outs := [0] }

theorem witness_result_visible : let s := running flightTile; (s.tilesAt 0).engines[0]? = some { unit := 4, op := 0x20, sig := 0x400 } ∧
    s.inEpoch 0 = true ∧ (s.tilesAt 0).working { unit := 4, op := 0x20, sig := 0x400 } = false ∧
    (s.tilesAt 0).pipeBefore 0 { unit := 4, op := 0x20, sig := 0x400 } = false ∧ bits 0x400 11 10 ≠ 3 := by decide +kernel

theorem witness_transfer_signal : let s := running { transfers := [{ sig := 0x400 }] }
    ((s.tilesAt 0).transfers[0]? = some { sig := 0x400 }) ∧ ((s.tilesAt 0).transfers.map (·.id)).Nodup ∧ nothingToEnter (s.tilesAt 0) ∧
    ({ sig := 0x400 } : Transfer).complete = true ∧ ({ sig := 0x400 } : Transfer).status = .OK ∧ s.inEpoch 0 = true ∧ bits 0x400 11 10 ≠ 3 := by
  unfold nothingToEnter
  decide +kernel

theorem witness_stalls : let s := running { stallQ := [4], engines := [stalledEngine] };
    s.runState 0 = runRunning ∧ (s.tilesAt 0).stallQ.contains 4 = true ∧ stalledFirst (s.tilesAt 0) (·.unit = 4) stalledEngine ∧
    stalledFirst (s.tilesAt 0) (·.outs.contains 0) stalledEngine ∧ ((s.tilesAt 0).outq.getD 0 {}).words.length ≤ 4096 ∧
    (s.tilesAt 0).stallQ.contains 5 = false ∧ (∀ e ∈ (s.tilesAt 0).engines, e.left = 0 ∨ e.gz.isSome = true ∨ e.outs.contains 7 = false) := by
  unfold stalledFirst
  decide +kernel

theorem witness_overrun_resume : ((State.reset.tilesAt 0).outq.getD 7 {}).words.length ≤ 4096 := by decide +kernel

/-- Record 5 runs on tiles 0 and 1; tile 1's streams have ended. -/
def endedState : State :=
  fields { tiles := [(1, { rec? := some 5, acc := { ended := true }, exe := { ended := true } })]
           records := [(5, { stage := .dispatched, tiles := [0, 1] })] } [(TILE.RUNSTAT.STATE, runRunning, 1, 0)]

theorem witness_record_done : (endedState.tilesAt 1).rec? = some 5 ∧ (endedState.recordsAt 5).stage = .dispatched ∧
    (endedState.recordsAt 5).tilesDone.contains 1 = false ∧ endedState.runState 1 = runRunning ∧ (endedState.tilesAt 1).finished = true ∧
    (1 : Nat) % 8 ≠ 0 ∧ endedState.writesOut 1 = false ∧ (endedState.contextsAt (endedState.ctxBase 1)).live = false ∧
    (∃ j ∈ (endedState.recordsAt 5).tiles, j ≠ 1 ∧ (endedState.recordsAt 5).tilesDone.contains j = false) := by decide +kernel

/-- Queue 0 of tile 0 is open; one line waits in the buffer of channel 0 of tile 1. -/
def messageTile : Tile := { opened with rx := [(16, { items := [.line []], msglen := 1 })] }

theorem witness_admit : let s := running messageTile
    ((s.tilesAt 0).inq.getD 0 {}).opened = true ∧ (∀ r ∈ (s.tilesAt 0).rx, r.2.dq = 0 → r.2.left = 0) ∧
    admitChoice ((s.tilesAt 0).inq.getD 0 {}).rotate ((s.tilesAt 0).inq.getD 0 {}).last ((s.tilesAt 0).readyKeys 0) = some 16 := by
  decide +kernel

theorem witness_admit_sender : nothingToSend ((running messageTile).tilesAt 1) := by
  intro c h
  have e : (running messageTile).tilesAt 1 = {} := by decide +kernel
  rw [e] at h
  have b : ∀ v ∈ ({} : Tile).chans, v.bound = false := by decide
  rw [List.getD_eq_getElem?_getD] at h
  cases g : ({} : Tile).chans[c]? with
  | none => rw [g] at h; exact absurd h (by decide)
  | some v => rw [g] at h; exact absurd h (by simp [b v (List.mem_of_getElem? g)])

/-- Tile 0 in run state `st`, with contents `x`. -/
def inState (st : Nat) (x : Tile := {}) (s : State := State.reset) : State :=
  fields { s with tiles := [(0, x)] } [(TILE.RUNSTAT.STATE, st, 0, 0)]

theorem witness_run_control : (∀ st ∈ [runIdle, runRunning, runHalted, runSaved], (inState st).takesWrite (.core 0) .TILE 0 = true ∧
      (inState st).runState 0 = st ∧ ((inState st).tilesAt 0).rec? = none) ∧
    ((inState runRunning { rec? := some 0 }).tilesAt 0).rec? ≠ none ∧
    (inState runRunning { rec? := some 0 }).takesWrite (.core 0) .TILE 0 = true ∧
    (let s := inState runRestoring { rec? := some 0, restored := true };
      (s.tilesAt 0).rec? ≠ none ∧ s.runState 0 = runRestoring ∧ (s.tilesAt 0).restored = true ∧ s.takesWrite (.core 0) .TILE 0 = true) ∧
    (let s := inState runSaved {} { contexts := [(State.reset.ctxBase 0, { live := true })] };
      (s.contextsAt (s.ctxBase 0)).live = true ∧ s.runState 0 = runSaved ∧ s.takesWrite (.core 0) .TILE 0 = true) := by decide +kernel

theorem leNat_zeros (n : Nat) : leNat (List.replicate n 0) = 0 := by
  induction n with
  | zero => rfl
  | succ n ih =>
    rw [List.replicate_succ, leNat, ih]
    rfl

theorem memFill_nil (a n : Nat) : memFill [] a n = List.replicate n 0 := by
  induction n generalizing a with
  | zero => rfl
  | succ n ih => rw [memFill, ih, List.replicate_succ]

theorem read_of_empty {s : State} (h : s.mem = []) (a n : Nat) : s.read a n = List.replicate n 0 := by
  unfold State.read memReadBytes
  rw [h]
  exact memFill_nil a n

theorem dacc_of_empty {s : State} (h : s.mem = []) (b : Nat) (x : Tile) : ∀ v ∈ (s.readContext b x).dacc.entries, v < 2 ^ 48 := by
  intro v hv
  have z : ∀ w ∈ (List.range daccSize).map (fun j => leNat (s.read (b + 0x150000 + 8 * j) 8)), w = 0 := by
    intro w hw
    obtain ⟨j, -, rfl⟩ := List.mem_map.mp hw
    rw [read_of_empty h, leNat_zeros]
  have m : v ∈ (List.range daccSize).map (fun j => leNat (s.read (b + 0x150000 + 8 * j) 8)) := by
    simp only [State.readContext] at hv
    split at hv
    · exact List.mem_of_mem_take hv
    · exact hv
  rw [z v m]
  decide

/-- A context of an idle tile waits to be restored. -/
def restoringState : State := inState runRestoring {} { contexts := [(State.reset.ctxBase 0, { live := true })] }

theorem witness_context : (inState runSaving).runState 0 = runSaving ∧ restoringState.runState 0 = runRestoring ∧
    (restoringState.tilesAt 0).restored = false ∧ restoringState.contextPoison (restoringState.ctxBase 0) = false ∧
    (∀ v ∈ (restoringState.readContext (restoringState.ctxBase 0) (restoringState.contextsAt (restoringState.ctxBase 0)).tile).dacc.entries, v < 2 ^ 48) ∧
    (restoringState.readContext (restoringState.ctxBase 0) (restoringState.contextsAt (restoringState.ctxBase 0)).tile).acc0.live = false ∧
    (restoringState.readContext (restoringState.ctxBase 0) (restoringState.contextsAt (restoringState.ctxBase 0)).tile).acc1.live = false ∧
    (restoringState.contextsAt (restoringState.ctxBase 0)).scratchEnd = 0 :=
  ⟨by decide +kernel, by decide +kernel, by decide +kernel, by decide +kernel, dacc_of_empty (by decide +kernel) _ _, by decide +kernel,
    by decide +kernel, by decide +kernel⟩

/-- Tile 0 has made no progress for the two epochs of its window; tile 1 works for the same record. -/
def stuckState : State :=
  fields { tiles := [(0, { rec? := some 5, idleEpochs := 2 }), (1, { rec? := some 5 })]
           records := [(5, { stage := .dispatched, tiles := [0, 1] })] }
    [(TILE.RUNSTAT.STATE, runRunning, 0, 0), (TILE.RUNSTAT.STATE, runRunning, 1, 0), (TILE.DLKCTL.WINDOW, 2, 0, 0)]

theorem witness_deadlock : stuckState.runState 0 = runRunning ∧ (begin stuckState).fldEff TILE.DLKCTL.WINDOW 0 ≠ 0 ∧
    (begin stuckState).fldEff TILE.DLKCTL.WINDOW 0 ≤ (stuckState.tilesAt 0).idleEpochs ∧ (stuckState.tilesAt 1).rec? = some 5 ∧
    stuckState.working 1 = true := by decide +kernel

/-! ### Witnesses: stream programs and deliveries -/

/-- One tile of 16 words: a stream-program entry of the given kind. -/
def wordsEntry (kind : Nat) : StreamEntry :=
  { kind := kind, esize := 4, lim := [16, 1, 1, 1], dims := [{ t := 16, e := 16 }], total := 1, bufpitch := 1 }

/-- A block entry with one block of one line. -/
def blockEntry (kind : Nat) : StreamEntry := { kind := kind, blocks := [(1, 0)], total := 1 }

/-- Tile 0 runs a program of one entry; its counter 0 stands at 1. -/
def streamState (e : StreamEntry) (s : State := State.reset) : State :=
  running { prog := some { entries := [e] }, ctrs := 1 :: List.replicate 15 0 } s

theorem witness_stream_start : ∀ e ∈ [wordsEntry 1, wordsEntry 2, wordsEntry 3, wordsEntry 4, blockEntry 5, blockEntry 6],
    ((streamState e).tilesAt 0).mayStart e = true ∧ e.toq = false ∧ ((streamState e).tilesAt 0).void e = false ∧
    (streamState e).entry 0 0 [e.kind] = some ({ entries := [e] }, e) := by decide +kernel

theorem witness_stream_load : ∃ t bs, (begin (streamState (wordsEntry 1))).loadLines (wordsEntry 1) 0 0
    (fun t l n => t.gather 0 false (64 * l) n (.data [])) ((wordsEntry 1).tileLines 0) = (t, .data bs) := ⟨_, _, rfl⟩

/-- Cluster 0 has an open reduction of one line, sealed or not. -/
def redState (e : StreamEntry) (done_ : Bool) : State :=
  streamState e { clusters := [(0, { reds := [(0, { isOpen := true, len := 1, op := 1, isSealed := done_, words := List.replicate 16 0 })] })] }

theorem witness_affine_tiles : (∀ k ∈ [1, 2, 3, 4], entryMoves (streamState (wordsEntry k)) 0 0 k { entries := [wordsEntry k] } (wordsEntry k) ∧
      wholeLines (wordsEntry k)) ∧
    (∀ k ∈ [1, 2], ∀ l ∈ (wordsEntry k).tileLines 0, l.ok.all id = true ∧ reaches (streamState (wordsEntry k)) 0 (lineAt (streamState (wordsEntry k)) 0 (wordsEntry k) l) ∧
      (streamState (wordsEntry k)).poisoned ((lineAt (streamState (wordsEntry k)) 0 (wordsEntry k) l).toNat % 2 ^ 44) 64 = false ∧
      (streamState (wordsEntry k)).poisoned (lineBuf 0 (wordsEntry k) l) 64 = false) ∧
    (∀ k ∈ [3, 4], bits (wordsEntry k).base 59 44 = (redState (wordsEntry k) true).devId) ∧
    (∀ l ∈ (wordsEntry 4).tileLines 0, 0 ≤ l.addr ∧ l.addr % 64 = 0 ∧
      (((redState (wordsEntry 4) true).clustersAt 0).reduction 0).readLine (l.addr.toNat / 64) = some (.ok (List.replicate 64 0))) ∧
    ((((wordsEntry 3).tileLines 0).filter fun l => l.ok.all id).map (·.addr)).Nodup ∧
    ∀ l ∈ (wordsEntry 3).tileLines 0, (redState (wordsEntry 3) false).poisoned (lineBuf 0 (wordsEntry 3) l) 64 = false ∧ 0 ≤ l.addr ∧ l.addr % 64 = 0 ∧
      (((redState (wordsEntry 3) false).clustersAt 0).reduction 0).refuses (bits (wordsEntry 3).base 9 0) (l.addr.toNat / 64) = false := by
  unfold entryMoves wholeLines reaches
  decide +kernel

/-- An entry of a block that moves between the scratchpad's line 1 and memory. -/
theorem witness_block_tiles : (∀ k ∈ [5, 6], entryMoves (streamState (blockEntry k)) 0 0 k { entries := [blockEntry k] } (blockEntry k)) ∧
    Memory.wf (streamState (blockEntry 5)).mem = true ∧
    (∀ j : Nat, j < 1 → reaches (streamState (blockEntry 6)) 0 (0 + 64 * j : Nat) ∧ (streamState (blockEntry 5)).access (.tile 0) (64 * j) = .OK ∧
      (streamState (blockEntry 5)).poisoned (64 * j) 64 = false ∧ (0 + 64 * j) % 2 ^ 44 + 64 ≤ spadBase 0 + (blockEntry 6).blockOff 0) ∧
    (streamState (blockEntry 6)).poisoned (spadBase 0 + (blockEntry 6).blockOff 0) 64 = false ∧
    0 + (streamState (blockEntry 5)).lanePtr ((streamState (blockEntry 5)).tilesAt 0) (blockEntry 5) = 0 := by
  unfold entryMoves reaches
  decide +kernel

theorem witness_stream_rread : ∃ t bs, (begin (redState (wordsEntry 4) true)).loadLines (wordsEntry 4) 0 0
    (fun t l n => if bits (wordsEntry 4).base 59 44 = t.now.devId then (t, t.now.redLines (wordsEntry 4).base l n)
      else t.redFetch 0 (wordsEntry 4).base l n) ((wordsEntry 4).tileLines 0) = (t, .data bs) := ⟨_, _, rfl⟩

theorem witness_stream_store : ∃ t u bs, (begin (streamState (wordsEntry 2))).storeBytes 0 (wordsEntry 2) ((wordsEntry 2).tileLines 0) =
      (t, .data bs) ∧ (t.tilesAt 0).void (wordsEntry 2) = false ∧
    t.storeLines 0 (wordsEntry 2) ((wordsEntry 2).base + t.now.lanePtr (t.tilesAt 0) (wordsEntry 2))
      (((wordsEntry 2).tileLines 0).zip (chunks 64 ((wordsEntry 2).tileLines 0).length bs)) = (u, none) := ⟨_, _, _, rfl, rfl, rfl⟩

theorem witness_stream_contrib : bits (wordsEntry 3).base 59 44 = (redState (wordsEntry 3) false).devId ∧ ∃ t u bs,
    (begin (redState (wordsEntry 3) false)).storeBytes 0 (wordsEntry 3) ((wordsEntry 3).tileLines 0) = (t, .data bs) ∧
    t.contribLines (wordsEntry 3) (((wordsEntry 3).tileLines 0).zip (chunks 64 ((wordsEntry 3).tileLines 0).length bs)) = (u, .OK) :=
  ⟨by decide +kernel, _, _, _, rfl, rfl⟩

theorem witness_stream_bload : ∃ t bs, (begin (streamState (blockEntry 5))).gather 0 false 0 1 (.data []) = (t, .data bs) := ⟨_, _, rfl⟩

theorem witness_stream_bstore : ∃ t, (begin (streamState (blockEntry 6))).blockOut 0 (blockEntry 6) 0 1 1 0 = (t, .inl 1) := ⟨_, rfl⟩

/-- Inbound queues 0 and 1 are open, and a key stream of two digits runs. -/
def keyTile : Tile :=
  { inq := { opened := true } :: { opened := true } :: List.replicate 6 {}, kstream := some { dhi := 1, bq := 0, aq := 1 } }

/-- Key set 0, of parameter set 16, is bound and holds key 0 at address 0. -/
def keyState : State := running keyTile { smallSet 4 with ksets := [(0, { live := true, state := 2, pset := 16, dir := [⟨0, 0, 0, false⟩] })] }

theorem witness_key_pairs : ∃ k r e, (keyState.tilesAt 0).kstream = some k ∧
    (streamRows (keyState.psetCtx (keyState.ksetsAt k.ksid).pset) k 0)[k.next / k.perRow (keyState.psetCtx (keyState.ksetsAt k.ksid).pset)]? = some r ∧
    (keyState.ksetsAt k.ksid).find k.kid = some e ∧ keyState.runState 0 = runRunning ∧ (keyState.ksetsAt k.ksid).bound = true ∧
    k.rot = false ∧ k.dest = false ∧ k.split (keyState.psetCtx (keyState.ksetsAt k.ksid).pset) = false ∧ k.bufB = [] ∧ k.bufA = [] ∧
    8 ≤ keyRing (keyState.psetCtx (keyState.ksetsAt k.ksid).pset).ps k.kid ∧
    keyState.relayStalls 0 k (keyState.psetCtx (keyState.ksetsAt k.ksid).pset) k.next = false ∧ k.bq ≠ k.aq ∧
    k.bq < (keyState.tilesAt 0).inq.length ∧ k.aq < (keyState.tilesAt 0).inq.length ∧ (keyState.tilesAt 0).transfers = [] ∧
    (keyState.tilesAt 0).rx = [] ∧
    keyInReach keyState 0 (keyOf keyState 0 k k.kid e (keyState.psetCtx (keyState.ksetsAt k.ksid).pset).ps) r (k.dlo + k.next % k.digits) ∧
    k.next + 1 < k.total (keyState.psetCtx (keyState.ksetsAt k.ksid).pset) 0 := by
  refine ⟨_, _, _, rfl, rfl, rfl, ?_⟩
  unfold keyInReach
  decide +kernel

/-- A BLINDROT of tile 0 with two coordinates left, the rotation's keys in the set. -/
def rotRun : InFlight := { unit := 5, op := 4, left := 2, gz := some { pset := 16 } }

@[inherit_doc rotRun]
def rotState : State :=
  running { kstream := some (rotationStream 0), engines := [rotRun] }
    { primes := [(0, 97), (1, 193), (2, 257)]
      psets := [(16, { live := true, kinds := 7, logn := 4, numQ := 2, numP := 1, dnum := 1, qslot := [0, 1], pslot := [2], lweN := 2
                       gauze := { brLogn := 4, glev := 1, bgLog := 6 } })]
      ksets := [(0, { live := true, state := 2, pset := 16, dir := [⟨2 ^ 18 + 1, 0, 0, false⟩, ⟨2 * 2 ^ 18, 0, 0, false⟩] })] }

theorem witness_rotation : ∃ k e1 e2, rotState.runState 0 = runRunning ∧ (rotState.tilesAt 0).kstream = some k ∧ k.rot = true ∧
    (rotState.tilesAt 0).engines.find? (fun e => e.gz.isSome && e.left ≠ 0) = some rotRun ∧ 1 < rotRun.left ∧
    (rotState.ksetsAt k.ksid).find (2 * 2 ^ 18) = some e2 ∧ (rotState.ksetsAt k.ksid).find (2 ^ 18 + 1) = some e1 ∧
    rotState.relayStalls 0 k (rotState.psetCtx (rotState.ksetsAt k.ksid).pset) k.next = false ∧
    ∀ σ : Nat, σ < 2 → ∀ r : Nat, r < 2 →
      let key := keyOf rotState 0 k (2 * 2 ^ 18 + k.next) e2 (rotState.psetCtx 16).ps
      let row : KeyRow := { q := (extLimb (rotState.psetCtx 16) 0 0).q, w := r }
      keyInReach rotState 0 key row σ ∧
      nonCanonical row.q (rotState.readWords (key.at_ rotState 0 row σ) (keyRing key.ps key.kid)) = false := by
  refine ⟨_, _, _, by decide +kernel, rfl, by decide +kernel, by decide +kernel, by decide, rfl, rfl, by decide +kernel, ?_⟩
  unfold keyInReach
  decide +kernel

/-- Tile 0 runs a weight stream of two blocks. -/
def weightState (dest : Bool) : State := running { wstreams := [{ dest := dest, nr := 1, nb := 2 }] }

theorem witness_weight_block (dest : Bool) : ∃ v t bs, ((weightState dest).tilesAt 0).wstreams[0]? = some v ∧ v.dest = dest ∧
    (weightState dest).runState 0 = runRunning ∧ blockBytes v.wsd.fmt v.wsd.esc / 4 ≤ ((weightState dest).tilesAt 0).room v.qn ∧
    (∀ o ∈ ((weightState dest).tilesAt 0).wstreams, o.head < v.head → o.dest = true ∨ o.qn ≠ v.qn) ∧
    (begin (weightState dest)).fetchBlock 0 v v.wsd = (t, .data bs) ∧ v.next + 1 < v.nr * v.nb := by
  cases dest <;> exact ⟨_, _, _, rfl, rfl, by decide +kernel, by decide +kernel, by decide +kernel, rfl, by decide +kernel⟩

/-- The cluster holds the stream's first block. -/
def heldBlockState (dest : Bool) : State :=
  { weightState dest with clusters := [(0, { wblocks := [{ head := 0, k := 0, reached := 1, data := some (List.replicate 128 1) }] })] }

theorem witness_held_block (dest : Bool) : ∃ v b, ((heldBlockState dest).tilesAt 0).wstreams[0]? = some v ∧ v.dest = dest ∧
    ((heldBlockState dest).clustersAt 0).wblocks.find? (fun b => b.head = v.head && b.k = v.next) = some b ∧
    b.data = some (List.replicate 128 1) ∧ (heldBlockState dest).runState 0 = runRunning ∧ v.next + 1 < v.nr * v.nb ∧
    bits v.sig 11 10 ≠ 3 ∧ blockBytes v.wsd.fmt v.wsd.esc / 4 ≤ ((heldBlockState dest).tilesAt 0).room v.qn ∧
    (∀ o ∈ ((heldBlockState dest).tilesAt 0).wstreams, o.head < v.head → o.dest = true ∨ o.qn ≠ v.qn) := by
  cases dest <;> exact ⟨_, _, rfl, rfl, rfl, rfl, by decide +kernel⟩

theorem witness_noise : let s : State := { smallSet 4 with clusters := [(0, { noise := [{ pset := 16 }] })] };
    (s.clustersAt 0).noise = [{ pset := 16 }] ∧ (∀ i ∈ clusterTiles 0, (s.tilesAt i).kstream = none) ∧ Memory.wf s.mem = true ∧
    bits (0 : Nat) 63 39 + (0 * (tileLimbs (s.psetCtx 16) 0 .chain 0).length + 0) * 64 + 4 * (s.psetCtx 16).ps.n ≤ s.spadEnd 0 := by decide +kernel

theorem witness_descriptor_load :
    let s : State := { records := [(5, { loads := [{ cluster := 0, slot := 0, rel := false, gep := 1, addr := 0, asked := true }] })] };
    (s.hostLoads 0)[0]? = some (5, 0) ∧
    (s.recordsAt 5).loads[0]? = some { cluster := 0, slot := 0, rel := false, gep := 1, addr := 0, asked := true } ∧
    (List.replicate 32 (0 : Byte)).length = 32 ∧ (s.recordsAt (s.recordsAt 5).leader).gep < 1 := by decide +kernel

/-! ### Witnesses: register writes -/

theorem witness_plain_register : ∃ r k, findRow (Page.PWR).rows PWR.CAPCTL.DOZETMO.off = some (r, k, 0) ∧ (0 : Nat) < (Page.PWR).count ∧
    0x100 ≤ PWR.CAPCTL.DOZETMO.off ∧ PWR.CAPCTL.DOZETMO.off < (Page.PWR).size ∧ PWR.CAPCTL.DOZETMO.off % 4 = 0 ∧ r.words = 1 ∧
    r.writable = true ∧ plainReg .PWR r.off = true ∧ State.reset.takesWrite (.core 0) .PWR 0 = true := ⟨_, _, rfl, by decide +kernel⟩

/-- Every page that the statements write takes SEC's writes right after reset. -/
theorem witness_takes_writes : ∀ p ∈ [Page.TILE, .MEMC, .MEMSYS, .EPOCH, .ERRSYS, .PWR, .MUSLIN, .SCACHE, .ORDER, .ROUTER, .ROUTE, .PWIN, .QE,
    .BAR4MAP, .HWMAP, .GLM, .LINK, .FN, .MBOX, .SEAL, .SERGE, .HASH, .LIFE, .RESET], State.reset.takesWrite (.core 0) p 0 = true := by
  decide +kernel

theorem witness_core_secure : (RegFrom.core 0).world = .secure := by decide

theorem witness_regulator : bit (0x80000000 : Word).toNat 31 = true ∧ bits (0x10000 : Word).toNat 24 16 ≠ 0 := by decide

theorem witness_lend : let s := fields State.reset [(MEMSYS.FARCFG.HALFOK, 3, 0, 0), (MEMSYS.FARCFG.SIZE, 8, 0, 0)];
    s.takesWrite (.core 0) .MEMSYS 0 = true ∧ s.cxl.committed = false ∧ (4 : BitVec 10).toNat + (4 : BitVec 11).toNat ≤ s.fld MEMSYS.FARCFG.SIZE ∧
    s.fld MEMSYS.FARCFG.HALFOK = 3 ∧ (∀ g ∈ s.regions, g.2.live = false) := by decide +kernel

theorem witness_epoch_ctl : 1024 ≤ (1024 : BitVec 17).toNat ∧ (65536 : BitVec 17).toNat ≤ 65536 ∧ (2 : BitVec 2) ≠ 3 ∧
    State.reset.dispatchedOn 0xFF = false := by decide +kernel

theorem witness_cap : 400 ≤ (400 : BitVec 16).toNat ∧ (1900 : BitVec 16).toNat ≤ 1900 ∧ (1 : BitVec 8) ≠ 0 ∧ (1 : BitVec 16) ≠ 0 := by decide

theorem witness_spad_size : State.reset.runState 0 = runIdle ∧ State.reset.flag TILE.SPTEST.EN 0 = false ∧
    State.reset.spadDeclared 0 ≤ (8 : BitVec 7).toNat * 0x80000 ∧ (8 : BitVec 7).toNat ≤ State.reset.fld TILE.SPAD_SIZE.MAX 0 ∧
    8 ≤ (8 : BitVec 7).toNat := by decide +kernel

theorem witness_sptest : (fields State.reset [(TILE.SPAD_SIZE.SIZE, 63, 0, 0)]).fld TILE.SPAD_SIZE.SIZE 0 ≠ 64 := by decide +kernel

theorem witness_offline : bit (State.reset.fld MEMSYS.HALFCTL.OFFLINE) 0 = false ∧ State.reset.mayOffline 0 = true ∧
    (∀ c : Nat, c < 4 → bit (State.reset.fld MEMSYS.HALFCTL.OFFLINE) c = false) ∧ (begin State.reset).now.memctlAt 0 = {} := by decide +kernel

theorem witness_t1500 : let s := fields { memctl := [(0, { shiftOp := 1, shiftLeft := 33 })] } [(MEMC.STAT.STATE, 4, 0, 0)];
    s.takesWrite (.core 0) .MEMC 0 = true ∧ s.fld MEMC.STAT.STATE 0 = 4 ∧ 32 < (s.memctlAt 0).shiftLeft := by decide +kernel

theorem witness_lqbase : State.reset.fld ORDER.LQPROD.PROD = State.reset.fld ORDER.LQCONS.CONS := by decide +kernel

theorem witness_router_ctl : let s := fields State.reset [(RESET.BOOT.READY, 1, 0, 0)];
    s.ready = true ∧ s.flag ROUTER.CTL.READY = false ∧ (begin s).routerHeld (.core 0) = false ∧
    s.takesWrite (.core 0) .ROUTER 0 = true := by decide +kernel

theorem witness_route : (begin State.reset).routerHeld (.core 0) = false ∧ routeNames (0x80000000 : Word).toNat = true ∧
    routeNames (0xB0000000 : Word).toNat = false := by decide +kernel

theorem witness_pwin : let v : BitVec 128 := 2 ^ 127 + 2 ^ 20;
    bit v.toNat 127 = true ∧ bits v.toNat 47 20 ≠ 0 ∧
    State.reset.windowPlaced (bits v.toNat 79 48 * 4096) (bits v.toNat 47 20 * 4096) = true := by decide +kernel

theorem witness_bond : (∀ k, k < 12 → k ≠ 0 → State.reset.fld ROUTER.BOND.MASK 0 k &&& (3 : BitVec 24).toNat = 0) ∧
    (∀ l, l < 24 → bit (3 : BitVec 24).toNat l = true → State.reset.carries l = false) ∧
    (begin State.reset).routerHeld (.core 0) = false := by decide +kernel

theorem witness_fnq : (∀ g, g < 64 → g ≠ 1 →
      rangesMeet (4 : BitVec 18).toNat (4096 : BitVec 19).toNat (State.reset.fld QE.FNQ.BASE 0 g) (State.reset.fld QE.FNQ.COUNT 0 g) = false) ∧
    (∀ q ∈ State.reset.queues, q.2.state = 0) ∧ (4096 : BitVec 19).toNat ≤ 4096 ∧ (4 : BitVec 18).toNat + (4096 : BitVec 19).toNat ≤ 2 ^ 18 := by
  decide +kernel

theorem witness_bar4map : State.reset.segCheck 0 (2 ^ 127 : BitVec 128).toNat = .OK := by decide +kernel

theorem witness_dvfs : (5 : BitVec 3).toNat ≤ 5 ∧ (begin State.reset).det = false ∧ State.reset.flag (HDR.OWNER.HOLD .TILE) 0 = false := by
  decide +kernel

theorem witness_glm_event : State.reset.glm.events.contains 4 = false := by decide

theorem witness_block_control : (Page.TILE).hasBlkCtrl = true ∧ (0 : Nat) < (Page.TILE).count ∧
    (∃ page : BitVec 14, (Page.TILE).base 0 = 4096 * page.toNat) ∧ State.reset.flag (HDR.OWNER.HOLD .TILE) 0 = false ∧
    State.reset.fld (HDR.BLK_CTRL.SRST .TILE) 0 = 0 ∧ State.reset.graphsOn (2 ^ pageCluster .TILE 0) = false ∧
    State.reset.placedOn (2 ^ pageCluster .TILE 0) = false ∧ State.reset.runState 0 = runIdle :=
  ⟨by decide +kernel, by decide +kernel, ⟨BitVec.ofNat 14 ((Page.TILE).base 0 / 4096), by decide +kernel⟩, by decide +kernel⟩

theorem witness_block_test : let s := fields State.reset [(HDR.BLK_CTRL.EN .TILE, 0, 0, 0), (QE.MODE.SERVICE, 0, 0, 0)];
    s.flag (HDR.BLK_CTRL.EN .TILE) 0 = false ∧ s.flag (HDR.BLK_CTRL.TEST .TILE) 0 = false ∧ s.flag QE.MODE.SERVICE = false ∧
    s.anyDomain = false ∧ s.takesWrite (.core 0) .TILE 0 = true ∧ s.fld (HDR.BLK_CTRL.SRST .TILE) 0 = 0 := by decide +kernel

/-- Writing 1 clears a W1C bit, and RW fields take the value written (R10). -/
theorem test_register_write : answers (.registerWrite (.core 0) (BitVec.ofNat 26 (PWR.CAPCTL.DOZETMO.addr 0 0)) 4 0xFFFFFFFF) State.reset
    (fun t => t.fld PWR.CAPCTL.DOZETMO = 2 ^ PWR.CAPCTL.DOZETMO.width - 1) := by decide +kernel

/-! ### Witnesses: queues, records, sessions -/

/-- Queue 1 has two completions to consume. -/
def bellState (st : Nat) : State := readyState { queues := [(1, { state := st, cqes := 2 })] }

theorem witness_doorbells : (∀ st ∈ [1, 4], hostOpen (bellState st) = true ∧ (bellState st).bellQ 0 1 = some 1 ∧
      ((bellState st).queuesAt 1).state ≠ 0 ∧
      ((16 : BitVec 16).toNat + 0x10000 - ((bellState st).queuesAt 1).head % 0x10000) % 0x10000 ≤ ((bellState st).queuesAt 1).slots ∧
      ((2 : BitVec 16).toNat + 0x10000 - ((bellState st).queuesAt 1).consumed % 0x10000) % 0x10000 ≤
        ((bellState st).queuesAt 1).cqes - ((bellState st).queuesAt 1).consumed) ∧
    (bellState 1).bellQ 0 16 = none ∧
    State.reset.tripped = false ∧ State.reset.fatal = false ∧ State.reset.slumber = false ∧ State.reset.ready = false := by decide +kernel

/-- Control queue 0 is ACTIVE with one record announced; `wr` is what has been fetched of it. -/
def recordState (wr : List Byte) : State := readyState { queues := [(0, { state := 1, tail := 1, wr := wr })] }

theorem witness_record_fetch : let s := recordState []; let x := s.queuesAt 0;
    x.state = 1 ∧ x.head ≠ x.tail ∧ (s.pcieAt ((s.fnOf 0).getD 0)).flr = false ∧ x.ringLocal 192 = false ∧ x.wr = [] ∧
    s.slotFree 0 = true ∧ x.ringLocal 128 = false ∧ bit x.ctx 96 = false ∧ (List.replicate 64 (0 : Byte)).length = 64 := by decide +kernel

theorem witness_record_admit : ∀ op ∈ [(0 : Byte), 0x85], let s := recordState (op :: List.replicate 63 0);
    hostOpen s = true ∧ s.power.trans.any (·.1 = 3) = false ∧ s.flag STRAP.VAL.RECOVERY = false ∧ s.rotate.map (·.1) = some 0 ∧
    s.headRecord (s.queuesAt 0) = some (op :: List.replicate 63 0, .OK) ∧ s.isControl 0 = true := by decide +kernel

theorem witness_cqe : let s := readyState { queues := [(0, { state := 1 })], records := [(5, { stage := .finished, result := some (.RANGE, 0) })] };
    (s.recordsAt 5).stage = .finished ∧ (s.recordsAt 5).outcome.1 ≠ .EXPIRED ∧ (s.queuesAt (s.recordsAt 5).qid).ringLocal 128 = false ∧
    bit (s.queuesAt (s.recordsAt 5).qid).ctx 96 = false := by decide +kernel

theorem witness_interrupt_timer : let s := { readyState { queues := [(0, { timer := some 0 })], pcie := [(0, { msixOn := true })] } with
      regs := mapInsert (readyState {}).regs ((Page.MSIXPF).base 0 + 12) 0 };
    (s.queuesAt 0).timer = some 0 ∧ s.fnOf 0 = some 0 ∧ (s.pcieAt 0).msixOn = true ∧ (s.pcieAt 0).msixMask = false ∧
    (∃ p, msixAt 0 (s.queuesAt 0).vector = some ((Page.MSIXPF).base 0 + 12, p)) ∧
    bit (s.regsAt ((Page.MSIXPF).base 0 + 12)).toNat 0 = false :=
  ⟨by decide +kernel, by decide +kernel, by decide +kernel, by decide +kernel, ⟨_, rfl⟩, by decide +kernel⟩

theorem witness_queue_commands : ∀ st < 5, let s := bellState st;
    s.takesWrite (.core 0) .FN 0 = true ∧ s.flag FN.QCMDSTAT.BUSY 0 = false ∧
    (fields s [(FN.QSEL.INDEX, 1, 0, 0)]).localQ 0 ((fields s [(FN.QSEL.INDEX, 1, 0, 0)]).fld FN.QSEL.INDEX 0) = some 1 ∧
    (s.queuesAt 1).state = st ∧ s.reserved 1 = 0 ∧ s.outstanding 1 = 0 ∧ (s.queuesAt 1).ctx < 2 ^ 256 := by decide +kernel

theorem witness_queue_step (s : State) (x : Queue) (h : x.state = 1) : ∃ y, (Instr.suspend (.core 0) 0, true, y) ∈ queueStep (.core 0) 0 s 1 x :=
  ⟨{ x with state := 4 }, by simp [queueStep, h]⟩

/-- Queue 1, selected by function 0, is HELD with the admitted record 5. -/
def heldState : State :=
  fields (readyState { queues := [(1, { state := 2 })], records := [(5, { stage := .admitted, qid := 1 })] }) [(FN.QSEL.INDEX, 1, 0, 0)]

theorem witness_release_abort : let s := heldState;
    s.localQ 0 (s.fld FN.QSEL.INDEX 0) = some 1 ∧ (s.queuesAt 1).state = 2 ∧
    (s.records.filter fun k => k.2.stage = .admitted && k.2.qid = 1).map (·.1) = [5] := by decide +kernel

/-- Record 5, a control record of function 0 with the given opcode and fields, is the next to run. -/
def controlState (op : Nat) (x : RunRec := {}) (s : State := State.reset) : State :=
  readyState { s with records := [(5, { x with stage := .admitted, opcode := op })] }

theorem witness_nonce : let s := controlState 0x80; runsControl s 5 0x80 = true ∧ isHostWin (s.recordsAt 5).outPtr = false ∧
    s.writeStatus .fw (s.recordsAt 5).outPtr 64 = .OK ∧ (s.qe.nonces.filter fun n => n.1 = 0).length < 16 ∧
    (∀ n ∈ s.qe.nonces, s.nonceLive n = true) := by decide +kernel

/-- Function 0's nonce of zeros is outstanding, and key set 0 is verified on a set that meets R41. -/
def openState : State :=
  fields (controlState 0x81 { inPtr := 0x1000 } { smallSet 4 with
    psets := [(16, { live := true, security := 1 })], ksets := [(0, { live := true, state := 1, pset := 16 })]
    qe := { nonces := [(0, List.replicate 32 0, 0)] }, mem := [⟨0x1020, 1⟩] }) [(QE.MODE.SERVICE, 0, 0, 0)]

theorem witness_session_open : runsControl openState 5 0x81 = true ∧ isHostWin (openState.recordsAt 5).inPtr = false ∧
    (openState.readRange .fw 0x1000 256).2 = .OK ∧
    openState.openCheck (openState.recordsAt 5) (openState.readRange .fw 0x1000 256).1 = (.OK, true) := by decide +kernel

/-- Session 0 is open for function 0; queue 1 is bound to it where `bound`. -/
def sessionState (op : Nat) (bound : Bool) : State :=
  controlState op { arg := 1 } { queues := [(1, { sid := if bound then some 0 else none })]
                                 sessions := [(0, { state := 1, expires := 0 })], ksets := [(0, { live := true, state := 2 })] }

theorem witness_session_bind : let s := sessionState 0x82 false;
    runsControl s 5 0x82 = true ∧ s.localQ 0 (bits (s.recordsAt 5).arg 17 0) = some 1 ∧ (s.sessionsAt 0).state = 1 ∧
    bits (s.recordsAt 5).arg 17 0 ≠ 0 ∧ (s.queuesAt 1).sid = none ∧ (s.boundTo 0).length < 4096 := by decide +kernel

theorem witness_session_unbind : let s := sessionState 0x83 true;
    runsControl s 5 0x83 = true ∧ s.localQ 0 (bits (s.recordsAt 5).arg 17 0) = some 1 ∧ (s.sessionsAt 0).state ≠ 0 ∧
    (s.queuesAt 1).sid = some 0 ∧ s.reserved 1 = 0 := by decide +kernel

theorem witness_session_close : ∀ op ∈ [0x84, 0x85], let s := sessionState op true;
    runsControl s 5 op = true ∧ (s.sessionsAt (s.recordsAt 5).sid).state ≠ 0 ∧ isHostWin (s.recordsAt 5).outPtr = false ∧
    s.writeStatus .fw (s.recordsAt 5).outPtr 64 = .OK := by decide +kernel

theorem witness_session_ends : let v : Session := { state := 1, expires := 3 };
    let s : State := fields { sessions := [(0, v), (1, { state := 2, ksid := 1 })], ksets := [(1, { live := true, state := 2, sid := 1 })] }
      [(EPOCH.COUNTLO.COUNT, 3, 0, 0)];
    s.sessionsAt 0 = v ∧ v.expires ≠ 0 ∧ v.expires ≤ s.epochCount ∧ (s.sessionsAt 1).state = 2 ∧ s.inFlight 1 = 0 ∧
    (s.ksetsAt (s.sessionsAt 1).ksid).live = true := by decide +kernel

theorem witness_flr : State.reset.tripped = false ∧ State.reset.fnRecords 0 = [] := by decide +kernel

theorem witness_reset_inv : State.reset.Inv := by
  constructor <;> decide +kernel

/-! ### Host memory, the mailbox and the management port -/

/-- BAR4 segment 0 of function 0 maps the memory at `a` (with TARGET 1 a scratchpad's), writable. -/
def mappedState (target a : Nat) : State :=
  readyState (fields State.reset [(BAR4MAP.VALID, 1, 0, 0), (BAR4MAP.W, 1, 0, 0), (BAR4MAP.TARGET, target, 0, 0), (BAR4MAP.BASE, a, 0, 0)])

theorem witness_bar4 : (∀ w ∈ [true, false], (mappedState 0 0).bar4At 0 60 w = (.OK, 60)) ∧ (mappedState 0 0).barGate = .pass ∧
    (mappedState 0 0).tripped = false ∧ (60 : BitVec 40).toNat % 64 + 4 ≤ 64 ∧ (mappedState 0 0).poisoned 60 4 = false ∧
    (mappedState 0 0).poisoned 60 1 = false := by decide +kernel

theorem witness_bar4_atomic : ∀ n ∈ ([4, 8] : List Nat), (mappedState 1 spadSpace).bar4At 0 64 true = (.OK, spadSpace + 64) ∧
    isSpad (spadSpace + 64) = true ∧ (spadSpace + 64) % n = 0 ∧ (mappedState 1 spadSpace).barGate = .pass ∧
    (mappedState 1 spadSpace).tripped = false ∧ (mappedState 1 spadSpace).poisoned (spadSpace + 64) n = false := by decide +kernel

theorem witness_bar4_beyond : (mappedState 0 0).bar4At 0 (2 ^ 36) false = (.RANGE, 0) := by decide +kernel

theorem witness_bar4_part : (mappedState 1 spadSpace).bar4At 0 66 true = (.OK, spadSpace + 66) ∧ isSpad (spadSpace + 66) = true ∧
    partWord (spadSpace + 66) 1 = true ∧ partWord (spadSpace + 64) 4 = false ∧ (mappedState 1 spadSpace).barGate = .pass ∧
    (mappedState 1 spadSpace).tripped = false ∧ (mappedState 1 spadSpace).poisoned (spadSpace + 66) 1 = false := by decide +kernel

/-- 8 GiB of the far tier are lent, the HDM decoder is committed onto them. -/
def lentState : State :=
  fields { cxl := { committed := true, base := 0x4000, size := 2 ^ 33 } }
    [(MEMSYS.LEND.SIZE, 8, 0, 0), (MEMSYS.FARCFG.SIZE, 1024, 0, 0), (MEMSYS.FARCFG.HALFOK, 3, 0, 0)]

theorem witness_cxl : lentState.tripped = false ∧ lentState.cxl.committed = true ∧
    (∀ h ∈ ([0x4000, 0x200003FC0] : List Nat), lentState.cxl.base ≤ (BitVec.ofNat 64 h).toNat ∧
      (BitVec.ofNat 64 h).toNat < lentState.cxl.base + lentState.cxl.size ∧
      lentState.access .cxl (lentState.lentRange.1 + (h - lentState.cxl.base)) = .OK ∧
      lentState.poisoned (lentState.lentRange.1 + (h - lentState.cxl.base)) 1 = false) := by decide +kernel

theorem witness_hdm_and_mailbox : hostOpen (readyState) = true ∧ readyState.cxl.committed = false ∧ readyState.lendBytes = 0 ∧
    hostOpen (readyState { lentState with cxl := {} }) = true ∧ (readyState { lentState with cxl := {} }).lendBytes = 2 ^ 33 ∧
    readyState.tripped = false ∧ readyState.fatal = false ∧ readyState.ready = true := by decide +kernel

/-- A mailbox message with the given opcode and payload. -/
def message (op : Nat) (payload : List Byte) : List Byte :=
  natLe 2 0x4D42 ++ [0, 1] ++ natLe 2 op ++ [0, 0] ++ natLe 4 7 ++ natLe 2 payload.length ++ [0, 0] ++ payload

/-- Endpoint `k` has the pending request, every feature granted. -/
def askState (k : Nat) (m : List Byte) (s : State := State.reset) : State :=
  readyState (fields { s with mboxes := [(k, { grant := some 0x3F, request := m })] } [(QE.MODE.SERVICE, 1, 0, 0)])

/-- Function 0 and management endpoint 8 each ask with the message. -/
def asksBoth (op : Nat) (payload : List Byte) (s : State := State.reset) : Bool :=
  [0, mgmtKey 8].all fun k =>
    let s := askState k (message op payload) s
    (s.mboxesAt k).request = message op payload && message op payload ≠ [] && msgOp (message op payload) = op && !s.tripped && !s.fatal &&
      !s.slumber && s.requestCheck k (message op payload) = .OK

theorem witness_mbox_service : asksBoth 1 (natLe 4 0x3F ++ natLe 4 0) = true ∧ asksBoth 2 [] = true ∧ asksBoth 0x51 [] = true ∧
    asksBoth 0x40 (natLe 8 0) (fields State.reset [(MEMC.STAT.STATE, 4, 0, 0)]) = true ∧
    asksBoth 0x50 (natLe 8 0 ++ natLe 4 64) = true ∧ unitController 0 = some 0 ∧
    0 < (askState 0 []).fld MEMC.INFO.CHAN 0 := by decide +kernel

theorem witness_patch_stage : let s := askState 0 (message 0x50 (natLe 8 0 ++ natLe 4 64)) { fw := { types := List.replicate 4 {} } };
    s.requestCheck 0 (message 0x50 (natLe 8 0 ++ natLe 4 64)) = .OK ∧ s.readRange .sec 0 64 = (List.replicate 64 0, .OK) ∧
    0 < s.fw.types.length := by decide +kernel

theorem witness_mbox_tables : asksBoth 0x10 (64 :: List.replicate 31 0) = true ∧ asksBoth 0x11 [64, 0, 0, 0] = true ∧
    asksBoth 0x12 (16 :: List.replicate 255 0) = true ∧ asksBoth 0x13 [16, 0, 0, 0] = true ∧ asksBoth 0x20 (List.replicate 80 0) = true ∧
    asksBoth 0x21 [0, 0, 0, 0] = true ∧ asksBoth 0x30 (List.replicate 16 0) = true ∧ asksBoth 0x31 [0, 0, 0, 0] = true := by decide +kernel

theorem witness_mbox_removals : State.reset.slotCheck 64 = none ∧
    (smallSet 4).psetsAt 16 = { live := true, kinds := 7, logn := 4, numQ := 2, numP := 1, dnum := 1, qslot := [0, 1], pslot := [2] } ∧
    (smallSet 4).psetInGraph 16 = false ∧ (smallSet 4).psetInSession 16 = false ∧ (smallSet 4).boundKeys 16 = false ∧
    ((smallSet 4).ksets.any fun k => k.2.live && k.2.pset = 16) = false := by decide +kernel

/-- A key set's directory of two entries lies poisoned in its second line. -/
theorem witness_directory : let s : State := { poison := [(1, true)], mem := [⟨4, 0xFF⟩] };
    s.poisoned (0 + 16 * 4) 16 = true ∧ s.poisoned (0 + 16 * 0) 16 = false ∧ dirEntryOf (leNat (s.read (0 + 16 * 0) 16)) = none ∧
    (s.readRange .sec 0 128).2 = .POISON := by decide +kernel

theorem witness_mbox_arrives : let e : BitVec 8 := 8; let m := message 1 (natLe 8 0);
    let s := readyState (fields { mboxes := [(mgmtKey e, { grant := some 0 })] } [(RESET.BOOT.STAGE, 0xF0, 0, 0)]);
    s.mgmtUp = true ∧ (s.mboxesAt (mgmtKey e)).request = [] ∧ s.mboxesAt (mgmtKey e) ≠ {} ∧ (s.mboxesAt (mgmtKey e)).seq = none ∧
    s.requestCheck (mgmtKey e) m = .OK := by decide +kernel

/-- Boot has ended, or has come to stage 0x20. -/
def bootState (ready : Bool) : State := if ready then readyState (fields {} [(RESET.BOOT.STAGE, 0xF0, 0, 0)])
  else fields {} [(RESET.BOOT.STAGE, 0x20, 0, 0)]

theorem witness_management : (∀ r ∈ [true, false], (bootState r).mgmtUp = true ∧ (bootState r).ready = r ∧ (bootState r).tripped = false) ∧
    (fields (bootState false) [(STRAP.VAL.MGMT, 1, 0, 0)]).fld STRAP.VAL.MGMT = 1 ∧ (bootState false).fld STRAP.VAL.MGMT = 0 ∧
    ({ bootState false with fw := { afterPor := true } } : State).fw.afterPor = true ∧ (bootState false).fatal = false := by decide +kernel

/-- Both SPDM endpoints stand at the connection. -/
def spdmState (c : Spdm) : State := { bootState true with spdm := [(0, c), (SpdmFrom.key (.mgmt 8), c)] }

theorem witness_attestation : ∀ c ∈ [({ version := some 0 } : Spdm), { version := some 0x12, caps := true }, { version := some 0x13, caps := true, algs := true }],
    ∀ o ∈ [SpdmFrom.doe, .mgmt 8], (spdmState c).spdmOpen o = true ∧ 0x40 ≤ (spdmState c).fld RESET.BOOT.STAGE ∧
      (spdmState c).spdmAt o.key = c := by decide +kernel

/-! ### Firmware cores, scratchpads and memory controllers -/

/-- Core 2 (SCH) handles a request of core 3, which waits for its reply; core 4's request to core 2 is no longer awaited. -/
def coreState (from_ : Nat) : State :=
  { cores := [(2, { handling := some (from_, 7) }), (3, { waiting := [(2, 7)], late := [(9, 5)] })] }

theorem witness_cores : (coreState 3).coresRun = true ∧ ((coreState 3).coresAt 3).handling = none ∧
    ((coreState 3).coresAt 2).requests.length < 16 ∧ ((coreState 3).coresAt 3).waiting.length < 16 ∧
    ((coreState 3).coresAt 2).handling ≠ none ∧ coreRank 3 ≤ coreRank 2 ∧ ((coreState 3).coresAt 2).handling = some (3, 7) ∧
    ((coreState 3).coresAt 3).waiting.contains (2, 7) = true ∧ ((coreState 4).coresAt 2).handling = some (4, 7) ∧
    ((coreState 4).coresAt 4).waiting.contains (2, 7) = false ∧ (∀ x ∈ controlTargets 0xFF, coreRank x.2 < coreRank 2) ∧
    (∃ x ∈ controlTargets 0x100, coreRank 2 ≤ coreRank x.2) ∧ ((coreState 3).coresAt 3).waiting[0]? = some (2, 7) ∧
    (coreState 3).recordsOn 0 = [] ∧ (coreState 3).coreWrites 3 = false := by decide +kernel

theorem witness_spad : State.reset.writeStatus .fw (spadBase 0 + 64) 64 = .OK ∧ isSpad (spadBase 0 + 8) = true ∧ (spadBase 0 + 8) % 8 = 0 ∧
    State.reset.access .fw (spadBase 0 + 8) = .OK ∧ State.reset.poisoned (spadBase 0 + 8) 8 = false ∧ ({ primes := [(0, 97 + 2 ^ 127)] } : State).primeValid 0 = true ∧
    (fields State.reset [(TILE.SPTSTAT.STATE, 1, 0, 0)]).fld TILE.SPTSTAT.STATE 0 = 1 ∧
    ((fields State.reset [(TILE.SPTSTAT.STATE, 1, 0, 0)]).tilesAt 0).sptUnit = 0 ∧ (8192 : Nat) / 8192 ≠ 0 ∧ (8192 : Nat) / 8192 ≠ 63 := by
  decide +kernel

theorem witness_spad_words : (∀ k ∈ linesOf (spadBase 0 + 64) 64, State.reset.isFar (64 * k) = false) ∧
    State.reset.writeStatus .fw (spadBase 0 + 64) 8 = .OK ∧ partWord (spadBase 0 + 64) 8 = false ∧
    State.reset.writeStatus .fw (spadBase 0 + 64) 2 = .OK ∧ partWord (spadBase 0 + 64) 2 = true ∧
    (64 ≤ 4 * (17 : BitVec 23).toNat ∧ 4 * (17 : BitVec 23).toNat < 64 + 8) ∧ State.reset.inEpoch 0 = false ∧
    (running {}).inEpoch 0 = true := by decide +kernel

theorem witness_atom_reduction : let s : State := { clusters := [(0, { reds := [(3, { isOpen := true, op := 8, len := 1, words := List.replicate 16 0 })] })] };
    ((s.clustersAt 0).reduction 3).isOpen = true ∧ ((s.clustersAt 0).reduction 3).op = 8 ∧
    (15 : Nat) < 16 * ((s.clustersAt 0).reduction 3).len := by decide +kernel

/-- What the controller serves: a read and a write of the line at 64. -/
def lineRead : LineReq := { cls := 0, who := .fw, a := 64, op := .read 64 }
@[inherit_doc lineRead] def lineWrite : LineReq := { cls := 0, who := .fw, a := 64, op := .write [1, 2] }

/-- Controller 0 with its tokens after `n` line slots. -/
def refilled (s : State) (n : Nat) : MemCtl := { s.memctlAt 0 with tokens := s.refill 0 n (s.memctlAt 0).tokens }

/-- The buckets of controller 0 are empty, and its regulators neither fill nor conserve. -/
def dryState : State :=
  { memctl := [(0, { tokens := List.replicate 8 0 })]
    regs := ((List.range 8).foldl (fun t p => t.putRegs (MEMC.REG.WC.addr 0 p) 0) (begin State.reset)).now.regs }

theorem witness_line_serve : isNear 64 = true ∧ State.reset.controllerOf 64 = 0 ∧ State.reset.access .fw 64 = .OK ∧
    State.reset.poisonAt 1 = false ∧ State.reset.writeStatus .fw 64 2 = .OK ∧
    (State.reset.grants 0 (refilled State.reset 1) lineRead false).isSome = true ∧
    (State.reset.grants 0 (refilled State.reset 1) lineWrite true).isSome = true ∧
    dryState.grants 0 (refilled dryState 1) lineRead true = none ∧ (refilled dryState 1).waiting.contains lineRead = false := by decide +kernel

/-- A MOVE's line, which waits at its controller. -/
def waitingMove : Transfer := { lines := 1, ref := .spad 0 }

@[inherit_doc waitingMove]
def waitingState : State := { running { transfers := [waitingMove] } with memctl := [(0, { waiting := [waitingMove.lineReq 0] })] }

theorem witness_transfer_line : let q := { waitingState.memctlAt 0 with tokens := waitingState.refill 0 1 (waitingState.memctlAt 0).tokens }
    (waitingState.tilesAt 0).transfer 0 = some waitingMove ∧ waitingMove.next < waitingMove.lines ∧ isNear (waitingMove.lineReq 0).a = true ∧
    waitingState.controllerOf (waitingMove.lineReq 0).a = 0 ∧ q.waiting.contains (waitingMove.lineReq 0) = true ∧
    (waitingState.grants 0 q (waitingMove.lineReq 0) false).isSome = true := by decide +kernel

theorem witness_controllers : let s := fields State.reset [(MEMC.STAT.STATE, 2, 0, 0), (MEMC.STAT.STATE, 1, 5, 0)];
    s.fld MEMC.STAT.STATE 0 = 2 ∧ s.fld MEMC.STAT.STATE 5 = 1 ∧ s.tripped = false ∧ s.fatal = false ∧
    (1 : Nat) ≠ 5 ∧ s.fld MEMC.STAT.STATE 1 ≠ 2 ∧ s.fld MEMC.STAT.STATE 1 ≠ 5 := by decide +kernel

theorem witness_calibration : let s : State := fields { memctl := [(1, { calEpoch := 1, trainTemp := some 50 }), (2, { trainTemp := some 50 })] } [
      (MEMC.STAT.STATE, 2, 0, 0), (MEMC.STAT.STATE, 2, 1, 0), (MEMC.STAT.STATE, 2, 2, 0)];
    s.fld MEMC.STAT.STATE 1 = 2 ∧ (s.memctlAt 1).calEpoch ≠ s.epochCount ∧ (s.memctlAt 2).trainTemp = some 50 ∧ (s.memctlAt 0).trainTemp = none ∧
    50 + 20 < (71 : BitVec 8).toNat ∧ ({ memctl := [(0, {})] } : State).epochCount = 0 ∧
    (({ memctl := [(0, { calEpoch := 0 })] } : State).memctlAt 0).calEpoch = 0 := by decide +kernel

/-- A fill of the lent range is in progress; `g` is the region that is being given back. -/
def fillState (g : Region) : State :=
  readyState (fields { regions := if g.live then [(lentRegion, g)] else [] } [(MEMSYS.LEND.BUSY, 1, 0, 0)])

theorem witness_lend_fill : (∀ g ∈ [({} : Region), { live := true, base := farBase, size := 512 }], (fillState g).flag MEMSYS.LEND.BUSY = true ∧
      (fillState g).ready = true ∧ ((fillState g).regionsAt lentRegion).live = g.live) ∧
    (fillState {}).lentRange.1 = (fillState {}).lentRange.2 := by decide +kernel

/-! ### Peer links and the peer protocol -/

/-- The fields of link 0, its state and `x`; the router is READY; device 7 is reached by link 0. -/
def linkedState (st : Nat) (x : Link := {}) (s : State := State.reset) : State :=
  fields { s with links := (0, x) :: s.links }
    [(LINK.CTL.EN, 1, 0, 0), (LINK.STAT.STATE, st, 0, 0), (ROUTER.CTL.READY, 1, 0, 0), (ROUTE.VALID, 1, 0, 7), (ROUTE.PRI, 0, 0, 7)]

/-- A posted write of one line for device 7. -/
def transitPacket : Packet := { type := ptWR, dst := 7, src := 3, len := 1, ttl := 5, payload := List.replicate 64 1 }

theorem witness_link_states : (∀ st ∈ [linkDOWN, linkTRAINING], (linkedState st).flag LINK.CTL.EN 0 = true ∧
      (linkedState st).linkState 0 ≤ linkTRAINING ∧ (linkedState st).slumber = false ∧ (linkedState st).tripped = false) ∧
    alone (linkedState linkUP) 0 ∧ (linkedState linkUP).memoryTrained = false ∧ (7 : Nat) ≠ (linkedState linkUP).devId ∧
    (linkedState linkUP).linkState 0 = linkUP ∧ (linkedState linkUP).carries 0 = true ∧
    (∀ st ∈ [linkQUAR, linkUP, linkDOWN, linkTRAINING], (linkedState st).takesWrite (.core 0) .LINK 0 = true ∧
      (linkedState st).linkState 0 = st) := by unfold alone; decide +kernel

theorem witness_replay : ∀ n ∈ ([7, 8] : List Nat), (linkedState linkUP { retry := [⟨0, transitPacket, 0⟩], replays := n }).carries 0 = true ∧
    ((linkedState linkUP { retry := [⟨0, transitPacket, 0⟩], replays := n }).linksAt 0).retry ≠ [] := by decide +kernel

theorem witness_flits : let s := linkedState linkUP; let f : Flit := { ack := 4095, packets := [transitPacket] };
    s.carries 0 = true ∧ (1 : BitVec 12).toNat ≠ (s.linksAt 0).rxSeq ∧ f.fseq.toNat = (s.linksAt 0).rxSeq ∧
    ((s.linksAt 0).txSeq + 8191 - f.ack.toNat) % 4096 ≤ (s.linksAt 0).retry.length ∧
    (s.linksAt 0).credits.getD (creditIx f.cvc f.ccls) 0 + f.credits.toNat ≤ 512 ∧ transitPacket.cls < 2 ∧ transitPacket.fault = none ∧
    transitPacket.units ≤ 512 ∧ s.strayReply transitPacket = false := by decide +kernel

theorem witness_transmit : let s := linkedState linkUP {} { txq := [⟨transitPacket, false, none⟩] };
    s.txHop ⟨transitPacket, false, none⟩ = .via 0 false ∧ s.canStart 0 transitPacket 0 = true ∧ (s.linksAt 0).txSeq < 4096 ∧
    (State.reset).txHop ⟨{ transitPacket with vc := 1 }, false, none⟩ = .none := by decide +kernel

theorem witness_forward : ∀ ttl ∈ ([0, 1] : List Nat), (linkedState linkUP { rx := [{ transitPacket with ttl := ttl }] }).head 0 0 0 = some { transitPacket with ttl := ttl } ∧
    (linkedState linkUP).isHere transitPacket = false ∧ (linkedState linkUP).flag ROUTER.CTL.READY = true ∧
    (linkedState linkUP).hop transitPacket = .via 0 false ∧ (linkedState linkUP).canStart 0 transitPacket 0 = true := by decide +kernel

/-- A packet of a type for this module, from device 7, its channel filled in. -/
def herePacket (p : Packet) : Packet := { p with src := 7, dst := 0, vc := (typeVc p.type).getD 0 }

/-- The packet is at the head of link 0's buffer; window 0 opens the memory from 0 for all devices. -/
def peerState (p : Packet) (s : State := State.reset) : State :=
  fields (linkedState linkUP { rx := [herePacket p] } s)
    [(PWIN.VALID, 1, 0, 0), (PWIN.R, 1, 0, 0), (PWIN.W, 1, 0, 0), (PWIN.A, 1, 0, 0), (PWIN.SRCHI, 0xFFFF, 0, 0), (PWIN.SIZE, 0x4000, 0, 0)]

/-- The window checks' outcome for `n` lines: none where a window admits them that posts no notification. -/
def windowRefusal (s : State) (p : Packet) (n : Nat) : Option Status :=
  match s.windowCheck p p.addr n with
  | .ok w => if bit w 122 then some .OK else none
  | .error st => some st

/-- A write of one line at 128, a read of one there, an atomic addition in tile 0's scratchpad, and a write that
begins in the last line of its window and ends outside it. -/
def writePacket (a : Nat) (n : Nat := 1) : Packet := herePacket { type := ptWR, len := n, addr := a, payload := List.replicate (64 * n) 9 }
@[inherit_doc writePacket] def readPacket : Packet := herePacket { type := ptRD, addr := 128 }
@[inherit_doc writePacket] def atomPacket : Packet :=
  herePacket { type := ptATOM, len := 1, addr := spadBase 0, payload := [0, 4, 0, 0, 0, 0, 0, 0, 5] ++ List.replicate 55 0 }

theorem witness_peer_requests : takes (peerState (writePacket 128)) 0 0 ptWR (writePacket 128) ∧
    takes (peerState (writePacket 0x3FFFFC0 2)) 0 0 ptWR (writePacket 0x3FFFFC0 2) ∧
    (7 : Nat) ≠ (peerState (writePacket 128)).devId ∧ windowRefusal (peerState (writePacket 128)) (writePacket 128) 1 = none ∧
    (peerState (writePacket 128)).writeStatus .peer 128 64 = .OK ∧ takes (peerState readPacket) 0 0 ptRD readPacket ∧
    windowRefusal (peerState readPacket) readPacket 1 = none ∧ ((peerState readPacket).readRange .peer 128 64).2 ≠ .DENIED ∧
    windowRefusal (peerState (writePacket 0x3FFFFC0 2)) (writePacket 0x3FFFFC0 2) 2 = some .WINDOW := by
  unfold takes; decide +kernel

theorem witness_peer_lines : ∀ k ∈ linesOf (128 / 64 * 64) 64, State.reset.access .peer (64 * k) ≠ .DENIED := by decide +kernel

/-- Window 0 opens the scratchpads instead. -/
def peerSpadState (p : Packet) : State := fields (peerState p) [(PWIN.BASE, spadSpace / 4096, 0, 0)]

theorem witness_peer_atom : takes (peerSpadState atomPacket) 0 0 ptATOM atomPacket ∧
    windowRefusal (peerSpadState atomPacket) atomPacket 1 = none ∧ isSpad atomPacket.addr = true ∧
    (peerSpadState atomPacket).packetAtom atomPacket.payload = some .add ∧ leNat ((atomPacket.payload.drop 1).take 1) = 4 ∧
    (peerSpadState atomPacket).access .peer atomPacket.addr = .OK ∧ (peerSpadState atomPacket).poisoned atomPacket.addr 4 = false := by
  unfold takes; decide +kernel

/-- Reduction 3 of cluster 0, of one line, and whether it has sealed; a contribution to it and a read of it. -/
def redCluster (done_ : Bool) : State :=
  { clusters := [(0, { reds := [(3, { isOpen := true, op := 1, len := 1, isSealed := done_, expect := 1, words := List.replicate 16 0 })] })] }
@[inherit_doc redCluster] def contribPacket : Packet := herePacket { type := ptCONTRIB, len := 1, addr := 3 <<< 32, payload := List.replicate 64 1 }
@[inherit_doc redCluster] def rrdPacket : Packet := herePacket { type := ptRRD, addr := 3 <<< 32 }

theorem witness_peer_reductions : takes (peerState contribPacket (redCluster false)) 0 0 ptCONTRIB contribPacket ∧
    contribPacket.redAt = (0, 3, 0) ∧ (((redCluster false).clustersAt 0).reduction 3).refuses 0 0 = false ∧
    (∀ d ∈ [true, false], takes (peerState rrdPacket (redCluster d)) 0 0 ptRRD rrdPacket ∧
      (((redCluster d).clustersAt 0).reduction 3).isOpen = true ∧ ((((redCluster d).clustersAt 0).reduction 3).span 0 1).isSome = d) ∧
    rrdPacket.redAt = (0, 3, 0) ∧ ((redCluster false).clustersAt 0).rrds.length < 256 := by unfold takes; decide +kernel

/-- Transaction 4, of core 3 or of tile 0's transfer for record 5, with two acceptances and outcomes awaited from device 7. -/
def txnState (p : Packet) (o : Origin) : State :=
  peerState p {
    peers := [(4, { live := true, packet := { type := ptWR, dst := 7, len := 1 }, origin := o, rec? := some 5, accepts := 2
                    finals := 2, retry := [7] })]
    records := [(5, { stage := .dispatched })] }

theorem witness_peer_answers : (∀ ty ∈ ([ptACCEPT, ptDONE, ptFAIL, ptNAK, ptATOMR, ptRDATA] : List Nat), ∀ o ∈ [Origin.core 3, .transfer 0 1],
      takes (txnState (herePacket { type := ty, tag := 4 }) o) 0 0 ty (herePacket { type := ty, tag := 4 }) ∧
      ((txnState (herePacket { type := ty, tag := 4 }) o).answered (herePacket { type := ty, tag := 4 })).any (fun x => x.origin = o) = true) ∧
    statusOfCode (Status.BUSY.code % 256) ∈ [Status.NOT_READY, Status.BUSY] ∧ ((txnState {} (.core 3)).recordsAt 5).stage = .dispatched ∧
    ((txnState {} (.core 3)).peersAt 4).retry ≠ [] ∧ (∀ d ∈ ((txnState {} (.core 3)).peersAt 4).retry, d ≠ (txnState {} (.core 3)).devId) ∧
    ((txnState {} (.core 3)).peersAt 4).live = true ∧ ((txnState {} (.core 3)).peersAt 4).accepts ≠ 0 := by unfold takes; decide +kernel

theorem witness_epoch_set : ∀ v ∈ ([0, 1] : List Nat),
    takes (fields (peerState (herePacket { type := ptEPOCHSET })) [(EPOCH.STAT.LOCKED, v, 0, 0)]) 0 0 ptEPOCHSET (herePacket { type := ptEPOCHSET }) ∧
    (fields (peerState (herePacket { type := ptEPOCHSET })) [(EPOCH.STAT.LOCKED, v, 0, 0)]).fld EPOCH.STAT.LOCKED = v := by
  unfold takes; decide +kernel

theorem witness_quar : takes (peerState (herePacket { type := ptQUAR })) 0 0 ptQUAR (herePacket { type := ptQUAR }) ∧
    (peerState (herePacket { type := ptQUAR })).linkState 0 = linkUP ∧ alone (peerState (herePacket { type := ptQUAR })) 0 := by
  unfold takes alone; decide +kernel

/-! ### Sealing, the hash unit and Serge -/

/-- SEAL.ARG holds `x`. -/
def sealState (x : Nat) (s : State := State.reset) : State := fields s [(SEAL.ARG.ARG, x, 0, 0)]

/-- Domain 2 on clusters 0 and 1, region 0 of it. -/
def domainState (g : Region) : State := { domains := [(2, { live := true, clusters := 3 })], regions := [(0, g)] }

theorem witness_dom_create : let s := sealState 0x1000; sealOpen s (.core 0) ∧ s.plainRange (s.fld SEAL.ARG.ARG) 0x200 = true ∧
    (s.readRange .sec (s.fld SEAL.ARG.ARG) 0x200).2 = .OK ∧ s.policyCheck (List.replicate 0x200 0) = .RANGE := by
  unfold sealOpen; decide +kernel

theorem witness_reg_create : let s := sealState (1 <<< 45 + 2) { domains := [(2, { live := true, clusters := 3 })] };
    sealOpen s (.core 0) ∧ bits (s.fld SEAL.ARG.ARG) 63 45 = 1 ∧ s.inTier 0 (2 ^ 21) = true ∧ s.meetsRegion 0 (2 ^ 21) = false ∧
    s.meetsLent 0 (2 ^ 21) = false ∧ (s.domainsAt (bits (s.fld SEAL.ARG.ARG) 3 0)).live = true ∧ bit (s.fld SEAL.ARG.ARG) 4 = false ∧
    s.freeRegion = some 0 := by unfold sealOpen; decide +kernel

theorem witness_regions : let g : Region := { live := true, size := 1, dom := 2 };
    sealOpen (sealState 0 (domainState g)) (.core 0) ∧ ((domainState g).regionsAt 0).live = true ∧
    ((domainState g).regionsAt 0).filling = false ∧ (readyState (domainState { g with filling := true })).ready = true ∧
    ((domainState { g with filling := true, releasing := true }).regionsAt 0).filling = true ∧
    (({ domainState { g with filling := true } with sec := { cmd := 2, waits := [0] } } : State).sec.waits = [0]) ∧
    ((sealState 2 (domainState g)).domainsAt (bits ((sealState 2 (domainState g)).fld SEAL.ARG.ARG) 3 0)).live = true ∧
    (domainState g).graphsOn 3 = false := by unfold sealOpen; decide +kernel

theorem witness_stored : let g : Region := { live := true, size := 1, dom := 2, keys := some (1, 2) };
    (domainState g).regionOf 64 = some g ∧ g.keys = some (1, 2) ∧ (domainState g).regionOf (2 ^ 21) = none := by decide +kernel

/-- AES-256 as FIPS 197 gives it in its appendix C.3. -/
theorem test_aes256 : aesEncrypt (List.range 32) ((List.range 16).map (17 * ·)) =
    [0x8E, 0xA2, 0xB7, 0xCA, 0x51, 0x67, 0x45, 0xBF, 0xEA, 0xFC, 0x49, 0x90, 0x4B, 0x49, 0x60, 0x89] := by decide +kernel

/-- The first block of vector 10 of IEEE 1619: keys of the digits of e and π, data unit 0xFF, bytes 0, 1, 2, … -/
theorem test_xts : xtsBlock (leNat ((natLe 32 0x2718281828459045235360287471352662497757247093699959574966967627).reverse))
    (leNat ((natLe 32 0x3141592653589793238462643383279502884197169399375105820974944592).reverse)) 0xFF 0
      ((List.range 16).map (BitVec.ofNat 8)) =
    [0x1C, 0x3B, 0x3A, 0x10, 0x2F, 0x77, 0x03, 0x86, 0xE4, 0x83, 0x6C, 0x99, 0xE3, 0x70, 0xCF, 0x9B] := by decide +kernel

theorem witness_hash : let s : State := fields { hash := { ctxs := [(8, { started := true, msg := [1] })], lanes := [8, 9], ready := [0] } } [(HASH.CTX.LEN, 4, 0, 8)];
    hashOpen State.reset (.core 0) 8 ∧ hashOpen State.reset (.core 2) 8 ∧ s.hash.lanes.contains 8 = true ∧
    s.fld HASH.CTX.SRC 0 8 / 2 ^ 44 = s.devId ∧ (s.hash.ctx 8).started = true ∧ (s.hash.ctx 8).alg = s.fld HASH.CTX.ALG 0 8 ∧
    (s.readRange (hashWho 8) (s.fld HASH.CTX.SRC 0 8 % 2 ^ 44) (s.fld HASH.CTX.LEN 0 8)).2 = .OK ∧
    (s.hash.ctx 8).msg.length + s.fld HASH.CTX.LEN 0 8 ≤ 2 ^ 40 ∧ s.hash.ready.find? hashSecure = some 0 ∧ hashSecure 8 = false := by
  unfold hashOpen; decide +kernel

theorem witness_serge : let s : State := { serge := { running := some 1, ready := [5] } };
    (∀ k ∈ ([0, 5] : List Nat), State.reset.takesWrite (.core 0) .SERGE k = true ∧ (State.reset.serge.curve k 1).isSome = true ∧
      State.reset.fld SERGE.SLOTSTAT.STATE k = slotIdle) ∧ mayLoad 0 2 = true ∧ mayLoad 5 6 = true ∧ slotSecure 5 = true ∧
    s.serge.running = some 1 ∧ slotSecure 1 = false ∧ s.serge.ready.find? slotSecure = some 5 ∧
    (State.reset.serge.saved = none ∧ State.reset.serge.ready = []) := by decide +kernel

/-! ### Power, the brake and the Gloaming -/

/-- The transition is in progress. -/
def transState (target mask : Nat) (x : Power := {}) : State := { power := { x with trans := some (target, mask) } }

theorem witness_power_requests : powerOpen State.reset (.core 1) ∧ State.reset.placedOn 0xFF = false ∧
    (∀ cl ∈ clustersOf 0xFF, State.reset.flag (HDR.OWNER.HOLD .CLUSTER) cl = false) ∧ State.reset.anyDomain = false ∧ State.reset.brake = false ∧
    State.reset.cxl.committed = false ∧ (∀ r ∈ State.reset.records, r.2.stage = .none) ∧
    (∀ i : Nat, i < 64 → State.reset.runState i ≠ runSaved) := by unfold powerOpen; decide +kernel

theorem witness_power_transitions : (∀ target ∈ ([0, 1, 2, 3] : List Nat), (transState target 1).tripped = false ∧ (transState target 1).fatal = false ∧
      (transState target 1).slumber = false ∧ (transState target 1).power.trans = some (target, 1) ∧
      (transState target 1).life.writing ≠ some 1 ∧ 1 ∉ (transState target 1).life.waiting) ∧
    (fields { power := { leaving := true } } [(PWR.STATE.MODULE, 3, 0, 0)]).slumber = true ∧
    (fields { power := { waking := 1 } } [(PWR.STATE.CLUSTER, 2, 0, 0)]).clusterPower 0 = 2 ∧
    bit (fields { power := { waking := 1 } } [(PWR.STATE.CLUSTER, 2, 0, 0)]).power.waking 0 = true ∧
    (fields { power := { waking := 1 } } [(PWR.STATE.CLUSTER, 2, 0, 0)]).fld PWR.STATE.MODULE ≠ 2 := by decide +kernel

/-- Cluster 0 has idled for 256 epochs, its DOZE time. -/
def idleState (st : Nat) : State :=
  fields { clusters := [(0, { idleEpochs := 256, gated := true })] } [(PWR.STATE.CLUSTER, st, 0, 0), (PWR.CAPCTL.DOZETMO, 1, 0, 0)]

theorem witness_idle_clusters : (idleState 0).clusterPower 0 = 0 ∧ (idleState 0).recordsOn 0 = [] ∧ (idleState 1).clusterPower 0 = 1 ∧
    (idleState 1).fld PWR.CAPCTL.DOZETMO ≠ 0 ∧ 256 * (idleState 1).fld PWR.CAPCTL.DOZETMO ≤ ((idleState 1).clustersAt 0).idleEpochs ∧
    (idleState 1).flag (HDR.OWNER.HOLD .CLUSTER) 0 = false ∧ (∀ p : Nat, p < 8 → (idleState 1).flag (HDR.OWNER.HOLD .TILE) (8 * 0 + p) = false) ∧
    (idleState 1).placedOn (2 ^ 0) = false := by decide +kernel

theorem witness_rail_and_cap : let s : State := { power := { rail := [1, 4], ramp := [4, 4], epochs := 16, sum := 40, raised := [3] } };
    s.power.rail.getD 0 0 < 4 ∧ 4 ≤ s.power.ramp.getD 0 0 ∧ 16 ≤ s.power.epochs ∧ s.power.braking = false := by decide +kernel

theorem witness_brake : State.reset.power.brakePin = false ∧ State.reset.flag GLM.SOUT.BRAKE 0 (State.reset.fld GLM.STAT.STATE) = false ∧
    ({ power := { brakePin := true } } : State).power.braked = [] ∧ State.reset.tripped = false := by decide +kernel

/-- Transition `k` of the Gloaming leaves state 0, on event 3 (OP 4) or on channel 3 at or above 0 (OP 1); event 3 has happened. -/
def glmState (k op : Nat) : State :=
  fields { glm := { events := [3] }, power := { brakePin := true } }
    [(GLM.TRANS.VALID, 1, 0, k), (GLM.TRANS.OP, op, 0, k), (GLM.TRANS.TO, 5, 0, k), (GLM.TRANS.THRESH, if op = 4 then 3 else 0, 0, k)]

theorem witness_scan : (∀ p ∈ ([(0, 4), (2, 1)] : List (Nat × Nat)), (glmState p.1 p.2).flag GLM.TRANS.VALID 0 p.1 = true ∧
      (glmState p.1 p.2).fld GLM.TRANS.FROM 0 p.1 = (glmState p.1 p.2).fld GLM.STAT.STATE ∧ (glmState p.1 p.2).fld GLM.TRANS.ACT 0 p.1 = 0 ∧
      (glmState p.1 p.2).flag GLM.FILT.VALID 0 3 = false ∧ (glmState p.1 p.2).power.emerg = false ∧
      (∀ j, j < p.1 → (glmState p.1 p.2).flag GLM.TRANS.VALID 0 j = false)) ∧
    (glmState 0 4).fld GLM.TRANS.THRESH 0 0 % 16 ∈ (glmState 0 4).glm.events ∧ (List.replicate 96 (0 : BitVec 16)).length = 96 ∧
    State.reset.flag GLM.TRANS.VALID 0 63 = false := by decide +kernel

/-- Curve 0 has the points (2p − 15, 3p), p from 0 to 15. -/
def curveState : State :=
  fields {} ((List.range 16).flatMap fun p => [(GLM.CURVE.X, (2 * p + 65521) % 65536, 0, p), (GLM.CURVE.Y, 3 * p, 0, p)])

theorem witness_curve : (∀ p : Nat, p < 15 → signed ((curveState.regsAt ((Page.GLM).base 0 + 0xD00 + 4 * p)).toNat % 2 ^ 16) 16 <
      signed ((curveState.regsAt ((Page.GLM).base 0 + 0xD00 + 4 * (p + 1))).toNat % 2 ^ 16) 16) ∧
    glmCurveAt (curveState.curvePoints 0) (-15) = 0 ∧ glmCurveAt (curveState.curvePoints 0) 15 = 45 ∧
    glmCurveAt (curveState.curvePoints 0) (-14) = 1 := by decide +kernel

/-! ### Errors, self-tests and the life log -/

theorem witness_error_reads : readable State.reset (.core 0) .TILE 5 ∧ Page.isWindow .TILE = false ∧ 5 < Page.count .TILE ∧
    ((Page.TILE).base 5) % 4096 = 0 ∧ (fields State.reset [(HDR.ERR_CNT.COUNT .TILE, 2, 5, 0)]).fld (HDR.ERR_CNT.COUNT .TILE) 5 = 2 := by
  unfold readable; decide +kernel

theorem witness_counter_read : let s := fields State.reset [(TILE.STRCNT.UNDERRUN, 3, 0, 0)];
    bar0 (TILE.STRCNT.UNDERRUN.addr 0 0) = some (.TILE, 0, TILE.STRCNT.UNDERRUN.off) ∧ readable s (.core 0) .TILE 0 ∧
    0x60 < TILE.STRCNT.UNDERRUN.off ∧ s.fld TILE.STRCNT.UNDERRUN 0 = 3 ∧
    ∀ f ∈ [TILE.STRCNT.UNDERRUN, TILE.SPCNT.COLLIDE, TILE.LDGCNT.OVER, TILE.RESCNT.NONCANON, TILE.GZCNT.LOOKUPS],
      ∃ k ∈ List.range 1024, f.addr 0 0 = 4096 * ((Page.TILE).base 0 / 4096) + 4 * k ∧ (Page.TILE).base 0 / 4096 < 2 ^ 14 := by
  unfold readable
  decide +kernel

theorem witness_self_tests : State.reset.takesWrite (.core 0) .ERRSYS 0 = true ∧ State.reset.flag ERRSYS.STSTAT.BUSY = false ∧
    (∀ p ∈ ([(1, 255), (2, 0x3FFFFF), (3, 31), (4, 23), (5, 0)] : List (Nat × Nat)), testTarget p.1 p.2 = true) ∧
    (∀ k ∈ ([1, 3, 4, 5] : List Nat),
      let s := fields { tests := { test := k, target := 1, started := true } } [(ERRSYS.STSTAT.BUSY, 1, 0, 0), (LINK.STAT.STATE, 3, 1, 0)];
      s.flag ERRSYS.STSTAT.BUSY = true ∧ s.tests.started = true ∧ s.tests.test = k ∧ s.fld LINK.STAT.STATE s.tests.target = 3 ∧
      bit s.tests.target 0 = true ∧ bit s.tests.retiring 0 = false ∧ bit (s.fld ERRSYS.STATE.RETIRED) 0 = false) := by decide +kernel

theorem witness_life_log : ({ life := { writing := some 3 } } : State).life.waiting = [] ∧ State.reset.takesWrite (.core 0) .LIFE 0 = true ∧
    ({ life := { sinceRequest := some 3599 } } : State).life.sinceRequest.any (· < 3600) = true ∧
    ({ life := { snap := some true } } : State).life.snap ≠ none ∧ readable State.reset (.core 0) .LIFE 0 := by
  unfold readable; decide +kernel

/-! ### Resets, boot, epochs and the queue of commands -/

theorem witness_resets : State.reset.tripped = false ∧ State.reset.takesWrite (.core 0) .RESET 0 = true ∧ RegFrom.world (.core 0) = .secure ∧
    (fields State.reset [(GLM.STAT.TRIP, 1, 0, 0)]).tripped = true ∧ State.reset.life.writing = none := by decide +kernel

theorem witness_repaired : ((({ tiles := [(0, { spares := [(0, 8)], pinned := some 3 })] } : State).tilesAt 0).pinned.isSome = true) ∧
    ({ tiles := [(0, { spares := [(0, 8)], pinned := some 3 })] } : State).tripped = false := by decide +kernel

theorem witness_boot : (∀ st ∈ ([0x10, 0x20, 0x30, 0x60] : List Nat),
      let s := fields State.reset [(RESET.BOOT.STAGE, st, 0, 0)];
      s.fld RESET.BOOT.STAGE = st ∧ s.fatal = false ∧ s.tripped = false ∧ (st = 0x60 → s.mayReady = true) ∧
      s.life.waiting = [] ∧ s.life.snap = none) ∧ State.reset.glm.oscillator = false := by decide +kernel

/-- The module follows SYNC_IN, acquiring or not, with `miss` misses. -/
def followState (acq miss : Nat) : State := fields State.reset [(EPOCH.CTL.ROLE, 2, 0, 0), (EPOCH.STAT.ACQ, acq, 0, 0), (EPOCH.STAT.MISS, miss, 0, 0)]

theorem witness_epochs : (begin (followState 1 0)).follows = true ∧ (followState 1 0).flag EPOCH.STAT.ACQ = true ∧
    (begin (followState 0 7)).follows = true ∧ (followState 0 7).flag EPOCH.STAT.ACQ = false ∧ (followState 0 7).epoch.taken = false ∧
    (followState 0 7).fld EPOCH.STAT.MISS = 7 ∧ (followState 0 6).fld EPOCH.STAT.MISS = 6 ∧ State.reset.slumber = false ∧
    readable State.reset (.core 0) .EPOCH 0 ∧ readable State.reset (.core 0) .FN 63 ∧
    State.reset.takesWrite (.core 0) .ROUTER 0 = true ∧ (begin (fields State.reset [(EPOCH.CTL.ROLE, 1, 0, 0)])).role = 1 ∧
    (fields State.reset [(ROUTER.ESETDST.DST, 7, 0, 0)]).fld ROUTER.ESETDST.DST ≠ State.reset.devId ∧
    State.reset.flag ROUTER.ESETDST.MC = false := by unfold readable; decide +kernel

theorem witness_pulse : (followState 0 0).syncError 512 = 512 ∧ ((followState 0 0).syncError 512).natAbs ≤ 512 ∧
    State.reset.pageOff .EPOCH 0 = false := by decide +kernel

theorem witness_front_command : ({ pending := [Instr.aonclkRestore, .syncMiss] } : State).pending = .aonclkRestore :: [.syncMiss] ∧
    State.reset.pending = [] := by decide +kernel

end Sys2Proof.Slice0
end

section
/-!
PROOFS. Powers modulo q and sums of residues (R76, R77): square-and-multiply gives the power, Horner's rule the sum.
-/

namespace Sys2Proof.Machine

/-- Square-and-multiply gives the power where the fuel covers the exponent. -/
theorem powModAux_eq {f b e m acc : Nat} (h : e < 2 ^ f) : powModAux f b e m acc = acc * b ^ e % m := by
  induction f generalizing b e acc with
  | zero =>
    obtain rfl : e = 0 := by simpa using h
    simp [powModAux]
  | succ f ih =>
    rw [powModAux]
    split
    · rename_i he; simp [he]
    · have hsq : ∀ a, a * (b * b % m) ^ (e / 2) ≡ a * b ^ (2 * (e / 2)) [MOD m] := fun a => by
        rw [pow_mul, pow_two]
        exact ((Nat.mod_modEq _ _).pow _).mul_left a
      rw [ih (by rw [pow_succ] at h; omega)]
      rcases Nat.mod_two_eq_zero_or_one e with h2 | h2
      · rw [if_neg (by omega), show b ^ e = b ^ (2 * (e / 2)) by congr 1; omega]
        exact hsq acc
      · rw [if_pos h2, show acc * b ^ e = acc * b * b ^ (2 * (e / 2)) by rw [mul_assoc, ← pow_succ']; congr 2; omega]
        exact (hsq _).trans ((Nat.mod_modEq _ _).mul_right _)

theorem powMod_eq (b e m : Nat) : powMod b e m = b ^ e % m := by
  rw [powMod, powModAux_eq Nat.lt_log2_self, one_mul]
  exact (Nat.mod_modEq _ _).pow e

/-- Horner's rule modulo `q`. -/
theorem horner_mod (q x : Nat) (a : List Nat) :
    a.foldr (fun c v => (c + x * v) % q) 0 = (a.zipIdx.map fun c => c.1 * x ^ c.2).sum % q := by
  induction a with
  | nil => simp
  | cons c a ih =>
    have hshift : ((a.zipIdx 1).map fun c => c.1 * x ^ c.2).sum = x * (a.zipIdx.map fun c => c.1 * x ^ c.2).sum := by
      rw [← List.sum_map_mul_left, List.zipIdx_succ, List.map_map]
      exact congrArg List.sum (List.map_congr_left fun p _ => by simp only [Function.comp, pow_succ]; ring)
    rw [List.foldr_cons, ih, List.zipIdx_cons, List.map_cons, List.sum_cons, hshift, pow_zero, mul_one]
    exact ((Nat.mod_modEq _ _).mul_left x).add_left c

/-- A sum of multiples of reduced powers, modulo `q`. -/
theorem sum_powMod (q g : Nat) (k : Nat → Nat) (l : List (Nat × Nat)) :
    (l.map fun c => c.1 * powMod g (k c.2) q).sum % q = (l.map fun c => c.1 * g ^ k c.2).sum % q :=
  Nat.ModEq.listSum_map fun c _ => by rw [powMod_eq]; exact (Nat.mod_modEq _ _).mul_left c.1

/-- NTT is R76's sum. -/
theorem ntt_eq (l : Limb) (logn : Nat) (a : List Nat) : ntt l logn a = (List.range (2 ^ logn)).map fun i =>
    (a.zipIdx.map fun c => c.1 * psi l logn ^ ((2 * brv logn i + 1) * c.2)).sum % l.q := by
  refine List.map_congr_left fun i _ => (horner_mod ..).trans ?_
  refine Nat.ModEq.listSum_map fun c _ => ?_
  rw [powMod_eq, pow_mul]
  exact ((Nat.mod_modEq _ _).pow c.2).mul_left c.1

/-- INTT is R77's sum. -/
theorem intt_eq (l : Limb) (logn : Nat) (a : List Nat) : intt l logn a = (List.range (2 ^ logn)).map fun j =>
    invPrime (2 ^ logn % l.q) l.q *
      (a.zipIdx.map fun c => c.1 * invPrime (psi l logn) l.q ^ ((2 * brv logn c.2 + 1) * j)).sum % l.q :=
  List.map_congr_left fun j _ =>
    Nat.ModEq.mul_left _ (sum_powMod l.q (invPrime (psi l logn) l.q) (fun i => (2 * brv logn i + 1) * j) a.zipIdx)

end Sys2Proof.Machine
end

section
/-!
PROOFS. Limb-by-limb instructions on the scratchpad (R52, R82, R83, R205): an engine instruction whose plan is a list of limbs'
work leaves every limb's result at its destination, is in flight, and changes nothing else.
-/

namespace Sys2Proof.Machine

open Sys2Proof.Claims

variable {s : State}

/-- Two lists have one image exactly where they pair off, and the images of each pair are one. -/
theorem map_eq_map_iff_zip {α β γ : Type} {f : α → γ} {g : β → γ} {as : List α} {bs : List β} :
    as.map f = bs.map g ↔ as.length = bs.length ∧ ∀ p ∈ as.zip bs, f p.1 = g p.2 := by
  rw [← List.forall₂_eq_eq_eq, List.forall₂_map_left_iff, List.forall₂_map_right_iff, List.forall₂_iff_zip]
  exact and_congr_right fun _ => ⟨fun h p hp => h hp, fun h _ _ hp => h _ hp⟩

/-- The engine step that does one limb's work. -/
def limbStep (s : State) (l : LimbWork) : EStep s :=
  { reads := l.srcs, writes := l.dsts, compute := fun x ws => (x, l.res ws) }

/-- The words of a limb's sources. -/
def limbWords (s : State) (i : Nat) (l : LimbWork) : List (List Nat) := l.srcs.map fun r => s.readWords (opndAddr i r.1) r.2.1

/-- An instruction that raises no flag and reads no non-canonical word is counted at most on the generic path. -/
theorem noted_generic (s : State) (i : Nat) (mont : Bool) :
    noted s i mont false 0 = ((begin s).when mont fun t => t.bump TILE.RESCNT.GENERIC 1 i).now := rfl

theorem limbStep_spad {i : Nat} {ls : List LimbWork} (h : limbsReady s i ls) : ∀ e ∈ ls.map (limbStep s), SpadStep e := by
  refine List.forall_mem_map.mpr fun l hl => ?_
  obtain ⟨hsrc, hdst, -⟩ := h.2.1 l hl
  exact ⟨fun r hr => ⟨_, (hsrc r hr).1⟩, fun r hr => ⟨_, (hdst r hr).1⟩, fun _ _ => rfl, rfl, rfl, fun _ _ _ => rfl,
    fun _ _ => rfl, fun _ _ => rfl⟩

/-- The work of limbs whose operands are in order is legal. -/
theorem limbSteps_legal {i : Nat} {ls : List LimbWork} (h : limbsReady s i ls) :
    (begin s).stepsLegal i (ls.map (limbStep s)) = true := by
  obtain ⟨-, hops, hap⟩ := h
  refine stepsLegal_spad i _ (List.forall_mem_map.mpr fun l hl r hr => ?_) (List.forall_mem_map.mpr fun l hl => (hops l hl).2.1)
    (List.forall_mem_map.mpr fun l hl => (hops l hl).2.2.1) (List.pairwise_map.mpr (hap.imp And.left))
    (List.forall_mem_map.mpr fun l hl => (hops l hl).2.2.2) (List.pairwise_map.mpr (hap.imp And.right))
  obtain ⟨hspad, hline, hend, -⟩ := (hops l hl).1 r hr
  exact ⟨hspad, hline, hend⟩

/-- Steps on the scratchpad take no words of a queue. -/
theorem queueWant_spad {es : List (EStep s)} (h : ∀ e ∈ es, SpadStep e) (q : Nat) : queueWant es q = 0 := by
  have hnil : (es.flatMap (·.reads)).filter (fun r => decide (r.1 = .queue q)) = [] := by
    rw [List.filter_eq_nil_iff]
    intro r hr
    obtain ⟨e, he, hr⟩ := List.mem_flatMap.mp hr
    obtain ⟨off, hoff⟩ := (h e he).reads r hr
    simp [hoff]
  simp [queueWant, hnil]

/-- Steps on the scratchpad write no queue. -/
theorem namesQueue_spad {es : List (EStep s)} (h : ∀ e ∈ es, SpadStep e) (q : Nat) :
    namesQueue (es.flatMap (·.writes)) q = false := by
  rw [namesQueue, List.any_eq_false]
  intro r hr
  obtain ⟨e, he, hr⟩ := List.mem_flatMap.mp hr
  obtain ⟨off, hoff⟩ := (h e he).writes r hr
  simp [hoff]

theorem SameButTiles.mem {a b : State} (h : SameButTiles a b) : a.mem = b.mem := by
  unfold SameButTiles at h; rw [← h]
theorem SameButTiles.poison {a b : State} (h : SameButTiles a b) : a.poison = b.poison := by
  unfold SameButTiles at h; rw [← h]
theorem SameButTiles.landTag {a b : State} (h : SameButTiles a b) : a.landTag = b.landTag := by
  unfold SameButTiles at h; rw [← h]

/-- Counting on the generic path writes a counter of the tile's page only. -/
theorem notesOnly_generic (i : Nat) (mont : Bool) :
    NotesOnly i fun t : Tx s => t.when mont fun t => t.bump TILE.RESCNT.GENERIC 1 i :=
  (NotesOnly.bump i TILE.RESCNT.GENERIC 1 rfl (Fld.word_ne TILE.RUNSTAT.STATE TILE.RESCNT.GENERIC i 0 0 rfl (by decide))).when mont

/-- What the steps of limbs do from a state with the same memory and poison. -/
theorem runSteps_limbs (t : Tx s) (i unit : Nat) (ls : List LimbWork) (h : limbsReady s i ls) (hmem : t.now.mem = s.mem)
    (hpoison : t.now.poison = s.poison)
    (hlen : ∀ l ∈ ls, l.dsts.map (·.2) = (l.res (limbWords s i l)).map List.length) :
    SameButLimbs (t.runSteps i unit false (ls.map (limbStep s))).now t.now ∧
      LimbsWritten s (t.runSteps i unit false (ls.map (limbStep s))).now i ls := by
  have hread : t.now.readWords = s.readWords := by funext a n; unfold State.readWords State.read; rw [hmem]
  have hpois : t.now.poisoned = s.poisoned := by funext a n; unfold State.poisoned State.firstPoison; rw [hpoison]
  have hsrc : ∀ l, srcWords t.now i (limbStep s l) = limbWords s i l := fun l => by unfold srcWords limbWords; rw [hread]; rfl
  have ⟨hwf, hops, hap⟩ := h
  have hclean : ∀ e ∈ ls.map (limbStep s), cleanStep t.now i e := by
    refine List.forall_mem_map.mpr fun l hl r hr => ?_
    obtain ⟨-, -, -, hpure, hcanon⟩ := (hops l hl).1 r hr
    rw [hread, hpois]
    exact ⟨hpure, hcanon⟩
  obtain ⟨hsame, -, -, hframe, hwrite⟩ := runSteps_spad i unit false (ls.map (limbStep s)) t (by rw [hmem]; exact hwf)
    (limbStep_spad h) hclean
    (List.forall_mem_map.mpr fun l hl p hp => by
      rw [hsrc] at hp
      exact ((map_eq_map_iff_zip.mp (hlen l hl)).2 p hp).symm)
    (List.pairwise_map.mpr (hap.imp fun h => h.2.1))
  have hresult := hwrite (List.forall_mem_map.mpr fun l hl => (hops l hl).2.2.1) (List.pairwise_map.mpr (hap.imp And.left))
  refine ⟨hsame, fun l hl => ?_, fun b hb => ?_⟩
  · have hl' := hresult _ (List.mem_map_of_mem hl)
    rw [hsrc] at hl'
    exact map_eq_map_iff_zip.mpr ⟨(map_eq_map_iff_zip.mp (hlen l hl)).1, hl'⟩
  · rw [← hmem]
    exact hframe b (List.forall_mem_map.mpr hb)

/-- An engine instruction on a ready tile whose plan is the work of limbs in order, its update at issue giving the tile `x`. -/
theorem issueEngine_limbs (i unit op : Nat) (side : Side) (w : NInstr) (plan : Tx s → Plan s) (update : Tx s → Tx s)
    (ls : List LimbWork) (mont : Bool) (x : Tile) (h : s.readyTile i unit side w = true) (hu : 2 ≤ unit)
    (hplan : plan (begin s) = .run update (ls.map (limbStep s)) mont)
    (hupd : TileBecomes s (update ((begin s).putTiles i (issueTile (s.tilesAt i) side w))).now i x)
    (hready : limbsReady s i ls) (hlen : ∀ l ∈ ls, l.dsts.map (·.2) = (l.res (limbWords s i l)).map List.length) :
    ∃ t, done ((begin s).issueEngine i unit op side w plan) = .next t ∧ LimbsDone s t i (inFlight x unit op w) mont ls := by
  have hspad := limbStep_spad hready
  have hrun := issueEngine_run i unit op side w plan update _ mont h hu hplan (limbSteps_legal hready)
    fun q _ => by rw [queueWant_spad hspad]; exact Nat.zero_le _
  have hnone : (List.range 8).filter (fun _ => false) = [] := by simp
  simp only [queueWant_spad hspad, funext (namesQueue_spad hspad), ne_eq, not_true_eq_false, decide_false, hnone] at hrun
  refine ⟨_, congrArg done hrun, ?_⟩
  obtain ⟨hx, hothers, hrest⟩ := hupd
  have hcount := notesOnly_generic (s := s) i mont
  generalize update ((begin s).putTiles i (issueTile (s.tilesAt i) side w)) = t0 at hx hothers hrest ⊢
  have hsame0 : SameButTiles t0.now s := hrest
  have hsame1 : SameButTiles (t0.when mont fun t => t.bump TILE.RESCNT.GENERIC 1 i).now (noted s i mont false 0) :=
    by rw [noted_generic]; exact hcount.same t0 (begin s) hsame0
  have htiles1 := hcount.tiles t0
  have hrun1 := (hcount.run t0).trans (hsame0.fld TILE.RUNSTAT.STATE i 0 rfl)
  have hmem1 := (hcount.mem t0).trans hsame0.mem
  have hpois1 := (hcount.poison t0).trans hsame0.poison
  have htag1 := (hcount.tags t0).trans hsame0.landTag
  generalize t0.when mont (fun t => t.bump TILE.RESCNT.GENERIC 1 i) = t1 at *
  obtain ⟨hsame2, hwritten⟩ := runSteps_limbs t1 i unit ls hready hmem1 hpois1 hlen
  generalize t1.runSteps i unit false (ls.map (limbStep s)) = t2 at *
  have hrunning : ¬ t2.now.runState i = runStopped := by
    have hstate : t2.now.runState i = runRunning := by
      rw [← runState_lt s i side ((readyTile_iff ..).mp h).1]
      refine Eq.trans ?_ hrun1
      unfold State.runState
      rw [State.fld_eq _ _ _ _ rfl, State.fld_eq _ _ _ _ rfl, hsame2.regsAt]
    rw [hstate]; decide
  rw [if_neg hrunning]
  refine ⟨?_, ?_, fun j hj => ?_, ?_⟩
  · simp only [Tx.modTiles_now, LimbsWritten, State.readWords, State.read, Act.apply_mem]
    exact hwritten
  · simp only [Tx.modTiles_now, Act.apply_tilesAt, if_true]
    rw [hsame2.2, htiles1, hx, inFlight]
  · simp only [Tx.modTiles_now, Act.apply_tilesAt, hj, if_false]
    rw [hsame2.2, htiles1, hothers j hj]
  · simp only [Tx.modTiles_now]
    have hlimbs := congrArg (fun u : State => { u with mem := s.mem, poison := s.poison, landTag := s.landTag, tiles := s.tiles })
      hsame2.1
    have hnoted := congrArg (fun u : State => { u with tiles := s.tiles }) hsame1
    refine hlimbs.trans (Eq.trans ?_ hnoted)
    simp only [← hmem1, ← hpois1, ← htag1]

end Sys2Proof.Machine
end

section
/-!
PROOFS. Instructions that map one source limb to one destination limb in raw mode, and the three of them that settle O46: NTT, INTT and
AUT (R76 to R79, R81, R84).
-/

namespace Sys2Proof.Machine

open Sys2Proof.Claims

variable {s : State}

/-- What an engine instruction names is found only where its OPA is legal, and is at least one limb (R207, R214). -/
theorem engAt_some {i : Nat} {w : NInstr} {ok : Bool} {pset level : Nat} {b : Basis} {e : Eng}
    (h : s.engAt i w ok pset level b = some e) : ok = true ∧ e.limbs ≠ [] := by
  unfold State.engAt at h
  dsimp only at h
  split at h
  case isFalse => cases h
  case isTrue hok =>
    split at h
    case h_2 => cases h
    case h_1 =>
      obtain ⟨ls, hls, rfl⟩ := Option.map_eq_some_iff.mp h
      refine ⟨hok.1, fun hnil => ?_⟩
      unfold namedLimbs at hls
      split at hls
      case isFalse => cases hls
      case isTrue hn =>
        have hlen := congrArg List.length ((Option.some.inj hls).trans hnil)
        simp only [List.length_zip, List.length_map, List.length_range, List.length_take, List.length_drop, List.length_nil] at hlen
        omega

/-- A raw-mode instruction has LDG 0 and names at least one limb. -/
theorem rawEng_some {i : Nat} {w : NInstr} {used : Nat} {b : Basis} {e : Eng} (h : s.rawEng i w used b = some e) :
    w.ldg = 0 ∧ e.limbs ≠ [] := by
  obtain ⟨hok, hne⟩ := engAt_some h
  simp only [Bool.and_eq_true, decide_eq_true_eq] at hok
  exact ⟨hok.1.1, hne⟩

/-- A reference that names scratchpad for some limb is no queue (R207). -/
theorem isQueue_of_opndAt_spad {o : OpWord} {r : Opnd} {p t off : Nat} (h : opndAt o r p t = .spad off) : r.isQueue = false := by
  cases r with
  | queue q => cases h
  | spad _ => rfl
  | tr _ => rfl

/-- With operands in order and a limb to work on, neither reference is a queue. -/
theorem unaryWork_refs {i : Nat} {e : Eng} {f : Limb → List Nat → List Nat} (hne : e.limbs ≠ [])
    (h : limbsReady s i (unaryWork e f).1) : e.r0.isQueue = false ∧ e.r1.isQueue = false := by
  obtain ⟨tl, htl⟩ := List.exists_mem_of_ne_nil _ hne
  obtain ⟨hsrc, hdst, -⟩ := h.2.1 _ (List.mem_map_of_mem htl)
  exact ⟨isQueue_of_opndAt_spad (hdst _ (List.mem_singleton.mpr rfl)).1, isQueue_of_opndAt_spad (hsrc _ (List.mem_singleton.mpr rfl)).1⟩

theorem unary_steps (e : Eng) (f : Limb → List Nat → List Nat) :
    e.unary [0] f = (unaryWork e f).1.map (limbStep s) := by
  simp only [Eng.unary, unaryWork, List.map_map, List.map_cons, List.map_nil]
  exact List.flatMap_pure_eq_map _ _

/-- A function that keeps the length of limbs of N words gives every destination its N words. -/
theorem unaryWork_length {i : Nat} {e : Eng} {f : Limb → List Nat → List Nat} (hwf : Memory.wf s.mem = true)
    (hf : ∀ l a, a.length = e.n → (f l a).length = e.n) :
    ∀ l ∈ (unaryWork e f).1, l.dsts.map (·.2) = (l.res (limbWords s i l)).map List.length := by
  intro l hl
  obtain ⟨tl, -, rfl⟩ := List.mem_map.mp hl
  exact congrArg (fun n => [n]) (hf tl.2 _ (readWords_length s _ e.n hwf)).symm

/-- An instruction whose work is one source limb to one destination limb, and whose plan is the steps of that work. -/
theorem limbOp_unary {c : Fin 64 → Side → NInstr → Instr} {unit op : Nat}
    {work : State → Fin 64 → NInstr → Option (List LimbWork × Bool)}
    (plan : (s : State) → Fin 64 → NInstr → Tx s → Plan s) (hu : 2 ≤ unit)
    (hexec : ∀ i w s, exec (c i .execute w) s = done ((begin s).issueEngine i unit op .execute w (plan s i w)))
    (hwork : ∀ s i w u, work s i w = some u → ∃ e f, u = unaryWork e f ∧ e.limbs ≠ [] ∧
      (∀ l a, a.length = e.n → (f l a).length = e.n) ∧
      (e.r0.isQueue = false → e.r1.isQueue = false → plan s i w (begin s) = e.plain (e.unary [0] f))) :
    LimbOp c unit op work fun _ _ _ => id := by
  intro i w s ls mont h hw hready
  obtain ⟨e, f, hlimbs, hne, hlen, hplan⟩ := hwork s i w _ hw
  obtain ⟨rfl, rfl⟩ := Prod.mk.inj hlimbs
  obtain ⟨hdst, hsrc⟩ := unaryWork_refs hne hready
  rw [hexec]
  refine issueEngine_limbs i unit op .execute w (plan s i w) id _ _ _ h hu ?_ ?_ hready (unaryWork_length hready.1 hlen)
  · rw [hplan hdst hsrc, unary_steps, Eng.plain]; rfl
  · rw [id, Tx.putTiles_now]; exact tileBecomes_put ..

/-- What a transform computes of each limb. -/
def transform (fwd : Bool) (e : Eng) (l : Limb) (a : List Nat) : List Nat :=
  if fwd then ntt l e.c.ps.logn a else intt l e.c.ps.logn a

theorem transform_length (fwd : Bool) (e : Eng) (l : Limb) (a : List Nat) : (transform fwd e l a).length = e.n := by
  cases fwd <;> simp [transform, ntt, intt, Eng.n, Pset.n]

/-- A transform in raw mode with operands that are no queues. -/
theorem transformPlan_raw {i : Nat} {w : NInstr} {e : Eng} (fwd : Bool) (h : s.rawEng i w 0 (rawBasis w) = some e)
    (hdst : e.r0.isQueue = false) (hsrc : e.r1.isQueue = false) :
    transformPlan i w fwd (begin s) = e.plain (e.unary [0] (transform fwd e)) := by
  simp only [transformPlan, (rawEng_some h).1, begin_now, h, hdst, hsrc, if_true, Bool.or_false, Bool.false_eq_true, if_false]
  rfl

/-- AUT with an odd Galois element below 2N and operands that are no queues. -/
theorem autPlan_raw {i : Nat} {w : NInstr} {e : Eng} (h : s.rawEng i w 0x7FFFF (rawBasis w) = some e)
    (hg : ¬ (bits w.imm 17 0 % 2 = 0 ∨ 2 * e.n ≤ bits w.imm 17 0)) (hdst : e.r0.isQueue = false) (hsrc : e.r1.isQueue = false) :
    autPlan i w (begin s) = e.plain (e.unary [0] fun l a =>
      if bit w.imm 18 then autEval l.q e.c.ps.logn (bits w.imm 17 0) a else autCoeff l.q e.c.ps.logn (bits w.imm 17 0) a) := by
  simp only [autPlan, begin_now, h, hdst, hsrc, Bool.or_eq_true, decide_eq_true_eq, Bool.false_eq_true, false_or, if_neg hg]

/-- The work of a transform is what its step computes of each limb. -/
theorem transformWork_some {i : Fin 64} {w : NInstr} {u : List LimbWork × Bool} (fwd : Bool)
    (h : (s.rawEng i w 0 (rawBasis w)).map (fun e => unaryWork e (transform fwd e)) = some u) :
    ∃ e f, u = unaryWork e f ∧ e.limbs ≠ [] ∧ (∀ l a, a.length = e.n → (f l a).length = e.n) ∧
      (e.r0.isQueue = false → e.r1.isQueue = false → transformPlan i w fwd (begin s) = e.plain (e.unary [0] f)) := by
  obtain ⟨e, he, rfl⟩ := Option.map_eq_some_iff.mp h
  exact ⟨e, transform fwd e, rfl, (rawEng_some he).2, fun l a _ => transform_length fwd e l a, transformPlan_raw fwd he⟩

theorem nttWork_eq (s : State) (i : Fin 64) (w : NInstr) :
    nttWork s i w = (s.rawEng i w 0 (rawBasis w)).map fun e => unaryWork e (transform true e) :=
  congrArg (fun f => (s.rawEng i w 0 (rawBasis w)).map f) <| funext fun e =>
    congrArg (unaryWork e) <| funext fun l => funext fun a => (ntt_eq l e.c.ps.logn a).symm

theorem inttWork_eq (s : State) (i : Fin 64) (w : NInstr) :
    inttWork s i w = (s.rawEng i w 0 (rawBasis w)).map fun e => unaryWork e (transform false e) :=
  congrArg (fun f => (s.rawEng i w 0 (rawBasis w)).map f) <| funext fun e =>
    congrArg (unaryWork e) <| funext fun l => funext fun a => (intt_eq l e.c.ps.logn a).symm

theorem limbTransforms : LimbTransforms :=
  ⟨limbOp_unary (fun _ i w => transformPlan i w true) le_rfl (fun _ _ _ => rfl) fun s i w _ h =>
      transformWork_some true ((nttWork_eq s i w).symm.trans h),
    limbOp_unary (fun _ i w => transformPlan i w false) le_rfl (fun _ _ _ => rfl) fun s i w _ h =>
      transformWork_some false ((inttWork_eq s i w).symm.trans h)⟩

theorem autEval_length (q logn g : Nat) (a : List Nat) : (autEval q logn g a).length = 2 ^ logn := by simp [autEval]
theorem autCoeff_length (q logn g : Nat) (a : List Nat) : (autCoeff q logn g a).length = 2 ^ logn := by simp [autCoeff]

theorem limbAutomorphism : LimbAutomorphism := by
  refine limbOp_unary (fun _ i w => autPlan i w) le_rfl (fun _ _ _ => rfl) fun s i w u h => ?_
  obtain ⟨e, he, hu⟩ := Option.bind_eq_some_iff.mp h
  dsimp only at hu
  split at hu
  case isTrue => cases hu
  case isFalse hg =>
    refine ⟨e, _, (Option.some.inj hu).symm, (rawEng_some he).2, fun l a _ => ?_, autPlan_raw he hg⟩
    split
    · exact autEval_length ..
    · exact autCoeff_length ..

/-- Settles O46: Horner's rule and square-and-multiply give the sums of R76 and R77, AUT is R78 and R79 as they stand, and steps on
clean scratchpad operands change their destinations alone. -/
theorem transformsOfLimbs : Obligations.TransformsOfLimbs := ⟨limbTransforms, limbAutomorphism⟩

end Sys2Proof.Machine
end

section
/-!
PROOFS. The Gloaming's curves (R467): from a point that `x` has reached on, only the points that follow matter, so that a curve is its
first point's y, its last point's y, or the interpolation of the two neighbours around `x`.
-/

namespace Sys2Proof.Machine

/-! ### Points of a curve -/

/-- Up to its first point a curve takes that point's y. -/
theorem glmCurveAt_before {p : Int × Int} {x : Int} (r : List (Int × Int)) (h : x ≤ p.1) : glmCurveAt (p :: r) x = p.2 := by
  cases r with
  | nil => rfl
  | cons q r => exact if_pos h

/-- From its second point on, a curve does not depend on the first. -/
theorem glmCurveAt_past {p q : Int × Int} {x : Int} (r : List (Int × Int)) (hpq : p.1 < q.1) (h : q.1 ≤ x) :
    glmCurveAt (p :: q :: r) x = glmCurveAt (q :: r) x :=
  (if_neg (by omega)).trans (if_neg (by omega))

/-- Between its first two points a curve interpolates, rounding toward minus infinity. -/
theorem glmCurveAt_between {p q : Int × Int} {x : Int} (r : List (Int × Int)) (hp : p.1 < x) (hq : x < q.1) :
    glmCurveAt (p :: q :: r) x = p.2 + (q.2 - p.2) * (x - p.1) / (q.1 - p.1) :=
  (if_neg (by omega)).trans (if_pos hq)

/-! ### Curves with ascending x -/

section
variable {pt : Nat → Int × Int} {n : Nat} {x : Int}

/-- A curve of `n + 1` points reaches `x` at point `k` if it does at all: the points before `k` do not matter. -/
theorem glmCurveAt_from (hasc : ∀ p, p < n → (pt p).1 < (pt (p + 1)).1) (k m : Nat) (hk : k + m = n) (hx : (pt k).1 ≤ x) :
    glmCurveAt ((List.range (n + 1)).map pt) x = glmCurveAt ((List.range' k (m + 1)).map pt) x := by
  induction k generalizing m with
  | zero => rw [List.range_eq_range', ← hk, Nat.zero_add]
  | succ k ih =>
    have hlt := hasc k (by omega)
    rw [ih (m + 1) (by omega) (by omega)]
    exact glmCurveAt_past _ hlt hx

/-- From its last point on, a curve takes that point's y. -/
theorem glmCurveAt_after (hasc : ∀ p, p < n → (pt p).1 < (pt (p + 1)).1) (hx : (pt n).1 ≤ x) :
    glmCurveAt ((List.range (n + 1)).map pt) x = (pt n).2 :=
  glmCurveAt_from hasc n 0 rfl hx

/-- Between neighbours the value is the greatest integer that is not above the line through them. -/
theorem glmCurveAt_floor (hasc : ∀ p, p < n → (pt p).1 < (pt (p + 1)).1) {p : Nat} (hp : p < n) (h0 : (pt p).1 ≤ x)
    (h1 : x ≤ (pt (p + 1)).1) :
    glmCurveAt ((List.range (n + 1)).map pt) x =
      (pt p).2 + ((pt (p + 1)).2 - (pt p).2) * (x - (pt p).1) / ((pt (p + 1)).1 - (pt p).1) := by
  have hlt := hasc p hp
  rcases h1.eq_or_lt with heq | h1
  · rw [glmCurveAt_from hasc (p + 1) (n - (p + 1)) (by omega) heq.ge, List.range'_succ, List.map_cons,
      glmCurveAt_before _ heq.le, heq, Int.mul_ediv_cancel _ (by omega)]
    omega
  obtain ⟨m, rfl⟩ : ∃ m, n = p + (m + 1) := ⟨n - p - 1, by omega⟩
  rw [glmCurveAt_from hasc p (m + 1) rfl h0, List.range'_succ, List.range'_succ, List.map_cons, List.map_cons]
  rcases h0.eq_or_lt with heq | h0
  · rw [glmCurveAt_before _ heq.ge, heq, sub_self, mul_zero, Int.zero_ediv, add_zero]
  · exact glmCurveAt_between _ h0 h1

/-- The floor of a quotient, as bounds on the dividend. -/
theorem floor_bounds {a d y v : Int} (hd : 0 < d) (hv : v = y + a / d) : (v - y) * d ≤ a ∧ a < (v - y + 1) * d := by
  rw [hv, add_sub_cancel_left]
  exact ⟨Int.ediv_mul_le a hd.ne', Int.lt_ediv_add_one_mul_self a hd⟩

end

/-! ### The points in the register words -/

/-- A point's x in the low half of its word, its y in the high half. -/
def curvePoint (w : Nat) : Int × Int := (signed (w % 2 ^ 16) 16, signed (w / 2 ^ 16) 16)

theorem curvePoints_eq (s : State) (c : Nat) : s.curvePoints c =
    (List.range 16).map fun p => curvePoint (s.regsAt ((Page.GLM).base 0 + 0xD00 + 4 * (16 * c + p))).toNat := by
  refine List.map_congr_left fun p _ => ?_
  have hx : ∀ w : Nat, bits w 15 0 = w % 2 ^ 16 := fun w => rfl
  have hy : ∀ w : Word, bits w.toNat 31 16 = w.toNat / 2 ^ 16 := fun w => by
    rw [bits, Nat.shiftRight_eq_div_pow]
    have := w.isLt
    omega
  rw [State.fld_eq _ GLM.CURVE.X _ _ rfl, State.fld_eq _ GLM.CURVE.Y _ _ rfl]
  exact congrArg₂ Prod.mk (congrArg (signed · 16) (hx _)) (congrArg (signed · 16) (hy _))

/-- Settles O35: the points of a curve lie in its words, and between two neighbours the model's floor division is the interpolation
rounded toward minus infinity. -/
theorem gloamingCurves : Obligations.GloamingCurves := by
  intro s c x w px py hasc
  rw [curvePoints_eq]
  have hasc' : ∀ p, p < 15 → (curvePoint (w p)).1 < (curvePoint (w (p + 1))).1 := hasc
  refine ⟨fun hx => glmCurveAt_before _ hx, fun hx => glmCurveAt_after hasc' hx, fun p hp h0 h1 v hv => ?_⟩
  exact floor_bounds (by have := hasc p hp; omega) (hv.trans (glmCurveAt_floor hasc' hp h0 h1))

end Sys2Proof.Machine
end

section
/-!
PROOFS. Updates in a loop, and frames of register writes: what every step of a loop keeps, the loop keeps; what only one step of it
changes, that step decides.
-/

namespace Sys2Proof.Machine

variable {s : State}

/-! ### Loops -/

section
variable {α β : Type}

/-- What every step of a loop keeps, the loop keeps. -/
theorem Tx.forEach_keeps {P : Tx s → Prop} {f : Tx s → α → Tx s} (l : List α) (hf : ∀ a ∈ l, ∀ u, P u → P (f u a)) (t : Tx s)
    (h : P t) : P (t.forEach l f) := by
  induction l generalizing t with
  | nil => exact h
  | cons a l ih => exact ih (fun b hb => hf b (.tail _ hb)) _ (hf a (.head _) t h)

/-- A value that no step of a loop changes. -/
theorem Tx.forEach_same {v : State → β} {f : Tx s → α → Tx s} (l : List α) (hf : ∀ a ∈ l, ∀ u, v (f u a).now = v u.now) (t : Tx s) :
    v (t.forEach l f).now = v t.now :=
  Tx.forEach_keeps (P := fun u => v u.now = v t.now) l (fun a ha u hu => (hf a ha u).trans hu) t rfl

/-- A value that only step `j` of a loop changes, and the same way however often it is taken. -/
theorem Tx.forEach_at [DecidableEq α] {v : State → β} {f : Tx s → α → Tx s} {g : β → β} (l : List α) (j : α) (hg : ∀ x, g (g x) = g x)
    (hsame : j ∈ l → ∀ u, v (f u j).now = g (v u.now)) (hother : ∀ k ∈ l, k ≠ j → ∀ u, v (f u k).now = v u.now) (t : Tx s) :
    v (t.forEach l f).now = if j ∈ l then g (v t.now) else v t.now := by
  induction l generalizing t with
  | nil => rfl
  | cons k l ih =>
    refine (ih (fun hj => hsame (.tail _ hj)) (fun i hi => hother i (.tail _ hi)) (f t k)).trans ?_
    by_cases hk : k = j
    · subst hk
      rw [hsame (.head _) t, hg, ite_self, if_pos (List.mem_cons_self ..)]
    · rw [hother k (.head _) hk t]
      simp only [List.mem_cons, Ne.symm hk, false_or]

/-- Where only step `j` of a loop changes a value, the loop gives it what that step makes of it. -/
theorem Tx.forEach_once {v : State → β} {f : Tx s → α → Tx s} (l : List α) (j : α) (hj : j ∈ l) (hl : l.Nodup)
    (hother : ∀ k ∈ l, k ≠ j → ∀ u, v (f u k).now = v u.now) (t : Tx s) :
    ∃ u : Tx s, v u.now = v t.now ∧ v (t.forEach l f).now = v (f u j).now := by
  obtain ⟨l1, l2, rfl⟩ := List.append_of_mem hj
  obtain ⟨-, hcons, hdis⟩ := List.nodup_append.mp hl
  refine ⟨t.forEach l1 f, Tx.forEach_same l1 (fun k hk => hother k (by simp [hk]) (hdis k hk j (.head _))) t, ?_⟩
  have hcut : t.forEach (l1 ++ j :: l2) f = (f (t.forEach l1 f) j).forEach l2 f := by
    rw [Tx.forEach, List.foldl_append]; rfl
  rw [hcut]
  exact Tx.forEach_same l2 (fun k hk => hother k (by simp [hk]) fun e => (List.nodup_cons.mp hcons).1 (e ▸ hk)) _

end

/-! ### Fields and words -/

/-- A field of a word that is none of those written. -/
theorem RegsBut.fld {s t : State} {ws : List Nat} (h : RegsBut s t ws) (f : Fld) (n k : Nat) (hf : f.hi / 32 = f.lo / 32)
    (hw : f.at_ n k ∉ ws) : t.fld f n k = s.fld f n k := by
  rw [State.fld_eq _ _ _ _ hf, State.fld_eq _ _ _ _ hf]
  exact congrArg (fun w : Word => bits w.toNat (f.hi % 32) (f.lo % 32)) (h _ hw)

theorem RegsBut.trans {s t u : State} {ws : List Nat} (h : RegsBut s t ws) (g : RegsBut t u ws) : RegsBut s u ws :=
  fun a ha => (g a ha).trans (h a ha)

/-- A field write touches its word only. -/
theorem setFld_only (t : Tx s) (f : Fld) (v n k : Nat) (hf : f.hi / 32 = f.lo / 32) :
    OnlyWords t.now (t.setFld f v n k).now [f.at_ n k] :=
  .setFld t (.refl _ _) f v n k hf (List.mem_singleton.mpr rfl)

theorem OnlyWords.tilesAt {s t : State} {ws : List Nat} (h : OnlyWords s t ws) (i : Nat) : t.tilesAt i = s.tilesAt i :=
  (congrArg (fun x : State => x.tilesAt i) h.1 :)

theorem OnlyWords.clustersAt {s t : State} {ws : List Nat} (h : OnlyWords s t ws) (cl : Nat) : t.clustersAt cl = s.clustersAt cl :=
  (congrArg (fun x : State => x.clustersAt cl) h.1 :)

theorem OnlyWords.power {s t : State} {ws : List Nat} (h : OnlyWords s t ws) : t.power = s.power :=
  (congrArg (fun x : State => x.power) h.1 :)

/-- A one-bit field reads as a truth value what was written to it. -/
theorem flag_same (t : Tx s) (f : Fld) (b : Bool) (n k : Nat) (hn : n < f.page.count) (h : f.sound k = true) (hw : f.hi = f.lo) :
    (t.setFld f (bnat b) n k).now.flag f n k = b := by
  rw [State.flag, fld_same t f _ n k hn h, hw, Nat.add_sub_cancel_left]
  cases b <;> rfl

/-- A field is below the power of two of its width. -/
theorem fld_lt (s : State) (f : Fld) (n k : Nat) (hf : f.hi / 32 = f.lo / 32) (hl : f.lo ≤ f.hi) : s.fld f n k < 2 ^ f.width := by
  rw [State.fld_eq _ _ _ _ hf, Fld.width, show f.hi + 1 - f.lo = f.hi % 32 + 1 - f.lo % 32 by omega]
  exact bits_lt ..

/-- What memory takes no part in is not touched by zeroing a range. -/
theorem zeroRange_only (t : Tx s) (a n : Nat) : SameButMem (t.zeroRange a n).now t.now := by
  refine (forEach_tag _ _).1.trans ((forEach_poison _ _).1.trans ?_)
  exact Tx.forEach_keeps (P := fun u => SameButMem u.now t.now) (f := fun t k => t.act (.mem k [0])) _ (fun _ _ u hu =>
    SameButMem.trans (b := u.now) rfl hu) t rfl

/-! ### Pins -/

/-- A change of the pins' levels is an output and nothing else. -/
theorem pins_out (t : Tx s) (f : Tx s → Tx s) : ∃ o, (t.pins f).now = { (f t).now with out := o } := by
  unfold Tx.pins Tx.when
  dsimp only
  split <;> split <;> exact ⟨_, rfl⟩

end Sys2Proof.Machine
end

section
/-!
PROOFS. Power requests (R458, R489): an accepted request starts its transition, SLUMBER asking for the life log's write; and the
transition's end, for clusters and for SLUMBER.
-/

namespace Sys2Proof.Machine

open Sys2Proof.Claims

variable {s : State}

/-! ### The power state of a cluster -/

theorem bits_setBits_same (x hi lo v : Nat) : bits (setBits x hi lo v) hi lo = v % 2 ^ (hi + 1 - lo) := by
  refine Nat.eq_of_testBit_eq fun b => ?_
  rw [bits_testBit, setBits_testBit, Nat.testBit_mod_two_pow]
  by_cases hb : b < hi + 1 - lo
  · rw [if_pos (by omega), Nat.add_sub_cancel_left]
  · simp [hb]

theorem bits_setBits_cluster (x st cl j : Nat) (hcl : cl < 8) (hj : j < 8) :
    bits (setBits x (2 * cl + 1) (2 * cl) st % 2 ^ 16) (2 * j + 1) (2 * j) =
      if j = cl then st % 4 else bits x (2 * j + 1) (2 * j) := by
  refine Nat.eq_of_testBit_eq fun b => ?_
  rw [apply_ite (Nat.testBit · b), bits_testBit, bits_testBit, Nat.testBit_mod_two_pow, setBits_testBit,
    show st % 4 = st % 2 ^ 2 from rfl, Nat.testBit_mod_two_pow]
  by_cases hb : b < 2
  · have hbit : 2 * j + b < 16 := by omega
    by_cases hjc : j = cl
    · subst hjc
      rw [if_pos (by omega), if_pos rfl, Nat.add_sub_cancel_left]
      simp [hb, hbit, show b < 2 * j + 1 + 1 - 2 * j by omega]
    · rw [if_neg (by omega), if_neg hjc]
      simp [hbit]
  · simp [hb, show ¬ b < 2 * j + 1 + 1 - 2 * j by omega]

theorem setClusterPower_only (t : Tx s) (cl st : Nat) : OnlyWords t.now (t.setClusterPower cl st).now [PWR.STATE.CLUSTER.at_] := by
  unfold Tx.setClusterPower
  dsimp only
  have hcl := setFld_only t PWR.STATE.CLUSTER (setBits (t.fld PWR.STATE.CLUSTER) (2 * cl + 1) (2 * cl) st) 0 0 rfl
  split
  · exact hcl
  · exact hcl.trans (setFld_only _ PWR.STATE.MODULE _ 0 0 rfl)

/-- Whatever the module's state becomes, the clusters' states are those written. -/
theorem setClusterPower_cluster (t : Tx s) (cl st : Nat) : (t.setClusterPower cl st).now.fld PWR.STATE.CLUSTER =
    setBits (t.now.fld PWR.STATE.CLUSTER) (2 * cl + 1) (2 * cl) st % 2 ^ 16 := by
  unfold Tx.setClusterPower
  dsimp only
  split
  · exact fld_same t PWR.STATE.CLUSTER _ 0 0 (by decide) (by decide +kernel)
  · rw [fld_besides _ PWR.STATE.MODULE PWR.STATE.CLUSTER _ 0 0 0 0 (by decide) (by decide +kernel) (by decide +kernel) rfl]
    exact fld_same t PWR.STATE.CLUSTER _ 0 0 (by decide) (by decide +kernel)

theorem clusterPower_set (t : Tx s) {cl j : Nat} (st : Nat) (hcl : cl < 8) (hj : j < 8) :
    (t.setClusterPower cl st).now.clusterPower j = if j = cl then st % 4 else t.now.clusterPower j := by
  unfold State.clusterPower
  rw [setClusterPower_cluster, bits_setBits_cluster _ _ _ _ hcl hj]

theorem moduleState_active (m : Nat) {cl : Nat} (hcl : cl < 8) (h : bits m (2 * cl + 1) (2 * cl) = 0) : moduleState m = 0 :=
  if_pos (List.any_eq_true.mpr ⟨cl, List.mem_range.mpr hcl, decide_eq_true h⟩)

/-- Out of SLUMBER the module is ACTIVE once a cluster is. -/
theorem setClusterPower_active (t : Tx s) {cl : Nat} (hcl : cl < 8) (hs : t.now.slumber = false) :
    (t.setClusterPower cl 0).now.fld PWR.STATE.MODULE = 0 := by
  have hm : ∀ v, (t.setFld PWR.STATE.CLUSTER v).now.slumber = false := fun v => by
    unfold State.slumber at hs ⊢
    rwa [fld_besides t PWR.STATE.CLUSTER PWR.STATE.MODULE _ 0 0 0 0 (by decide) (by decide +kernel) (by decide +kernel) rfl]
  unfold Tx.setClusterPower
  dsimp only
  rw [hm, if_neg Bool.false_ne_true, fld_same _ PWR.STATE.MODULE _ 0 0 (by decide) (by decide +kernel), moduleState_active _ hcl]
  · rfl
  · rw [bits_setBits_same, Nat.zero_mod]

/-- The clusters' states are in one register word. -/
theorem clusterPower_congr {s t : State} (h : t.regsAt PWR.STATE.CLUSTER.at_ = s.regsAt PWR.STATE.CLUSTER.at_) (cl : Nat) :
    t.clusterPower cl = s.clusterPower cl := by
  unfold State.clusterPower
  rw [State.fld_eq _ PWR.STATE.CLUSTER _ _ rfl, State.fld_eq _ PWR.STATE.CLUSTER _ _ rfl]
  exact congrArg (fun w : Word => bits (bits w.toNat 15 0) (2 * cl + 1) (2 * cl)) h

theorem mem_clustersOf {mask cl : Nat} : cl ∈ clustersOf mask ↔ cl < 8 ∧ bit mask cl = true := by
  simp [clustersOf]

/-! ### Requests -/

/-- Only power management and the given register words differ. -/
def PowerAndWords (s t : State) (ws : List Nat) : Prop := RegsBut s t ws ∧ { t with power := s.power, regs := s.regs } = s

theorem PowerAndWords.trans {s t u : State} {ws : List Nat} (h : PowerAndWords s t ws) (g : PowerAndWords t u ws) :
    PowerAndWords s u ws :=
  ⟨RegsBut.trans h.1 g.1, (congrArg (fun x : State => { x with power := s.power, regs := s.regs }) g.2).trans h.2⟩

theorem PowerAndWords.ofWords {s t : State} {ws : List Nat} (h : OnlyWords s t ws) : PowerAndWords s t ws :=
  ⟨h.2, (congrArg (fun x : State => { x with power := s.power }) h.1)⟩

theorem PowerAndWords.putPower (t : Tx s) (p : Power) (ws : List Nat) : PowerAndWords t.now (t.putPower p).now ws :=
  ⟨RegsBut.act t (RegsBut.refl _ _) _ rfl, rfl⟩

theorem PowerAndWords.mono {s t : State} {ws vs : List Nat} (h : PowerAndWords s t ws) (hv : ∀ a ∈ ws, a ∈ vs) :
    PowerAndWords s t vs := ⟨RegsBut.mono h.1 hv, h.2⟩

/-- A request is accepted: its status is OK, BUSY is set, and its transition has started. -/
def Tx.startTrans (t : Tx s) (target mask : Nat) : Tx s :=
  let t := (t.setFld PWR.REQSTAT.STATUS 0).setFld PWR.REQSTAT.BUSY 1
  t.putPower { t.now.power with trans := some (target, mask) }

theorem pwrReq_accepted {t : Tx s} {target mask : Nat} (hbusy : t.now.flag PWR.REQSTAT.BUSY = false)
    (hok : t.now.powerCheck target mask = .OK) : t.pwrReq target mask =
      (t.startTrans target mask).when (target = 3) fun t => (t.lifeSnapLost.lifeCount 3).lifeWrite 1 := by
  unfold Tx.pwrReq
  rw [if_neg (by rw [Tx.flag, hbusy]; exact Bool.false_ne_true), hok]
  rfl

theorem startTrans_busy (t : Tx s) (target mask : Nat) : (t.startTrans target mask).now.flag PWR.REQSTAT.BUSY = true := by
  unfold Tx.startTrans State.flag
  dsimp only
  rw [Tx.putPower_now, Act.fld_power, fld_same _ PWR.REQSTAT.BUSY _ 0 0 (by decide) (by decide +kernel)]
  rfl

theorem startTrans_status (t : Tx s) (target mask : Nat) :
    (t.startTrans target mask).now.fld PWR.REQSTAT.STATUS = Status.OK.code := by
  unfold Tx.startTrans
  dsimp only
  rw [Tx.putPower_now, Act.fld_power,
    fld_besides _ PWR.REQSTAT.BUSY PWR.REQSTAT.STATUS _ 0 0 0 0 (by decide) (by decide +kernel) (by decide +kernel) rfl,
    fld_same _ PWR.REQSTAT.STATUS _ 0 0 (by decide) (by decide +kernel)]
  rfl

theorem startTrans_power (t : Tx s) (target mask : Nat) :
    (t.startTrans target mask).now.power = { t.now.power with trans := some (target, mask) } := by
  simp [Tx.startTrans]

theorem startTrans_only (t : Tx s) (target mask : Nat) :
    PowerAndWords t.now (t.startTrans target mask).now [PWR.REQSTAT.BUSY.at_] :=
  ((PowerAndWords.ofWords (setFld_only t PWR.REQSTAT.STATUS _ 0 0 rfl)).trans
    (.ofWords (setFld_only _ PWR.REQSTAT.BUSY _ 0 0 rfl))).trans (.putPower _ _ _)

/-- The checks of a request for clusters. -/
theorem powerCheck_clusters {target mask : Nat} (ht : target < 3) (hm : target = 1 ∨ mask ≠ 0)
    (hdoze : target = 2 → s.placedOn mask = false ∧ ∀ cl ∈ clustersOf mask, s.flag (HDR.OWNER.HOLD .CLUSTER) cl = false) :
    s.powerCheck target mask = .OK := by
  unfold State.powerCheck
  have hlegal : (3 < target || (mask = 0 && (target = 0 || target = 2))) = false := by
    simp only [Bool.or_eq_false_iff, Bool.and_eq_false_iff, decide_eq_false_iff_not]
    omega
  rw [hlegal, if_neg Bool.false_ne_true]
  by_cases h2 : target = 2
  · obtain ⟨hplaced, hheld⟩ := hdoze h2
    rw [if_pos h2, if_neg (by simpa using hheld), hplaced, if_neg Bool.false_ne_true]
  · rw [if_neg h2, if_neg (by omega)]

/-- The checks of a request for SLUMBER. -/
theorem powerCheck_slumber {mask : Nat} (hdom : s.anyDomain = false) (hbrake : s.brake = false) (hcxl : s.cxl.committed = false)
    (hrec : ∀ r ∈ s.records, r.2.stage = .none) (hsaved : ∀ i, i < 64 → s.runState i ≠ runSaved) :
    s.powerCheck 3 mask = .OK := by
  have hfree : (List.range 64).any (fun i => s.runState i = runSaved) = false := by simpa using hsaved
  simpa [State.powerCheck, hdom, hbrake, hcxl, hfree] using fun k r h => hrec (k, r) h

/-- A power request that passes the page's gate and its checks. -/
theorem pwrReq_open {o : RegFrom} {target mask : Nat} (h : powerOpen s o) (hok : s.powerCheck target mask = .OK) :
    ((begin s).guarded o .PWR 0 fun t => t.pwrReq target mask) =
      ((begin s).startTrans target mask).when (target = 3) fun t => (t.lifeSnapLost.lifeCount 3).lifeWrite 1 :=
  (guarded_takes o .PWR 0 _ _ h.1).trans (pwrReq_accepted h.2 hok)

/-- A legal request for clusters sets BUSY and starts its transition. -/
theorem request_clusters (o : RegFrom) (mask : BitVec 8) (s : State) (c : Instr) (target : Nat) (hopen : powerOpen s o)
    (hc : (c, target) ∈ [(.pwrReqActive o mask, 0), (.pwrReqDoze o mask, 2)] ∧ mask ≠ 0 ∨ (c, target) = (.pwrReqIdle o mask, 1))
    (hdoze : target = 2 → s.placedOn mask.toNat = false ∧
      ∀ cl ∈ clustersOf mask.toNat, s.flag (HDR.OWNER.HOLD .CLUSTER) cl = false) :
    ∃ t, exec c s = .next t ∧ t.flag PWR.REQSTAT.BUSY = true ∧ t.fld PWR.REQSTAT.STATUS = Status.OK.code ∧
      t.power = { s.power with trans := some (target, mask.toNat) } ∧ RegsBut s t [PWR.REQSTAT.BUSY.at_] ∧
      { t with power := s.power, regs := s.regs } = s := by
  have hexec : exec c s = done ((begin s).guarded o .PWR 0 fun t => t.pwrReq target mask.toNat) ∧ target < 3 ∧
      (target = 1 ∨ mask.toNat ≠ 0) := by
    simp only [List.mem_cons, List.not_mem_nil, or_false, Prod.mk.injEq] at hc
    rcases hc with ⟨⟨rfl, rfl⟩ | ⟨rfl, rfl⟩, hm⟩ | ⟨rfl, rfl⟩
    · exact ⟨rfl, by decide, .inr fun h => hm (BitVec.eq_of_toNat_eq h)⟩
    · exact ⟨rfl, by decide, .inr fun h => hm (BitVec.eq_of_toNat_eq h)⟩
    · exact ⟨rfl, by decide, .inl rfl⟩
  obtain ⟨hexec, ht, hm⟩ := hexec
  rw [hexec, pwrReq_open hopen (powerCheck_clusters ht hm hdoze), Tx.when, if_neg (by simp; omega)]
  exact ⟨_, rfl, startTrans_busy .., startTrans_status .., startTrans_power .., startTrans_only (begin s) target mask.toNat⟩

/-! ### The life log's write -/

/-- Only the life log and the words that show it differ. -/
def LifeAndWords (s t : State) : Prop :=
  RegsBut s t (LIFE.CTL.SNAP.at_ :: lifeWords) ∧ { t with life := s.life, regs := s.regs } = s

theorem LifeAndWords.trans {s t u : State} (h : LifeAndWords s t) (g : LifeAndWords t u) : LifeAndWords s u :=
  ⟨RegsBut.trans h.1 g.1, (congrArg (fun x : State => { x with life := s.life, regs := s.regs }) g.2).trans h.2⟩

theorem LifeAndWords.putLife (t : Tx s) (l : LifeLog) : LifeAndWords t.now (t.putLife l).now :=
  ⟨RegsBut.act t (RegsBut.refl _ _) _ rfl, rfl⟩

theorem LifeAndWords.ofWords {s t : State} {ws : List Nat} (h : OnlyWords s t ws) (hw : ∀ a ∈ ws, a ∈ LIFE.CTL.SNAP.at_ :: lifeWords) :
    LifeAndWords s t :=
  ⟨RegsBut.mono h.2 hw, congrArg (fun x : State => { x with life := s.life }) h.1⟩

/-- LIFE.GEN is two words. -/
theorem LifeAndWords.setGen (t : Tx s) (v : Nat) : LifeAndWords t.now (t.setFld LIFE.GEN.GEN v).now := by
  unfold Tx.setFld
  exact .ofWords (putSpan_words t LIFE.GEN.GEN.at_ 2 _).2 fun a ha => .tail _ (.tail _ ha)

theorem LifeAndWords.power {s t : State} (h : LifeAndWords s t) : t.power = s.power :=
  (congrArg (fun x : State => x.power) h.2 :)

/-- The transition starts, and then the life log changes. -/
theorem LifeAndWords.after {s t u : State} {ws : List Nat} (g : LifeAndWords t u) (h : PowerAndWords s t ws) :
    { u with power := s.power, life := s.life, regs := s.regs } = s :=
  (congrArg (fun x : State => { x with power := s.power, life := s.life, regs := s.regs }) g.2).trans
    (congrArg (fun x : State => { x with life := s.life }) h.2)

theorem showLife_only (t : Tx s) : LifeAndWords t.now t.showLife.now := by
  unfold Tx.showLife
  exact (((LifeAndWords.ofWords (setFld_only _ LIFE.STAT.VALID _ 0 0 rfl) (by decide)).trans
    (.ofWords (setFld_only _ LIFE.STAT.BANK _ 0 0 rfl) (by decide))).trans
    (.ofWords (setFld_only _ LIFE.STAT.BUSY _ 0 0 rfl) (by decide))).trans (.setGen _ _)

theorem showLife_life (t : Tx s) : t.showLife.now.life = t.now.life := by simp [Tx.showLife]

/-- A waiting bank write starts, or none does; the log is shown as it is. -/
theorem startLife_cases (t : Tx s) :
    (∃ r rs, t.now.life.waiting = r :: rs ∧
      t.startLife = (t.putLife { t.now.life with waiting := rs, writing := some r }).showLife) ∨ t.startLife = t.showLife := by
  unfold Tx.startLife
  dsimp only
  split
  next r rs hw _ _ => exact .inl ⟨r, rs, hw, rfl⟩
  · exact .inr rfl

theorem startLife_only (t : Tx s) : LifeAndWords t.now t.startLife.now := by
  rcases startLife_cases t with ⟨r, rs, -, h⟩ | h <;> rw [h]
  · exact (LifeAndWords.putLife _ _).trans (showLife_only _)
  · exact showLife_only t

/-- A snapshot stays, and a write that waits goes on waiting or runs. -/
theorem startLife_life (t : Tx s) : t.startLife.now.life.snap = t.now.life.snap ∧
    ∀ r ∈ t.now.life.waiting, r ∈ t.startLife.now.life.waiting ∨ t.startLife.now.life.writing = some r := by
  rcases startLife_cases t with ⟨r, rs, hw, h⟩ | h <;> rw [h, showLife_life]
  · refine ⟨by simp, fun k hk => ?_⟩
    rw [hw] at hk
    rcases List.mem_cons.mp hk with rfl | hk
    · exact .inr (by simp)
    · exact .inl (by simpa using hk)
  · exact ⟨rfl, fun _ hk => .inl hk⟩

/-- A snapshot is released. -/
theorem lifeSnapLost_spec (t : Tx s) : LifeAndWords t.now t.lifeSnapLost.now ∧ t.lifeSnapLost.now.life.snap = none := by
  unfold Tx.lifeSnapLost
  split
  · refine ⟨(((LifeAndWords.putLife _ _).trans (.ofWords (setFld_only _ LIFE.CTL.SNAP _ 0 0 rfl) (by decide))).trans
      (.ofWords (setFld_only _ LIFE.STAT.LOST _ 0 0 rfl) (by decide))).trans (startLife_only _), ?_⟩
    rw [(startLife_life _).1]
    simp
  next h => exact ⟨⟨RegsBut.refl _ _, rfl⟩, Option.not_isSome_iff_eq_none.mp h⟩

/-- SLUMBER's request releases a snapshot and asks for the life log's write. -/
theorem slumberLife_spec (t : Tx s) : let u := (t.lifeSnapLost.lifeCount 3).lifeWrite 1
    LifeAndWords t.now u.now ∧ u.now.life.snap = none ∧ (1 ∈ u.now.life.waiting ∨ u.now.life.writing = some 1) := by
  obtain ⟨honly, hsnap⟩ := lifeSnapLost_spec t
  refine ⟨((honly.trans (.putLife _ _)).trans (.putLife _ _)).trans (startLife_only _), ?_, (startLife_life _).2 1 (by simp)⟩
  exact (startLife_life _).1.trans (by simpa [Tx.lifeCount] using hsnap)

/-- A legal request for SLUMBER. -/
theorem request_slumber (o : RegFrom) (mask : BitVec 8) (s : State) (hopen : powerOpen s o) (hdom : s.anyDomain = false)
    (hbrake : s.brake = false) (hcxl : s.cxl.committed = false) (hrec : ∀ r ∈ s.records, r.2.stage = .none)
    (hsaved : ∀ i, i < 64 → s.runState i ≠ runSaved) : ∃ t, exec (.pwrReqSlumber o mask) s = .next t ∧
      t.flag PWR.REQSTAT.BUSY = true ∧ t.power = { s.power with trans := some (3, mask.toNat) } ∧ t.life.snap = none ∧
      (1 ∈ t.life.waiting ∨ t.life.writing = some 1) ∧
      RegsBut s t [PWR.REQSTAT.BUSY.at_, LIFE.CTL.SNAP.at_, LIFE.STAT.BUSY.at_, LIFE.GEN.GEN.at_, LIFE.GEN.GEN.at_ + 4] ∧
      { t with power := s.power, life := s.life, regs := s.regs } = s := by
  have hexec : exec (.pwrReqSlumber o mask) s = done ((begin s).guarded o .PWR 0 fun t => t.pwrReq 3 mask.toNat) := rfl
  rw [hexec, pwrReq_open hopen (powerCheck_slumber hdom hbrake hcxl hrec hsaved), Tx.when, if_pos (decide_eq_true rfl)]
  have hbusy := startTrans_busy (begin s) 3 mask.toNat
  have hpower := startTrans_power (begin s) 3 mask.toNat
  have hstart := startTrans_only (begin s) 3 mask.toNat
  obtain ⟨hlife, hsnap, hwrite⟩ := slumberLife_spec ((begin s).startTrans 3 mask.toNat)
  refine ⟨_, rfl, ?_, hlife.power.trans hpower, hsnap, hwrite, ?_, hlife.after hstart⟩
  · unfold State.flag at hbusy ⊢
    rwa [RegsBut.fld hlife.1 PWR.REQSTAT.BUSY 0 0 rfl (by decide)]
  · exact RegsBut.trans (RegsBut.mono hstart.1 (by simp)) (RegsBut.mono hlife.1 (by simp [lifeWords]))

end Sys2Proof.Machine
end

section
/-!
PROOFS. Clusters that enter DOZE (R454, R456): their tiles lose what DOZE does not keep, and nothing outside the tiles' pages
and the cluster changes.
-/

namespace Sys2Proof.Machine

variable {s : State}

/-! ### What a tile loses -/

/-- Offset `a` of BAR0 lies in no page of cluster `cl`'s tiles. -/
def offTiles (cl a : Nat) : Prop := ∀ p, p < 8 → a < (Page.TILE).base (8 * cl + p) ∨ (Page.TILE).base (8 * cl + p) + (Page.TILE).size ≤ a

/-- Only the tiles of cluster `cl` and their pages' words differ. -/
def TilesOnly (cl : Nat) (s t : State) : Prop :=
  (∀ a, offTiles cl a → t.regsAt a = s.regsAt a) ∧ (∀ i, i / 8 ≠ cl → t.tilesAt i = s.tilesAt i) ∧
    { t with tiles := s.tiles, regs := s.regs, deferred := s.deferred, held := s.held } = s

theorem TilesOnly.refl (cl : Nat) (s : State) : TilesOnly cl s s := ⟨fun _ _ => rfl, fun _ _ => rfl, rfl⟩

theorem TilesOnly.trans {cl : Nat} {s t u : State} (h : TilesOnly cl s t) (g : TilesOnly cl t u) : TilesOnly cl s u := by
  obtain ⟨hregs, htiles, hrest⟩ := h
  obtain ⟨gregs, gtiles, grest⟩ := g
  exact ⟨fun a ha => (gregs a ha).trans (hregs a ha), fun i hi => (gtiles i hi).trans (htiles i hi),
    (congrArg (fun x : State => { x with tiles := s.tiles, regs := s.regs, deferred := s.deferred, held := s.held }) grest).trans hrest⟩

theorem TilesOnly.records {cl : Nat} {s t : State} (h : TilesOnly cl s t) : t.records = s.records :=
  (congrArg (fun x : State => x.records) h.2.2 :)

theorem TilesOnly.clustersAt {cl : Nat} {s t : State} (h : TilesOnly cl s t) (j : Nat) : t.clustersAt j = s.clustersAt j :=
  (congrArg (fun x : State => x.clustersAt j) h.2.2 :)

/-- Only words of one page, and what is kept for them, differ. -/
def PageOnly (p : Page) (n : Nat) (s t : State) : Prop :=
  (∀ a, a < p.base n ∨ p.base n + p.size ≤ a → t.regsAt a = s.regsAt a) ∧
    { t with regs := s.regs, deferred := s.deferred, held := s.held } = s

theorem PageOnly.trans {p : Page} {n : Nat} {s t u : State} (h : PageOnly p n s t) (g : PageOnly p n t u) : PageOnly p n s u :=
  ⟨fun a ha => (g.1 a ha).trans (h.1 a ha),
    (congrArg (fun x : State => { x with regs := s.regs, deferred := s.deferred, held := s.held }) g.2).trans h.2⟩

theorem PageOnly.tilesAt {p : Page} {n : Nat} {s t : State} (h : PageOnly p n s t) (i : Nat) : t.tilesAt i = s.tilesAt i :=
  (congrArg (fun x : State => x.tilesAt i) h.2 :)

/-- Resetting a page touches that page. -/
theorem resetPage_only (t : Tx s) (p : Page) (n : Nat) (keep : Nat → Word) : PageOnly p n t.now (t.resetPage p n keep).now := by
  have hrefl : PageOnly p n t.now t.now := ⟨fun _ _ => rfl, rfl⟩
  unfold Tx.resetPage
  dsimp only
  refine Tx.forEach_keeps (P := fun u => PageOnly p n t.now u.now) _ ?_ _ (Tx.forEach_keeps (P := fun u => PageOnly p n t.now u.now) _ ?_ _
    (Tx.forEach_keeps (P := fun u => PageOnly p n t.now u.now) _ ?_ t hrefl))
  · refine fun k hk u hu => hu.trans ⟨fun a ha => ?_, rfl⟩
    obtain ⟨kv, hkv, rfl⟩ := List.mem_map.mp hk
    obtain ⟨-, hin⟩ := List.mem_filter.mp hkv
    simp only [Bool.and_eq_true, decide_eq_true_eq] at hin
    rw [Tx.putRegs_now, Act.apply_regsAt]
    exact if_neg (by omega)
  · exact fun k _ u hu => hu.trans ⟨fun a _ => by rw [Tx.putDeferred_now, Act.apply_regsAt], rfl⟩
  · exact fun k _ u hu => hu.trans ⟨fun a _ => by rw [Tx.putHeld_now, Act.apply_regsAt], rfl⟩

/-- What a tile loses is its own. -/
theorem loseTile_only (t : Tx s) (cl p : Nat) (hp : p < 8) : TilesOnly cl t.now (t.loseTile (8 * cl + p)).now := by
  have hpage := resetPage_only t .TILE (8 * cl + p) dozeKeep
  have hcl : (8 * cl + p) / 8 = cl := by omega
  have hreset : TilesOnly cl t.now (t.resetPage .TILE (8 * cl + p) dozeKeep).now :=
    ⟨fun a ha => hpage.1 a (ha p hp), fun i _ => hpage.tilesAt i, congrArg (fun x : State => { x with tiles := t.now.tiles }) hpage.2⟩
  have hput : ∀ (u : Tx s) (x : Tile), TilesOnly cl u.now (u.putTiles (8 * cl + p) x).now := fun u x =>
    ⟨fun a _ => by rw [Tx.putTiles_now, Act.apply_regsAt], fun i hi => by
      rw [Tx.putTiles_now, Act.apply_tilesAt]; exact if_neg fun e => hi ((congrArg (· / 8) e).trans hcl), rfl⟩
  have hset : ∀ (u : Tx s) (v : Nat), TilesOnly cl u.now (u.setFld TILE.RUNSTAT.STATE v (8 * cl + p)).now := fun u v => by
    obtain ⟨hkeep, hword⟩ := setFld_only u TILE.RUNSTAT.STATE v (8 * cl + p) 0 rfl
    refine ⟨fun a ha => hword a ?_, fun i _ => Tx.setFld_tilesAt .., congrArg (fun x : State => { x with
      tiles := u.now.tiles, deferred := u.now.deferred, held := u.now.held }) hkeep⟩
    rw [List.mem_singleton, Fld.at_eq, Fld.word_eq]
    rintro rfl
    have := ha p hp
    simp only [TILE.RUNSTAT.STATE, Page.size] at this
    omega
  unfold Tx.loseTile
  dsimp only
  split
  · exact (hreset.trans (hput _ _)).trans (hset _ _)
  · exact hreset.trans (hput _ _)

/-- A tile that is not SAVED keeps what no reset takes. -/
theorem loseTile_worn (t : Tx s) (i : Nat) (h : t.now.runState i ≠ runSaved) :
    (t.loseTile i).now.tilesAt i = (t.now.tilesAt i).worn := by
  unfold Tx.loseTile
  dsimp only
  rw [if_neg h]
  simp

/-- Another tile, of this cluster or not, keeps its state and its run state. -/
theorem loseTile_other (t : Tx s) (k i : Nat) (hk : k < 64) (hi : i < 64) (h : i ≠ k) :
    (t.loseTile k).now.tilesAt i = t.now.tilesAt i ∧ (t.loseTile k).now.runState i = t.now.runState i := by
  have hpage := resetPage_only t .TILE k dozeKeep
  have hword : (t.resetPage .TILE k dozeKeep).now.runState i = t.now.runState i := by
    unfold State.runState
    rw [State.fld_eq _ TILE.RUNSTAT.STATE _ _ rfl, State.fld_eq _ TILE.RUNSTAT.STATE _ _ rfl, hpage.1]
    rw [Fld.word_eq]
    have := Page.base_apart .TILE i k 0x104 hi hk h.symm (by decide)
    simp only [TILE.RUNSTAT.STATE] at this ⊢
    omega
  unfold Tx.loseTile
  dsimp only
  split
  · refine ⟨?_, ?_⟩
    · rw [Tx.setFld_tilesAt, Tx.putTiles_now, Act.apply_tilesAt]
      exact (if_neg h).trans (hpage.tilesAt i)
    · unfold State.runState at hword ⊢
      rw [fld_apart _ TILE.RUNSTAT.STATE TILE.RUNSTAT.STATE _ k 0 i 0 hk hi (by decide +kernel) (by decide +kernel) (.inr (.inl h)),
        Tx.putTiles_now, Act.fld_tiles, hword]
  · refine ⟨?_, ?_⟩
    · rw [Tx.putTiles_now, Act.apply_tilesAt]
      exact (if_neg h).trans (hpage.tilesAt i)
    · unfold State.runState at hword ⊢
      rw [Tx.putTiles_now, Act.fld_tiles, hword]

/-- The eight tiles of a cluster lose what is theirs. -/
def Tx.loseTiles (t : Tx s) (cl : Nat) : Tx s := t.forEach (List.range 8) fun t p => t.loseTile (8 * cl + p)

theorem loseTiles_only (t : Tx s) (cl : Nat) : TilesOnly cl t.now (t.loseTiles cl).now :=
  Tx.forEach_keeps (P := fun u => TilesOnly cl t.now u.now) _
    (fun p hp u hu => hu.trans (loseTile_only u cl p (List.mem_range.mp hp))) t (.refl cl _)

theorem loseTiles_worn (t : Tx s) (cl i : Nat) (hcl : cl < 8) (hi : i / 8 = cl) (h : t.now.runState i ≠ runSaved) :
    (t.loseTiles cl).now.tilesAt i = (t.now.tilesAt i).worn := by
  have hik : i = 8 * cl + i % 8 := by omega
  obtain ⟨u, hu, hloop⟩ := Tx.forEach_once (v := fun u => (u.tilesAt i, u.runState i)) (f := fun t p => t.loseTile (8 * cl + p))
    (List.range 8) (i % 8) (List.mem_range.mpr (by omega)) List.nodup_range
    (fun k hk hne u => by
      have hk := List.mem_range.mp hk
      obtain ⟨htile, hrun⟩ := loseTile_other u (8 * cl + k) i (by omega) (by omega) (by omega)
      exact congrArg₂ Prod.mk htile hrun) t
  obtain ⟨htile, hrun⟩ := Prod.mk.inj hu
  obtain ⟨hlost, -⟩ := Prod.mk.inj hloop
  unfold Tx.loseTiles
  rw [hlost, ← hik, loseTile_worn u i (hrun ▸ h), htile]

/-! ### DOZE -/

/-- The page of power states is no tile's. -/
theorem offTiles_power (cl : Nat) (hcl : cl < 8) : offTiles cl PWR.STATE.CLUSTER.at_ := by
  intro p hp
  simp only [Fld.at_, Fld.addr, PWR.STATE.CLUSTER, Page.base, Page.size]
  omega

/-- The cluster powers down after its tiles have lost their state. -/
def Tx.powerDown (t : Tx s) (cl : Nat) : Tx s :=
  ((t.loseTiles cl).setClusterPower cl 2).modClusters cl fun c => { c with idleEpochs := 0, gated := false }

theorem enterDoze_eq (t : Tx s) (cl : Nat) : t.enterDoze cl = (t.powerDown cl).when ((t.powerDown cl).now.placedOn (2 ^ cl)) fun t =>
    t.putPower { t.now.power with waking := t.now.power.waking ||| 2 ^ cl } := rfl

theorem powerDown_clusterPower (t : Tx s) {cl j : Nat} (hcl : cl < 8) (hj : j < 8) :
    (t.powerDown cl).now.clusterPower j = if j = cl then 2 else t.now.clusterPower j := by
  have hlost := clusterPower_congr ((loseTiles_only t cl).1 _ (offTiles_power cl hcl)) j
  have hset := clusterPower_set (t.loseTiles cl) 2 hcl hj
  rw [hlost] at hset
  exact hset

theorem enterDoze_clusterPower (t : Tx s) {cl j : Nat} (hcl : cl < 8) (hj : j < 8) :
    (t.enterDoze cl).now.clusterPower j = if j = cl then 2 else t.now.clusterPower j := by
  rw [enterDoze_eq, Tx.when]
  split
  · exact powerDown_clusterPower t hcl hj
  · exact powerDown_clusterPower t hcl hj

theorem powerDown_tilesAt (t : Tx s) (cl i : Nat) : (t.powerDown cl).now.tilesAt i = (t.loseTiles cl).now.tilesAt i := by
  have hset := (setClusterPower_only (t.loseTiles cl) cl 2).tilesAt i
  unfold Tx.powerDown
  rw [Tx.modClusters_now, Act.apply_tilesAt]
  exact hset

theorem powerDown_clusters (t : Tx s) (cl : Nat) :
    (t.powerDown cl).now.clustersAt cl = { t.now.clustersAt cl with idleEpochs := 0, gated := false } ∧
      ∀ j, j ≠ cl → (t.powerDown cl).now.clustersAt j = t.now.clustersAt j := by
  have hset : ∀ j, ((t.loseTiles cl).setClusterPower cl 2).now.clustersAt j = t.now.clustersAt j := fun j =>
    ((setClusterPower_only (t.loseTiles cl) cl 2).clustersAt j).trans ((loseTiles_only t cl).clustersAt j)
  unfold Tx.powerDown
  rw [Tx.modClusters_now]
  refine ⟨by rw [hset]; simp, fun j hj => ?_⟩
  rw [Act.apply_clustersAt, ← hset j]
  exact if_neg hj

/-- The frame of a cluster that powers down. -/
theorem powerDown_keeps (t : Tx s) (cl : Nat) :
    { (t.powerDown cl).now with clusters := t.now.clusters, tiles := t.now.tiles, regs := t.now.regs, deferred := t.now.deferred,
                                held := t.now.held } = t.now := by
  have hset := (setClusterPower_only (t.loseTiles cl) cl 2).1
  have hlost := (loseTiles_only t cl).2.2
  unfold Tx.powerDown
  generalize (t.loseTiles cl).setClusterPower cl 2 = u at hset ⊢
  generalize t.loseTiles cl = v at hset hlost
  rw [← hset] at hlost
  exact congrArg (fun x : State => { x with clusters := t.now.clusters }) hlost

end Sys2Proof.Machine
end

section
/-!
PROOFS. How power transitions end (R454, R455, R457, R458): clusters take their states and BUSY clears, SLUMBER is entered, a cluster wakes.
-/

namespace Sys2Proof.Machine

open Sys2Proof.Claims

variable {s : State}

/-! ### The end of a request's transition -/

/-- BUSY clears. -/
theorem endTrans_spec (t : Tx s) : t.endTrans.now.flag PWR.REQSTAT.BUSY = false ∧
    t.endTrans.now.power = { t.now.power with trans := none } ∧
    PowerAndWords t.now t.endTrans.now [PWR.REQSTAT.BUSY.at_] := by
  refine ⟨flag_same _ PWR.REQSTAT.BUSY false 0 0 (by decide) (by decide +kernel) rfl, ?_,
    (PowerAndWords.putPower t _ _).trans (.ofWords (setFld_only _ PWR.REQSTAT.BUSY _ 0 0 rfl))⟩
  unfold Tx.endTrans
  rw [Tx.setFld_power, Tx.putPower_now, Act.apply_power]

theorem powerTransitionDone_module (fails : Bool) (ht : s.tripped = false) (hf : s.fatal = false) (hs : s.slumber = false) :
    exec (.powerTransitionDone none fails) s = done (begin s).finishTrans := by
  change execPowerTransitionDone none fails s = _
  simp [execPowerTransitionDone, Tx.when, ht, hf, hs]

/-- A cluster of a request goes to its state. -/
def Tx.moveCluster (target : Nat) (t : Tx s) (cl : Nat) : Tx s :=
  let st := t.now.clusterPower cl
  if target = 2 then (if st = 2 || st = 3 then t else t.enterDoze cl)
  else if st = 2 then t.setClusterPower cl target else t

theorem finishTrans_clusters {t : Tx s} {target mask : Nat} (h : t.now.power.trans = some (target, mask)) (ht : target ≠ 3) :
    t.finishTrans = (t.forEach (clustersOf mask) (Tx.moveCluster target)).endTrans := by
  unfold Tx.finishTrans
  rw [h]
  exact if_neg ht

/-- A dozing cluster becomes ACTIVE or IDLE. -/
theorem moveCluster_wakes (t : Tx s) {target cl j : Nat} (ht : target < 2) (hcl : cl < 8) (hj : j < 8) :
    (t.moveCluster target cl).now.clusterPower j =
      if j = cl && t.now.clusterPower j = 2 then target else t.now.clusterPower j := by
  unfold Tx.moveCluster
  dsimp only
  rw [if_neg (by omega)]
  split
  next h =>
    rw [clusterPower_set _ _ hcl hj, show target % 4 = target by omega]
    by_cases hjc : j = cl
    · subst hjc; simp [h]
    · simp [hjc]
  next h =>
    by_cases hjc : j = cl
    · subst hjc; simp [h]
    · simp [hjc]

theorem moveCluster_wakes_only (t : Tx s) {target : Nat} (ht : target < 2) (cl : Nat) :
    OnlyWords t.now (t.moveCluster target cl).now [PWR.STATE.CLUSTER.at_] := by
  unfold Tx.moveCluster
  dsimp only
  rw [if_neg (by omega)]
  split
  · exact setClusterPower_only ..
  · exact .refl _ _

/-- A cluster that has power dozes. -/
theorem moveCluster_dozes (t : Tx s) {cl j : Nat} (hcl : cl < 8) (hj : j < 8) :
    (t.moveCluster 2 cl).now.clusterPower j = if j = cl && t.now.clusterPower j ≠ 3 then 2 else t.now.clusterPower j := by
  unfold Tx.moveCluster
  dsimp only
  rw [if_pos rfl]
  split
  next h =>
    by_cases hjc : j = cl
    · subst hjc
      rcases (Bool.or_eq_true ..).mp h with h | h <;> simp [of_decide_eq_true h]
    · simp [hjc]
  next h =>
    rw [enterDoze_clusterPower t hcl hj]
    by_cases hjc : j = cl
    · subst hjc
      have h3 : t.now.clusterPower j ≠ 3 := fun h3 => h (by simp [h3])
      simp [h3]
    · simp [hjc]

/-- The clusters of a request after its transition: those whose state it is for have gone to its target. -/
theorem finishTrans_clusterPower {t : Tx s} {target mask cl : Nat} {p : Nat → Bool} (h : t.now.power.trans = some (target, mask))
    (ht : target ≠ 3) (hcl : cl < 8)
    (hmove : ∀ (u : Tx s) (k : Nat), k < 8 → (u.moveCluster target k).now.clusterPower cl =
      if cl = k && p (u.now.clusterPower cl) then target else u.now.clusterPower cl) :
    t.finishTrans.now.clusterPower cl = if bit mask cl && p (t.now.clusterPower cl) then target else t.now.clusterPower cl := by
  rw [finishTrans_clusters h ht]
  have hend := (endTrans_spec (t.forEach (clustersOf mask) (Tx.moveCluster target))).2.2.1
  rw [clusterPower_congr (hend PWR.STATE.CLUSTER.at_ (by decide)) cl,
    Tx.forEach_at (v := fun u => u.clusterPower cl) (g := fun x => if p x then target else x) (clustersOf mask) cl
      (fun x => by by_cases hx : p x = true <;> simp [hx]) (fun hk u => by simp [hmove u cl hcl])
      (fun k hk hne u => by simp [hmove u k (mem_clustersOf.mp hk).1, Ne.symm hne]) t]
  by_cases hb : bit mask cl = true <;> simp [mem_clustersOf, hcl, hb]

theorem transition_wakes (target mask : Nat) (fails : Bool) (s : State) (ht : s.tripped = false) (hf : s.fatal = false)
    (hs : s.slumber = false) (htarget : target < 2) (htrans : s.power.trans = some (target, mask)) :
    ∃ t, exec (.powerTransitionDone none fails) s = .next t ∧
      t.flag PWR.REQSTAT.BUSY = false ∧ t.power = { s.power with trans := none } ∧
      (∀ cl, cl < 8 → t.clusterPower cl = if bit mask cl && s.clusterPower cl = 2 then target else s.clusterPower cl) ∧
      RegsBut s t [PWR.REQSTAT.BUSY.at_, PWR.STATE.CLUSTER.at_] ∧ { t with power := s.power, regs := s.regs } = s := by
  have hloop : OnlyWords s ((begin s).forEach (clustersOf mask) (Tx.moveCluster target)).now [PWR.STATE.CLUSTER.at_] :=
    Tx.forEach_keeps (P := fun u => OnlyWords s u.now [PWR.STATE.CLUSTER.at_]) _
      (fun cl _ u hu => hu.trans (moveCluster_wakes_only u htarget cl)) (begin s) (.refl _ _)
  have hfin := finishTrans_clusters (t := begin s) htrans (by omega)
  obtain ⟨hbusy, hpower, hend⟩ := endTrans_spec ((begin s).forEach (clustersOf mask) (Tx.moveCluster target))
  refine ⟨_, powerTransitionDone_module fails ht hf hs, ?_, ?_, fun cl hcl => ?_, ?_⟩
  · rw [hfin]; exact hbusy
  · rw [hfin, hpower, hloop.power]
  · exact finishTrans_clusterPower (p := fun st => st = 2) htrans (by omega) hcl fun u k hk => moveCluster_wakes u htarget hk hcl
  · rw [hfin]
    exact ((PowerAndWords.ofWords hloop).mono (by simp)).trans (hend.mono (by simp))

theorem transition_dozes (mask : Nat) (fails : Bool) (s : State) (ht : s.tripped = false) (hf : s.fatal = false)
    (hs : s.slumber = false) (htrans : s.power.trans = some (2, mask)) :
    ∃ t, exec (.powerTransitionDone none fails) s = .next t ∧ t.flag PWR.REQSTAT.BUSY = false ∧
      t.power.trans = none ∧ ∀ cl, cl < 8 → t.clusterPower cl = if bit mask cl && s.clusterPower cl ≠ 3 then 2 else s.clusterPower cl := by
  have hfin := finishTrans_clusters (t := begin s) htrans (by decide)
  obtain ⟨hbusy, hpower, -⟩ := endTrans_spec ((begin s).forEach (clustersOf mask) (Tx.moveCluster 2))
  refine ⟨_, powerTransitionDone_module fails ht hf hs, ?_, ?_, fun cl hcl => ?_⟩
  · rw [hfin]; exact hbusy
  · rw [hfin, hpower]
  · exact finishTrans_clusterPower (p := fun st => st ≠ 3) htrans (by decide) hcl fun u k hk => moveCluster_dozes u hk hcl

/-! ### SLUMBER -/

/-- Both dies lose their contents. -/
def Tx.loseDies (t : Tx s) : Tx s :=
  (t.forEach (List.range 64) fun t i => (t.putTiles i (t.tilesAt i).worn).zeroRange (spadBase i) spadBytes).forEach (List.range 8)
    fun t cl => t.loseCluster cl

/-- On pages 0 to `N - 1` of its type a field that meets `p` becomes `v`. -/
def Tx.replaceFld (t : Tx s) (f : Fld) (p : Nat → Prop) [DecidablePred p] (v N : Nat) : Tx s :=
  t.forEach (List.range N) fun t n => if p (t.fld f n) then t.setFld f v n else t

/-- Trained memory controllers are put in self-refresh. -/
def Tx.refreshTiers (t : Tx s) : Tx s :=
  t.forEach (List.range 28) fun t m => if t.fld MEMC.STAT.STATE m = 2 then t.setFld MEMC.STAT.STATE 3 m else t

theorem refreshTiers_eq (t : Tx s) : t.refreshTiers = t.replaceFld MEMC.STAT.STATE (· = 2) 3 28 := rfl

/-- Links that train or are up go DOWN. -/
def Tx.downLinks (t : Tx s) : Tx s :=
  t.forEach (List.range 24) fun t l =>
    if t.fld LINK.STAT.STATE l = 2 ∨ t.fld LINK.STAT.STATE l = 3 then t.setFld LINK.STAT.STATE 1 l else t

theorem downLinks_eq (t : Tx s) : t.downLinks = t.replaceFld LINK.STAT.STATE (fun st => st = 2 ∨ st = 3) 1 24 := rfl

theorem enterSlumber_eq (t : Tx s) : t.enterSlumber =
    let u := t.loseDies.refreshTiers.downLinks
    ((u.putPower { u.now.power with savedClusters := t.now.fld PWR.STATE.CLUSTER }).setFld PWR.STATE.MODULE 3).endTrans := by
  unfold Tx.enterSlumber Tx.loseDies Tx.refreshTiers Tx.downLinks
  rfl

/-- The dies' contents are neither registers nor power management. -/
theorem loseDies_keeps (t : Tx s) : (t.loseDies.now.regs, t.loseDies.now.power) = (t.now.regs, t.now.power) := by
  have hzero : ∀ (u : Tx s) (a n : Nat), ((u.zeroRange a n).now.regs, (u.zeroRange a n).now.power) = (u.now.regs, u.now.power) :=
    fun u a n => (congrArg (fun x : State => (x.regs, x.power)) (zeroRange_only u a n) :)
  unfold Tx.loseDies
  refine (Tx.forEach_same (v := fun u => (u.regs, u.power)) (List.range 8) (fun cl _ u => ?_) _).trans
    (Tx.forEach_same (v := fun u => (u.regs, u.power)) (List.range 64) (fun i _ u => (hzero _ _ _).trans ?_) t)
  · simp [Tx.loseCluster]
  · simp

section
variable (t : Tx s) {f : Fld} (p : Nat → Prop) [DecidablePred p] {v N : Nat}

theorem replaceFld_power : (t.replaceFld f p v N).now.power = t.now.power := by
  refine Tx.forEach_same (v := fun u => u.power) _ (fun n _ u => ?_) t
  split
  · exact Tx.setFld_power ..
  · rfl

theorem replaceFld_elsewhere (g : Fld) (m : Nat) (hN : N ≤ f.page.count) (hm : m < g.page.count) (hf : f.sound = true)
    (hg : g.sound = true) (h : f.elsewhere g = true) : (t.replaceFld f p v N).now.fld g m = t.now.fld g m := by
  refine Tx.forEach_same (v := fun u => u.fld g m) _ (fun n hn u => ?_) t
  split
  · exact fld_elsewhere u f g v n 0 m 0 ((List.mem_range.mp hn).trans_le hN) hm hf hg h
  · rfl

theorem replaceFld_fld (hN : N ≤ f.page.count) (hf : f.sound = true) (hv : v < 2 ^ (f.hi + 1 - f.lo)) {n : Nat} (hn : n < N) :
    (t.replaceFld f p v N).now.fld f n = if p (t.now.fld f n) then v else t.now.fld f n := by
  refine (Tx.forEach_at (v := fun u => u.fld f n) (g := fun x => if p x then v else x) (List.range N) n
    (fun x => by by_cases hx : p x <;> simp [hx]) (fun _ u => ?_) (fun k hk hne u => ?_) t).trans (if_pos (List.mem_range.mpr hn))
  · unfold Tx.fld
    split
    · rw [fld_same u f v n 0 (hn.trans_le hN) hf, Nat.mod_eq_of_lt hv]
    · rfl
  · split
    · exact fld_apart u f f v k 0 n 0 ((List.mem_range.mp hk).trans_le hN) (hn.trans_le hN) hf hf (.inr (.inl (Ne.symm hne)))
    · rfl

end

/-- Without power both dies' contents are gone, the trained tiers are in self-refresh, and no link trains or is up. -/
theorem powerLost_spec (t : Tx s) : t.loseDies.refreshTiers.downLinks.now.power = t.now.power ∧
    (∀ l, l < 24 → t.loseDies.refreshTiers.downLinks.now.fld LINK.STAT.STATE l ≠ 2 ∧
      t.loseDies.refreshTiers.downLinks.now.fld LINK.STAT.STATE l ≠ 3) ∧
    ∀ m, m < 28 → t.loseDies.refreshTiers.downLinks.now.fld MEMC.STAT.STATE m =
      if t.now.fld MEMC.STAT.STATE m = 2 then 3 else t.now.fld MEMC.STAT.STATE m := by
  obtain ⟨hregs, hpower⟩ := Prod.mk.inj (loseDies_keeps t)
  have hwords : ∀ a, t.loseDies.now.regsAt a = t.now.regsAt a := fun a => by unfold State.regsAt; rw [hregs]
  refine ⟨?_, fun l hl => ?_, fun m hm => ?_⟩
  · rw [downLinks_eq, replaceFld_power, refreshTiers_eq, replaceFld_power, hpower]
  · have hdown := replaceFld_fld t.loseDies.refreshTiers (f := LINK.STAT.STATE) (fun st => st = 2 ∨ st = 3) (v := 1)
      (by decide) (by decide +kernel) (by decide) hl
    rw [downLinks_eq, hdown]
    split
    · decide
    next h => exact not_or.mp h
  · rw [downLinks_eq, replaceFld_elsewhere _ _ MEMC.STAT.STATE m (by decide) hm (by decide +kernel) (by decide +kernel) rfl,
      refreshTiers_eq, replaceFld_fld _ _ (by decide) (by decide +kernel) (by decide) hm, fld_congr hwords MEMC.STAT.STATE m 0]

/-- A register of another page is in none of the words that show a power state. -/
theorem Fld.notPowerWord (f : Fld) (n : Nat) (hn : n < f.page.count) (hf : f.off + f.stride * 0 + 4 * (f.lo / 32) < f.page.size)
    (hp : f.page ≠ .PWR) :
    f.at_ n ∉ [PWR.STATE.MODULE.at_, PWR.REQSTAT.BUSY.at_] := by
  simp only [List.mem_cons, List.not_mem_nil, or_false, not_or]
  exact ⟨Fld.word_apart PWR.STATE.MODULE f 0 0 n 0 (by decide) hn (by decide) hf (.inl hp),
    Fld.word_apart PWR.REQSTAT.BUSY f 0 0 n 0 (by decide) hn (by decide) hf (.inl hp)⟩

/-- SLUMBER as it is entered. -/
theorem enterSlumber_spec (t : Tx s) : t.enterSlumber.now.slumber = true ∧ t.enterSlumber.now.flag PWR.REQSTAT.BUSY = false ∧
    t.enterSlumber.now.power = { t.now.power with trans := none, savedClusters := t.now.fld PWR.STATE.CLUSTER } ∧
    (∀ l, l < 24 → t.enterSlumber.now.fld LINK.STAT.STATE l ≠ 2 ∧ t.enterSlumber.now.fld LINK.STAT.STATE l ≠ 3) ∧
    ∀ m, m < 28 →
      t.enterSlumber.now.fld MEMC.STAT.STATE m = if t.now.fld MEMC.STAT.STATE m = 2 then 3 else t.now.fld MEMC.STAT.STATE m := by
  obtain ⟨hlost, hlinks, hmem⟩ := powerLost_spec t
  rw [enterSlumber_eq]
  generalize t.loseDies.refreshTiers.downLinks = u at hlost hlinks hmem ⊢
  dsimp only
  obtain ⟨hbusy, hpower, hend, -⟩ := endTrans_spec
    ((u.putPower { u.now.power with savedClusters := t.now.fld PWR.STATE.CLUSTER }).setFld PWR.STATE.MODULE 3)
  have hshown : RegsBut u.now _ [PWR.STATE.MODULE.at_, PWR.REQSTAT.BUSY.at_] :=
    RegsBut.trans (RegsBut.setFld _ (RegsBut.act u (RegsBut.refl _ _) (.power _) rfl) PWR.STATE.MODULE 3 0 0 rfl (by decide))
      (RegsBut.mono hend (by decide))
  refine ⟨decide_eq_true ?_, hbusy, ?_, fun l hl => ?_, fun m hm => ?_⟩
  · rw [RegsBut.fld hend PWR.STATE.MODULE 0 0 rfl (by decide), fld_same _ PWR.STATE.MODULE 3 0 0 (by decide) (by decide +kernel)]
    rfl
  · rw [hpower, Tx.setFld_power, Tx.putPower_now, Act.apply_power, hlost]
  · rw [RegsBut.fld hshown LINK.STAT.STATE l 0 rfl (Fld.notPowerWord LINK.STAT.STATE l hl (by decide) (by decide))]
    exact hlinks l hl
  · rw [RegsBut.fld hshown MEMC.STAT.STATE m 0 rfl (Fld.notPowerWord MEMC.STAT.STATE m hm (by decide) (by decide)), hmem m hm]

theorem transition_slumber (mask : Nat) (fails : Bool) (s : State) (ht : s.tripped = false) (hf : s.fatal = false)
    (hs : s.slumber = false) (htrans : s.power.trans = some (3, mask)) (hwriting : s.life.writing ≠ some 1)
    (hwaiting : 1 ∉ s.life.waiting) :
    ∃ t, exec (.powerTransitionDone none fails) s = .next t ∧ t.slumber = true ∧ t.flag PWR.REQSTAT.BUSY = false ∧
      t.power = { s.power with trans := none, savedClusters := s.fld PWR.STATE.CLUSTER } ∧
      (∀ l, l < 24 → t.fld LINK.STAT.STATE l ≠ 2 ∧ t.fld LINK.STAT.STATE l ≠ 3) ∧
      (∀ m, m < 28 → t.fld MEMC.STAT.STATE m = if s.fld MEMC.STAT.STATE m = 2 then 3 else s.fld MEMC.STAT.STATE m) := by
  have hfin : (begin s).finishTrans = (begin s).enterSlumber := by
    unfold Tx.finishTrans
    rw [begin_now, htrans]
    dsimp only
    rw [if_pos rfl, if_neg (by simp [hwriting, hwaiting])]
  refine ⟨_, powerTransitionDone_module fails ht hf hs, ?_⟩
  rw [hfin]
  exact enterSlumber_spec (begin s)

theorem Quiet.power {s t : State} (h : Quiet s t) : t.power = s.power := (congrArg (fun x : State => x.power) h.1 :)

/-- A regulator that keeps failing leaves the module in SLUMBER. -/
theorem transition_exit_fails (s : State) (ht : s.tripped = false) (hf : s.fatal = false) (hs : s.slumber = true)
    (hleaving : s.power.leaving = true) :
    ∃ t, exec (.powerTransitionDone none true) s = .next t ∧ t.power = { s.power with leaving := false } ∧
      Quiet { s with power := t.power } t := by
  have hexec : exec (.powerTransitionDone none true) s = done (((begin s).putPower { s.power with leaving := false }).logError .PWR 0
      { status := .NOT_READY, cls := 3 }) := by
    change execPowerTransitionDone none true s = _
    simp [execPowerTransitionDone, Tx.when, ht, hf, hs, hleaving, Tx.slumberExit]
  have hquiet := Quiet.logError ((begin s).putPower { s.power with leaving := false }) .PWR 0 { status := .NOT_READY, cls := 3 }
    (by decide) rfl (by decide)
  refine ⟨_, hexec, hquiet.power, ?_⟩
  rw [hquiet.power]
  exact hquiet

/-- A cluster that was asked to wake is ACTIVE, and so is the module. -/
theorem transition_cluster (cl : Fin 8) (fails : Bool) (s : State) (ht : s.tripped = false) (hf : s.fatal = false)
    (hwaking : bit s.power.waking cl = true) (hdoze : s.clusterPower cl = 2) (hmod : s.fld PWR.STATE.MODULE ≠ 2)
    (hs : s.slumber = false) : ∃ t, exec (.powerTransitionDone (some cl) fails) s = .next t ∧
      t.clusterPower cl = 0 ∧ t.fld PWR.STATE.MODULE = 0 ∧ (∀ j, j < 8 → j ≠ cl.val → t.clusterPower j = s.clusterPower j) ∧
      t.power = { s.power with waking := s.power.waking - 2 ^ cl.val } ∧ RegsBut s t [PWR.STATE.CLUSTER.at_] ∧
      { t with power := s.power, regs := s.regs } = s := by
  obtain ⟨u, hu⟩ : ∃ u : Tx s, u = (begin s).putPower { s.power with waking := s.power.waking - 2 ^ cl.val } := ⟨_, rfl⟩
  have hfld : ∀ f n k, u.now.fld f n k = s.fld f n k := fun f n k => by rw [hu, Tx.putPower_now, Act.fld_power, begin_now]
  have hpow : ∀ j, u.now.clusterPower j = s.clusterPower j := fun j => by unfold State.clusterPower; rw [hfld]
  have hexec : exec (.powerTransitionDone (some cl) fails) s = done (u.setClusterPower cl 0) := by
    have hwoke : (begin s).wokeCluster cl = u.setClusterPower cl 0 := by
      unfold Tx.wokeCluster
      dsimp only
      rw [begin_now, hwaking, ← hu, hpow, hdoze, Tx.fld, hfld, decide_eq_false hmod]
      rfl
    rw [← hwoke]
    change execPowerTransitionDone (some cl) fails s = _
    simp [execPowerTransitionDone, Tx.when, ht, hf]
  have hset := setClusterPower_only u cl 0
  refine ⟨_, hexec, ?_, setClusterPower_active u cl.isLt (by unfold State.slumber at hs ⊢; rwa [hfld]), fun j hj hne => ?_, ?_, ?_⟩
  · rw [clusterPower_set u 0 cl.isLt cl.isLt, if_pos rfl]
  · rw [clusterPower_set u 0 cl.isLt hj, if_neg hne, hpow]
  · rw [hset.power, hu, Tx.putPower_now, Act.apply_power]
  · have hput := PowerAndWords.putPower (begin s) { s.power with waking := s.power.waking - 2 ^ cl.val } [PWR.STATE.CLUSTER.at_]
    rw [← hu] at hput
    exact hput.trans (.ofWords hset)

theorem powerRequests : PowerRequests :=
  ⟨request_clusters, request_slumber, transition_wakes, transition_dozes, transition_slumber, transition_exit_fails, transition_cluster⟩

end Sys2Proof.Machine
end

section
/-!
PROOFS. Power management (R451, R452, R454 to R456, R459 to R461, R472): clusters that idle, rails that rise, and the cap's groups.
-/

namespace Sys2Proof.Machine

open Sys2Proof.Claims

variable {s : State}

/-! ### Clusters that idle -/

/-- A cluster's record changes. -/
theorem clusterBecomes_put (t : Tx s) (cl : Nat) (f : Cluster → Cluster) {ws : List Nat} (h : OnlyWords s t.now ws) :
    ClusterBecomes s (t.modClusters cl f).now cl (f (s.clustersAt cl)) ws := by
  refine ⟨?_, fun j hj => ?_, congrArg (fun x : State => { x with clusters := s.clusters }) h.1,
    RegsBut.act t h.2 (.clusters cl (f (t.now.clustersAt cl))) rfl⟩
  · rw [Tx.modClusters_now, Act.apply_clustersAt, h.clustersAt]
    exact if_pos rfl
  · rw [Tx.modClusters_now, Act.apply_clustersAt]
    exact (if_neg hj).trans (h.clustersAt j)

/-- An ACTIVE cluster with nothing dispatched gates its clocks. -/
theorem cluster_idles (cl : Fin 8) (s : State) (hactive : s.clusterPower cl = 0) (hfree : s.recordsOn cl = []) :
    ∃ t, exec (.clusterIdleEntry cl) s = .next t ∧ t.clusterPower cl = 1 ∧
      (∀ j, j < 8 → j ≠ cl.val → t.clusterPower j = s.clusterPower j) ∧
      ClusterBecomes s t cl { s.clustersAt cl with gated := true } [PWR.STATE.CLUSTER.at_] := by
  have hexec : exec (.clusterIdleEntry cl) s =
      done (((begin s).setClusterPower cl 1).modClusters cl fun c => { c with gated := true }) := by
    change execClusterIdleEntry cl s = _
    simp [execClusterIdleEntry, Tx.when, hactive, hfree]
  have hset := setClusterPower_only (begin s) cl 1
  have hpow : ∀ j, (((begin s).setClusterPower cl 1).modClusters cl fun c => { c with gated := true }).now.clusterPower j =
      ((begin s).setClusterPower cl 1).now.clusterPower j := fun j => by
    unfold State.clusterPower; rw [Tx.modClusters_now, Act.fld_clusters]
  refine ⟨_, hexec, ?_, fun j hj hne => ?_, clusterBecomes_put _ cl _ hset⟩
  · rw [hpow, clusterPower_set _ 1 cl.isLt cl.isLt, if_pos rfl]
  · rw [hpow, clusterPower_set _ 1 cl.isLt hj, if_neg hne, begin_now]

/-- An IDLE cluster ungates its clocks. -/
theorem cluster_ungates (cl : Fin 8) (s : State) (hidle : s.clusterPower cl = 1) :
    ∃ t, exec (.clusterUngate cl) s = .next t ∧ ClusterBecomes s t cl { s.clustersAt cl with gated := false } [] := by
  have hexec : exec (.clusterUngate cl) s = done ((begin s).modClusters cl fun c => { c with gated := false }) := by
    change execClusterUngate cl s = _
    simp [execClusterUngate, Tx.when, hidle]
  exact ⟨_, hexec, clusterBecomes_put (begin s) cl _ (.refl s [])⟩

/-- An IDLE cluster dozes after its time. -/
theorem cluster_dozes (cl : Fin 8) (s : State) (htmo : s.fld PWR.CAPCTL.DOZETMO ≠ 0) (hidle : s.clusterPower cl = 1)
    (htime : 256 * s.fld PWR.CAPCTL.DOZETMO ≤ (s.clustersAt cl).idleEpochs) (hheld : s.flag (HDR.OWNER.HOLD .CLUSTER) cl = false)
    (hheld' : ∀ p, p < 8 → s.flag (HDR.OWNER.HOLD .TILE) (8 * cl + p) = false) (hplaced : s.placedOn (2 ^ cl.val) = false) :
    ∃ t, exec (.dozeTimeout cl) s = .next t ∧ t.clusterPower cl = 2 ∧
      (∀ j, j < 8 → j ≠ cl.val → t.clusterPower j = s.clusterPower j) ∧
      t.clustersAt cl = { s.clustersAt cl with idleEpochs := 0, gated := false } ∧ (∀ j, j ≠ cl.val → t.clustersAt j = s.clustersAt j) ∧
      (∀ i, i / 8 ≠ cl.val → t.tilesAt i = s.tilesAt i) ∧
      (∀ i, i / 8 = cl.val → s.runState i ≠ runSaved →
        t.tilesAt i = { ({} : Tile) with spares := (s.tilesAt i).spares, pinned := (s.tilesAt i).pinned }) ∧
      { t with clusters := s.clusters, tiles := s.tiles, regs := s.regs, errPages := s.errPages, deferred := s.deferred, held := s.held } = s := by
  have hkeeps := powerDown_keeps (begin s) cl
  have hrec : ((begin s).powerDown cl).now.records = s.records := (congrArg (fun x : State => x.records) hkeeps :)
  have hdoze : (begin s).enterDoze cl = (begin s).powerDown cl := by
    have hfree : ((begin s).powerDown cl).now.placedOn (2 ^ cl.val) = false := by
      unfold State.placedOn at hplaced ⊢
      rw [hrec]; exact hplaced
    rw [enterDoze_eq, hfree]
    rfl
  have hexec : exec (.dozeTimeout cl) s = done ((begin s).powerDown cl) := by
    change execDozeTimeout cl s = _
    refine (congrArg done (if_pos ?_)).trans (congrArg done hdoze)
    simpa [htmo, hidle, htime, hheld, hplaced] using hheld'
  obtain ⟨hcluster, hclusters⟩ := powerDown_clusters (begin s) cl
  refine ⟨_, hexec, ?_, fun j hj hne => ?_, hcluster, hclusters, fun i hi => ?_, fun i hi hrun => ?_, ?_⟩
  · rw [powerDown_clusterPower (begin s) cl.isLt cl.isLt, if_pos rfl]
  · rw [powerDown_clusterPower (begin s) cl.isLt hj, if_neg hne, begin_now]
  · rw [powerDown_tilesAt, (loseTiles_only (begin s) cl).2.1 i hi, begin_now]
  · rw [powerDown_tilesAt, loseTiles_worn (begin s) cl i cl.isLt hi hrun]
    rfl
  · exact congrArg (fun x : State => { x with errPages := s.errPages }) hkeeps

/-! ### Rails -/

/-- Every island's point in effect is in a word of its own. -/
theorem cur_sound : ∀ i, i < 64 → PWR.DVFS.CUR.sound i = true := by decide +kernel

theorem opOf_lt (s : State) (i : Nat) : s.opOf i < 8 := fld_lt s PWR.DVFS.CUR 0 i rfl (by decide)

theorem opOf_setOp_same (t : Tx s) {i : Nat} (hi : i < 64) (op : Nat) : (t.setOp i op).now.opOf i = op % 8 :=
  fld_same t PWR.DVFS.CUR op 0 i (by decide) (cur_sound i hi)

theorem opOf_setOp_other (t : Tx s) {i j : Nat} (hi : i < 64) (hj : j < 64) (h : j ≠ i) (op : Nat) :
    (t.setOp i op).now.opOf j = t.now.opOf j :=
  fld_apart t PWR.DVFS.CUR PWR.DVFS.CUR op 0 i 0 j (by decide) (by decide) (cur_sound i hi) (cur_sound j hj)
    (.inr (.inr (by simp only [PWR.DVFS.CUR]; omega)))

/-- Raised islands switch up in the cycle after their rail has reached a voltage. -/
theorem rail_rises (half : Fin 2) (op : Fin 6) (s : State) (hlow : s.power.rail.getD half 0 < op.val)
    (hramp : op.val ≤ s.power.ramp.getD half 0) :
    ∃ t, exec (.railRampDone half op) s = .next t ∧ t.power = { s.power with rail := s.power.rail.set half op } ∧
      (∀ i, i < 64 → t.opOf i = if s.power.raised.contains i && i / 32 = half.val then max (s.opOf i) (min 4 op.val) else s.opOf i) ∧
      RegsBut s t ((s.power.raised.filter fun i => i / 32 = half.val).map fun i => PWR.DVFS.CUR.at_ 0 i) ∧
      { t with power := s.power, regs := s.regs } = s := by
  obtain ⟨up, hup⟩ : ∃ up, up = s.power.raised.filter fun i => i / 32 = half.val := ⟨_, rfl⟩
  obtain ⟨p, hp⟩ : ∃ p : Power, p = { s.power with rail := s.power.rail.set half op } := ⟨_, rfl⟩
  have hexec : exec (.railRampDone half op) s = done (((begin s).putPower p).forEach up fun t i =>
      t.setOp i (max (t.now.opOf i) (min 4 op.val))) := by
    have hrise : (decide (s.power.rail.getD half 0 < op.val) && decide (op.val ≤ s.power.ramp.getD half 0)) = true := by
      rw [decide_eq_true hlow, decide_eq_true hramp]; rfl
    rw [hup, hp]
    exact congrArg done (if_pos hrise)
  have hlt : ∀ i ∈ up, i < 64 := fun i hi => by
    rw [hup, List.mem_filter, decide_eq_true_eq] at hi
    have := half.isLt
    omega
  have hloop : OnlyWords ((begin s).putPower p).now (((begin s).putPower p).forEach up fun t i =>
      t.setOp i (max (t.now.opOf i) (min 4 op.val))).now (up.map fun i => PWR.DVFS.CUR.at_ 0 i) :=
    Tx.forEach_keeps (P := fun u => OnlyWords ((begin s).putPower p).now u.now (up.map fun i => PWR.DVFS.CUR.at_ 0 i)) up
      (fun i hi u hu => hu.trans (OnlyWords.setFld u (.refl _ _) PWR.DVFS.CUR _ 0 i rfl (List.mem_map_of_mem hi))) _ (.refl _ _)
  have hframe := (PowerAndWords.putPower (begin s) p (up.map fun i => PWR.DVFS.CUR.at_ 0 i)).trans (.ofWords hloop)
  refine ⟨_, hexec, ?_, fun i hi => ?_, ?_⟩
  · rw [hloop.power, Tx.putPower_now, Act.apply_power, hp]
  · rw [Tx.forEach_at (v := fun u => u.opOf i) (g := fun x => max x (min 4 op.val)) up i (fun x => by omega)
      (fun _ u => ?_) (fun k hk hne u => opOf_setOp_other u (hlt k hk) hi (Ne.symm hne) _) _]
    · have hop : ((begin s).putPower p).now.opOf i = s.opOf i := by
        unfold State.opOf; rw [Tx.putPower_now, Act.fld_power, begin_now]
      rw [hop, hup]
      simp
    · have := opOf_lt u.now i
      rw [opOf_setOp_same u hi, Nat.mod_eq_of_lt (by omega)]
  · rw [← hup]; exact hframe

/-! ### The cap's groups -/

/-- The skip level after a group (R459). -/
theorem skipStep_eq (sum cap hyst skip : Nat) (h : skip < 16) : (skip + skipStep sum cap hyst skip).toNat =
    (if 16 * cap < sum then min 15 (skip + 1) else if sum < 16 * (cap - hyst) then skip - 1 else skip) := by
  unfold skipStep
  split
  · split <;> omega
  · by_cases hlow : sum < 16 * (cap - hyst) <;> by_cases hskip : 0 < skip <;> simp [hlow, hskip] <;> omega

/-- A level that does not change has not been moved. -/
theorem skipStep_zero {sum cap hyst skip : Nat} (h : (skip + skipStep sum cap hyst skip).toNat = skip) :
    skipStep sum cap hyst skip = 0 := by
  unfold skipStep at h ⊢
  simp only [Bool.and_eq_true, decide_eq_true_eq] at h ⊢
  split_ifs at h ⊢ <;> omega

/-- A group ends: a written cap is in effect, and a new group begins. -/
def Tx.groupEnds (t : Tx s) : Tx s :=
  let t := t.commitWord (PWR.CAP.CAP.addr 0 0)
  t.putPower { t.now.power with epochs := 0, sum := 0 }

/-- SKIP, ALERT and the count of groups above the cap take their values. -/
def Tx.showGroup (t : Tx s) (next above : Nat) : Tx s :=
  let t := t.setFld PWR.CAPCTL.SKIP next
  (t.putPower { t.now.power with overGroups := above }).setFld PWR.CAPCTL.ALERT (bnat (64 ≤ above))

/-- How many groups in a row, with this one, have been above the cap at the highest level. -/
def State.groupsAbove (s : State) (sum : Nat) : Nat :=
  if s.fld PWR.CAPCTL.SKIP = 15 && 16 * s.effectiveCap < sum then s.power.overGroups + 1 else 0

/-- How far a group that drew `sum` moves the skip level. -/
def State.groupStep (s : State) (sum : Nat) : Int :=
  skipStep sum s.effectiveCap (s.fld PWR.CAPCTL.HYST) (s.fld PWR.CAPCTL.SKIP)

/-- What a group that drew `sum` shows at its end. -/
def Tx.groupOutcome (t : Tx s) (sum : Nat) : Tx s :=
  t.showGroup ((t.now.fld PWR.CAPCTL.SKIP : Int) + t.now.groupStep sum).toNat (t.now.groupsAbove sum)

/-- A group's end shows its outcome; the islands' points move only where the skip level does. -/
theorem capGroup_now (t : Tx s) (hb : t.now.power.braking = false) :
    ∃ q : Power, t.capGroup.now = { (t.groupEnds.groupOutcome t.now.power.sum).now with power := q } ∧
      { q with points := (t.groupEnds.groupOutcome t.now.power.sum).now.power.points } =
        (t.groupEnds.groupOutcome t.now.power.sum).now.power ∧
      (t.groupEnds.now.groupStep t.now.power.sum = 0 → q = (t.groupEnds.groupOutcome t.now.power.sum).now.power) := by
  generalize hc : t.capGroup = c
  unfold Tx.capGroup at hc
  extract_lets t1 p t2 p2 cap skip d t3 above p3 t4 target p4 at hc
  have hends : t.groupEnds = t2 := rfl
  have hp : p = t.now.power := rfl
  have hover : p.overGroups = t2.now.power.overGroups := rfl
  rw [if_neg (by rw [hp, hb]; exact Bool.false_ne_true)] at hc
  rw [hends, ← hp]
  clear_value t2 p
  have hshow : t2.groupOutcome p.sum = t4 := by
    unfold Tx.groupOutcome Tx.showGroup State.groupsAbove
    rw [← hover]
    rfl
  have hstep : t2.now.groupStep p.sum = d := rfl
  rw [hshow, hstep, ← hc]
  clear_value t4 d
  split
  · exact ⟨t4.now.power, rfl, rfl, fun _ => rfl⟩
  next h => exact ⟨_, rfl, rfl, fun h0 => absurd ((Bool.or_eq_true ..).mpr (.inr (decide_eq_true h0))) h⟩

theorem groupEnds_fld (t : Tx s) (f : Fld) (n k : Nat) : t.groupEnds.now.fld f n k = t.now.fld f n k := by
  simp [Tx.groupEnds, Tx.commitWord]

theorem groupEnds_effectiveCap (t : Tx s) : t.groupEnds.now.effectiveCap = t.now.effectiveCap := by
  unfold State.effectiveCap
  simp only [groupEnds_fld]

theorem showGroup_power (t : Tx s) (next above : Nat) :
    (t.showGroup next above).now.power = { t.now.power with overGroups := above } := by
  unfold Tx.showGroup
  dsimp only
  rw [Tx.setFld_power, Tx.putPower_now, Act.apply_power, Tx.setFld_power]

theorem showGroup_only (t : Tx s) (next above : Nat) : PowerAndWords t.now (t.showGroup next above).now [PWR.CAPCTL.SKIP.at_] := by
  unfold Tx.showGroup
  exact ((PowerAndWords.ofWords (setFld_only t PWR.CAPCTL.SKIP _ 0 0 rfl)).trans (.putPower _ _ _)).trans
    (.ofWords (setFld_only _ PWR.CAPCTL.ALERT _ 0 0 rfl))

theorem showGroup_skip (t : Tx s) (next above : Nat) : (t.showGroup next above).now.fld PWR.CAPCTL.SKIP = next % 16 := by
  unfold Tx.showGroup
  dsimp only
  rw [fld_besides _ PWR.CAPCTL.ALERT PWR.CAPCTL.SKIP _ 0 0 0 0 (by decide) (by decide +kernel) (by decide +kernel) rfl, Tx.putPower_now,
    Act.fld_power, fld_same _ PWR.CAPCTL.SKIP _ 0 0 (by decide) (by decide +kernel)]
  rfl

theorem showGroup_alert (t : Tx s) (next above : Nat) :
    (t.showGroup next above).now.flag PWR.CAPCTL.ALERT = decide (64 ≤ above) := by
  unfold Tx.showGroup
  exact flag_same _ PWR.CAPCTL.ALERT _ 0 0 (by decide) (by decide +kernel) rfl

/-- Only power management, a word that waits, and the words named differ. -/
theorem groupOutcome_only (t : Tx s) (sum : Nat) : RegsBut t.now (t.groupEnds.groupOutcome sum).now [PWR.CAPCTL.SKIP.at_] ∧
    { (t.groupEnds.groupOutcome sum).now with power := t.now.power, regs := t.now.regs, deferred := t.now.deferred } = t.now := by
  obtain ⟨hregs, hrest⟩ := showGroup_only t.groupEnds
    ((t.groupEnds.now.fld PWR.CAPCTL.SKIP : Int) + t.groupEnds.now.groupStep sum).toNat (t.groupEnds.now.groupsAbove sum)
  have hends : RegsBut t.now t.groupEnds.now [PWR.CAPCTL.SKIP.at_] ∧
      { t.groupEnds.now with power := t.now.power, deferred := t.now.deferred } = t.now :=
    ⟨RegsBut.act _ (RegsBut.act t (RegsBut.refl _ _) (.deferred _ _) rfl) (.power _) rfl, rfl⟩
  refine ⟨RegsBut.trans hends.1 hregs, ?_⟩
  unfold Tx.groupOutcome
  generalize (t.groupEnds.showGroup _ _).now = u at hrest ⊢
  generalize t.groupEnds.now = v at hrest hends
  exact (congrArg (fun x : State => { x with power := t.now.power, regs := t.now.regs, deferred := t.now.deferred }) hrest).trans
    (congrArg (fun x : State => { x with regs := t.now.regs }) hends.2)

theorem PowerAndWords.deferredAt {s t : State} {ws : List Nat} (h : PowerAndWords s t ws) (a : Nat) : t.deferredAt a = s.deferredAt a :=
  (congrArg (fun x : State => x.deferredAt a) h.2 :)

/-- The power management that a group leaves: a new group, and the count of groups above the cap. -/
theorem groupOutcome_power (t : Tx s) (sum : Nat) : (t.groupEnds.groupOutcome sum).now.power =
    { t.now.power with epochs := 0, sum := 0, overGroups := t.now.groupsAbove sum } := by
  have habove : t.groupEnds.now.groupsAbove sum = t.now.groupsAbove sum := by
    unfold State.groupsAbove
    rw [groupEnds_effectiveCap, groupEnds_fld]
    rfl
  unfold Tx.groupOutcome
  rw [showGroup_power, habove]
  rfl

theorem groupOutcome_step (t : Tx s) (sum : Nat) : t.groupEnds.now.groupStep sum = t.now.groupStep sum := by
  unfold State.groupStep
  rw [groupEnds_effectiveCap, groupEnds_fld, groupEnds_fld]

/-- The skip level after a group (R459). -/
theorem groupOutcome_skip (t : Tx s) {sum next : Nat}
    (hnext : ((t.now.fld PWR.CAPCTL.SKIP : Int) + t.now.groupStep sum).toNat = next) (hlt : next < 16) :
    (t.groupEnds.groupOutcome sum).now.fld PWR.CAPCTL.SKIP = next := by
  unfold Tx.groupOutcome
  rw [showGroup_skip, groupEnds_fld, groupOutcome_step, hnext, Nat.mod_eq_of_lt hlt]

theorem groupOutcome_alert (t : Tx s) (sum : Nat) : (t.groupEnds.groupOutcome sum).now.flag PWR.CAPCTL.ALERT =
    decide (64 ≤ (t.groupEnds.groupOutcome sum).now.power.overGroups) := by
  unfold Tx.groupOutcome
  rw [showGroup_alert, showGroup_power]

/-- The written cap is in effect. -/
theorem groupOutcome_cap (t : Tx s) (sum : Nat) :
    (t.groupEnds.groupOutcome sum).now.regEff (PWR.CAP.CAP.addr 0 0) = t.now.regsAt (PWR.CAP.CAP.addr 0 0) := by
  have hnone : (t.groupEnds.groupOutcome sum).now.deferredAt (PWR.CAP.CAP.addr 0 0) = none :=
    ((showGroup_only t.groupEnds _ _).deferredAt _).trans (by simp [Tx.groupEnds, Tx.commitWord])
  unfold State.regEff
  rw [hnone]
  exact (groupOutcome_only t sum).1 _ (by decide)

/-- The end of a group of 16 epochs. -/
theorem cap_group (s : State) (sum cap skip next : Nat) (hepochs : 16 ≤ s.power.epochs) (hb : s.power.braking = false)
    (hsum : sum = s.power.sum) (hcap : cap = s.effectiveCap) (hskip : skip = s.fld PWR.CAPCTL.SKIP)
    (hnext : next = (if 16 * cap < sum then min 15 (skip + 1) else if sum < 16 * (cap - s.fld PWR.CAPCTL.HYST) then skip - 1 else skip)) :
    ∃ t, exec .capGroupEnd s = .next t ∧ t.fld PWR.CAPCTL.SKIP = next ∧ t.power.epochs = 0 ∧ t.power.sum = 0 ∧
      t.power.overGroups = (if skip = 15 ∧ 16 * cap < sum then s.power.overGroups + 1 else 0) ∧
      t.flag PWR.CAPCTL.ALERT = decide (64 ≤ t.power.overGroups) ∧ t.regEff (PWR.CAP.CAP.addr 0 0) = s.regsAt (PWR.CAP.CAP.addr 0 0) ∧
      (next = skip → t.power.points = s.power.points) ∧ RegsBut s t [PWR.CAPCTL.SKIP.at_] ∧
      { t with power := s.power, regs := s.regs, deferred := s.deferred, out := s.out } = s := by
  have hlt : skip < 16 := hskip ▸ fld_lt s PWR.CAPCTL.SKIP 0 0 rfl (by decide)
  have hstep : s.groupStep sum = skipStep sum cap (s.fld PWR.CAPCTL.HYST) skip := by rw [State.groupStep, ← hcap, ← hskip]
  have hlevel : ((s.fld PWR.CAPCTL.SKIP : Int) + s.groupStep sum).toNat = next := by
    rw [hstep, ← hskip, skipStep_eq _ _ _ _ hlt, hnext]
  have hbelow : next < 16 := by
    rw [hnext]; split_ifs <;> omega
  have habove : s.groupsAbove sum = if skip = 15 ∧ 16 * cap < sum then s.power.overGroups + 1 else 0 := by
    rw [State.groupsAbove, ← hcap, ← hskip]; simp
  -- the state that the group's end shows, up to the islands' points and the pins
  obtain ⟨q, hnow, hq, hstill⟩ := capGroup_now (begin s) hb
  obtain ⟨o, hout⟩ := pins_out (begin s) fun t => t.capGroup
  rw [begin_now, ← hsum] at hnow hq hstill
  rw [groupOutcome_step] at hstill
  have hskipped := groupOutcome_skip (begin s) hlevel hbelow
  have halert := groupOutcome_alert (begin s) sum
  have hcapped := groupOutcome_cap (begin s) sum
  have hpower := groupOutcome_power (begin s) sum
  obtain ⟨hregs, hrest⟩ := groupOutcome_only (begin s) sum
  generalize ((begin s).groupEnds.groupOutcome sum).now = u at hnow hq hstill hskipped halert hcapped hpower hregs hrest
  have hexec : exec .capGroupEnd s = .next { u with power := q, out := o } := by
    rw [show exec .capGroupEnd s = done ((begin s).pins fun t => t.capGroup) from
      congrArg done (if_pos (decide_eq_true hepochs)), done_eq, hout, hnow]
  have hover : q.overGroups = u.power.overGroups := (congrArg (fun p : Power => p.overGroups) hq :)
  have hq' := hq.trans hpower
  refine ⟨_, hexec, hskipped, (congrArg (fun p : Power => p.epochs) hq' :), (congrArg (fun p : Power => p.sum) hq' :),
    (congrArg (fun p : Power => p.overGroups) hq' :).trans habove, halert.trans ?_, hcapped, fun hsame => ?_, hregs,
    congrArg (fun x : State => { x with out := s.out }) hrest⟩
  · rw [← hover]
  · have hzero : s.groupStep sum = 0 := hstep.trans (skipStep_zero (by rw [← hstep, hskip, hlevel, hsame, hskip]))
    exact (congrArg (fun p : Power => p.points) ((hstill hzero).trans hpower) :)

theorem powerManagement : PowerManagement :=
  ⟨cluster_idles, cluster_ungates, cluster_dozes, rail_rises, cap_group⟩

/-- Settles O59: every transition is one sequence of field writes or one loop over clusters, whose frames are those of its steps, and a
group's comparison moves the skip level within 0 to 15. -/
theorem powerStates : Obligations.PowerStates := ⟨powerRequests, powerManagement⟩

end Sys2Proof.Machine
end
